-- ==== Sys2Proof/Word.lean ====
section
/-! DEFINITION. The two word types of the exchange port (R153) and of a sensor character (R192). -/

namespace Sys2Proof

/-- One byte of the exchange memory, or one character of a sensor line. -/
abbrev Byte := BitVec 8

/-- One word of the host bus (R153: each access moves one 16-bit word). -/
abbrev Word := BitVec 16

end Sys2Proof
end

