-- ==== Sys2Proof/Syntax.lean ====
section
/-! DEFINITION. The commands of the LM-8: one constructor per row of spec/opcode_table.json.
The operands are the model's reading of what each event carries (log entry 6). -/

namespace Sys2Proof

/-- Spouts are numbered 0..7 (00_scope 0.5 Numbering). -/
abbrev SpoutId := Fin 8

/-- Slots are numbered 0..31. -/
abbrev SlotId := Fin 32

/-- Products are numbered 0..15. -/
abbrev ProductId := Fin 16

/-- The seven inputs of a spout (07, table of 7.1). -/
inductive InputName where
  | gateClosed
  | gateOpen
  | spoutRaised
  | spoutLowered
  | levelHigh
  | indexReady
  | permit
  deriving DecidableEq, Repr

/-- The commands and events of the part. A `Bool` operand of an input event is its level: `true` is present. -/
inductive Instr where
  /-- POWER_ON (R173). -/
  | powerOn
  /-- HARD_RESET, a low pulse on the RESET pin (R173). -/
  | hardReset
  /-- MEMORY_TEST_COMPLETE, with whether every word read back as written (R173). -/
  | memoryTestComplete (passed : Bool)
  /-- INITIAL_TAKING: the input has held steady at this level for 20 ms (R122). -/
  | initialTaking (i : SpoutId) (input : InputName) (level : Bool)
  /-- PRESENCE_WINDOW_EXPIRY (R149, R174). -/
  | presenceWindowExpiry
  /-- SLOT_WRITE: a host write to word `word` (byte offset 2 × word) of a slot (R155). -/
  | slotWrite (n : SlotId) (word : Fin 128) (value : Word)
  /-- RETURN: a host write of state FREE to word 0 of a slot; `kind` is the write's kind byte (R155). -/
  | returnSlot (n : SlotId) (kind : Byte)
  /-- DISCARDED_WRITE: a host write; `line` holds the thirteen word-address lines, byte address bits 1 to 13 (R156, R177). -/
  | discardedWrite (line : BitVec 13) (value : Word)
  /-- ATTENTION_READ (R168). -/
  | attentionRead
  /-- SOFT_RESET written to CONTROL (R170, R175). -/
  | softReset
  /-- ALL_STOP written to CONTROL (R116, R170). -/
  | allStop
  /-- SOFT_RESET_END (R176). -/
  | softResetEnd
  /-- LOAD posted in a slot (R99). -/
  | load (n : SlotId)
  /-- TWIN posted in a slot (R50). -/
  | twin (n : SlotId)
  /-- ZERO posted in a slot (R92). -/
  | zero (n : SlotId)
  /-- RECONCILE posted in a slot (R94). -/
  | reconcile (n : SlotId)
  /-- PROFILE posted in a slot (R180). -/
  | profile (n : SlotId)
  /-- SEED posted in a slot (R185). -/
  | seed (n : SlotId)
  /-- STOP posted in a slot (R112). -/
  | stop (n : SlotId)
  /-- PRODUCT posted in a slot (R183). -/
  | product (n : SlotId)
  /-- KEEP posted in a slot (R186). -/
  | keep (n : SlotId)
  /-- CLEAR posted in a slot (R187). -/
  | clear (n : SlotId)
  /-- FRAME: the sixth character of a frame arrives on a spout's line and completes it (R141, R142). -/
  | frame (i : SpoutId) (check : Byte)
  /-- FRAMING_ERROR: a character with its stop bit low (R141). -/
  | framingError (i : SpoutId)
  /-- INTER_CHARACTER_TIMEOUT: more than 500 µs inside a frame (R141). -/
  | interCharacterTimeout (i : SpoutId)
  /-- SILENCE_TIMER_EXPIRY (R147). -/
  | silenceTimerExpiry (i : SpoutId)
  /-- GOOD_FRAME_WATCH_EXPIRY (R146). -/
  | goodFrameWatchExpiry (i : SpoutId)
  /-- INPUT_CHANGE: the wired level of an input becomes `level` (R120, R121). -/
  | inputChange (i : SpoutId) (input : InputName) (level : Bool)
  /-- DEBOUNCE_EXPIRY (R120). -/
  | debounceExpiry (i : SpoutId) (input : InputName)
  /-- OPENING_TIMER_EXPIRY (R29). -/
  | openingTimerExpiry (i : SpoutId)
  /-- CLOSE_TIMER_EXPIRY (R34). -/
  | closeTimerExpiry (i : SpoutId)
  /-- RETRY_PAUSE_EXPIRY (R34). -/
  | retryPauseExpiry (i : SpoutId)
  /-- CLOSE_HOLD_EXPIRY (R24). -/
  | closeHoldExpiry (i : SpoutId)
  /-- STARVE_TIMER_EXPIRY (R32). -/
  | starveTimerExpiry (i : SpoutId)
  /-- AERATE_TIMER_EXPIRY (R125). -/
  | aerateTimerExpiry (i : SpoutId)
  /-- TRAVEL_TIMER_EXPIRY (R133). -/
  | travelTimerExpiry (i : SpoutId)
  /-- INDEX_TIMER_EXPIRY (R106). -/
  | indexTimerExpiry (i : SpoutId)
  /-- ZERO_INTERVAL_EXPIRY (R89). -/
  | zeroIntervalExpiry (i : SpoutId)
  /-- ZERO_TIMEOUT_EXPIRY (R87). -/
  | zeroTimeoutExpiry (i : SpoutId)
  /-- PANEL_TIMER_EXPIRY (R171). -/
  | panelTimerExpiry (i : SpoutId)
  /-- CHARACTER_RECEIVED: a character without a framing error (R141). -/
  | characterReceived (i : SpoutId) (char : Byte)
  /-- UNKNOWN_KIND_POSTING: a slot posted with a kind byte the part does not know (R159). -/
  | unknownKindPosting (n : SlotId) (kind : Byte)
  deriving DecidableEq, Repr

end Sys2Proof
end

