-- ==== Sys2Proof/Config.lean ====
section
/-! DEFINITION. What the part fixes: addresses of the exchange memory, fixed times and limits, each with its rule.
The one free value stands last (log entry 31). -/

namespace Sys2Proof.Config

/-- R153: the exchange memory is the byte range 0x0000..0x2FFF (12 KiB). -/
def memoryBytes : Nat := 0x3000
/-- R153: spout `i`'s live panel. -/
def panelBase (i : SpoutId) : Nat := 0x0100 + i.val * 64
/-- R153: spout `i`'s profile image. -/
def profileImageBase (i : SpoutId) : Nat := 0x0300 + i.val * 96
/-- R153: product `p`'s image. -/
def productImageBase (p : ProductId) : Nat := 0x0600 + p.val * 32
/-- R153: preact entry `e`'s image. -/
def preactImageBase (e : Fin 128) : Nat := 0x0800 + e.val * 16
/-- R153: order slot `n`. -/
def slotBase (n : SlotId) : Nat := 0x1000 + n.val * 256
/-- R153: the two registers. -/
def attentionAddress : Nat := 0x3000
def controlAddress : Nat := 0x3002

/-- R193: header fields and their fixed values. -/
def partCode : Nat := 0x4C08
def revision : Nat := 0x0001
def slotCount : Nat := 32
def spoutCount : Nat := 8
def exchangeStateAddress : Nat := 0x0008
def protocolFaultAddress : Nat := 0x000A
def linkStateAddress (i : SpoutId) : Nat := 0x0010 + 2 * i.val

/-- R193: the two CONTROL commands. -/
def softResetCommand : Word := 0x0001
def allStopCommand : Word := 0x0002

/-- R192: the sync character. -/
def syncChar : Byte := 0xA5

/-- R149: the presence window, in ms. -/
def presenceWindowMs : Nat := 500
/-- R146, R147: silence timer and good-frame watch, in ms. -/
def silenceMs : Nat := 20
/-- R24: the close hold. -/
def closeHoldMs : Nat := 500
/-- R34: the retry pause. -/
def retryPauseMs : Nat := 200
/-- R171: the panel timer. -/
def panelTimerMs : Nat := 100
/-- R120: debounce time while the spout has no valid profile. -/
def defaultDebounceMs : Nat := 20
/-- R133: travel time while the spout has no valid profile. -/
def defaultTravelMs : Nat := 30000
/-- R4: the window size while the spout has no valid profile. -/
def defaultWindow : Nat := 16

/-- R6, R15, R108: a gram value saturates at the largest u32. -/
def maxU32 : Nat := 4294967295
/-- R140, R156, R66: a u16 count saturates here. -/
def maxU16 : Nat := 65535
/-- R11: the surge run stays at 1000. -/
def maxSurgeRun : Nat := 1000
/-- R166: the done count stays at 255. -/
def maxDoneCount : Nat := 255
/-- R80: the full zero debt. -/
def fullDebt : Nat := 8
/-- R163: places of a spout queue. -/
def queuePlaces : Nat := 4
/-- R82: in-band samples of a short and of a long capture. -/
def shortCapture : Nat := 64
def longCapture : Nat := 1024
/-- R144: missing samples in a row that make the link LOST, and the largest gap bridged. -/
def missingLimit : Nat := 5
def gapLimit : Nat := 4
/-- R149, R136: good-frame runs for presence and for recovery. -/
def presentRun : Nat := 16
def recoveredRun : Nat := 100
/-- R66: the largest lag, in ms. -/
def maxLag : Nat := 5000
/-- R72: the largest stored overshoot, in g. -/
def maxOvershoot : Int := 2147483647
/-- R94, R95: the reconcile band and the clamp of one correction, in parts per million. -/
def ratioLow : Nat := 950000
def ratioHigh : Nat := 1050000
def stepLow : Nat := 995000
def stepHigh : Nat := 1005000

/-- How deep one action's reports between blocks may nest (log entry 21). -/
def reactionDepth : Nat := 64

/-- The final a twin compartment records when its combined mass passes the largest u32: the spec states no value there.
The argument is the count of free values taken before (log entry 31). -/
opaque freeFinal : Nat → BitVec 32

end Sys2Proof.Config
end

