-- ==== Sys2Proof/Machine/State.lean ====
section
/-! DEFINITION. The state of the LM-8: every register, counter, mode, timer and buffer the spec gives its blocks, as plain
data, and the state right after power-on. Field docstrings name the rule; INVENTORY.md lists them with their reset values. -/

namespace Sys2Proof.Machine

/-- A timer: stopped, or running to the duration (in ms) it was started with (log entry 2). -/
abbrev Timer := Option Nat

/-- The exchange memory: (address, byte) pairs, addresses rising, no byte 0 listed; an unlisted byte reads 0 (R173). -/
abbrev Memory := List Host.Cell

/-- R154. -/
inductive Exchange where
  | starting
  | running
  | resetting
  | halted
  deriving DecidableEq, Repr

/-- R140. -/
inductive Link where
  | searching
  | present
  | lost
  | absent
  deriving DecidableEq, Repr

/-- The stages of a metering context (02, table of 2.1). -/
inductive Stage where
  | idle
  | waitIndex
  | engaging
  | zeroing
  | opening
  | coarse
  | fine
  | closing
  | settling
  | trim
  | releasing
  | zeroRun
  | bound
  deriving DecidableEq, Repr

/-- The phases of a BOUND follower (R54). -/
inductive Phase where
  | waiting
  | engaging
  | zeroing
  | opening
  | feeding
  | closing
  | settling
  | settled
  | releasing
  deriving DecidableEq, Repr

/-- The positioner states (07, table of 7.4), and `notStarted` before the start-up state is taken (R128, R194). -/
inductive Position where
  | notStarted
  | released
  | lowering
  | engaged
  | raising
  | faulted
  deriving DecidableEq, Repr

/-- R127. -/
inductive FaultCause where
  | none
  | travelFault
  | gateFault
  | sensorLost
  | sensorAbsent
  deriving DecidableEq, Repr

/-- The gate output asserted: R22 allows at most one of the three. -/
inductive GateOutput where
  | none
  | openFull
  | openFine
  | close
  deriving DecidableEq, Repr

/-- The spout drive output asserted: R124 allows at most one of LOWER and RAISE. -/
inductive DriveOutput where
  | none
  | lower
  | raise
  deriving DecidableEq, Repr

/-- The capture in progress (R80, 5.2). -/
inductive Capture where
  | none
  | shortInterval
  | shortSettle
  | longBlocking
  | longOrder
  deriving DecidableEq, Repr

/-- R105. -/
inductive IndexWatch where
  | first
  | awaitDrop
  | awaitRise
  | risen
  deriving DecidableEq, Repr

/-- R100. -/
inductive EndMark where
  | none
  | ended
  | stopped
  | spoutFault
  | reset
  deriving DecidableEq, Repr

/-- R66. -/
inductive LagState where
  | fromDefault
  | seeded
  | learned
  deriving DecidableEq, Repr

/-- A request that waits until the spout's inputs are taken (R128, R131). -/
inductive Request where
  | engage
  | release
  deriving DecidableEq, Repr

/-- The entry codes (R196). -/
inductive Code where
  | pending
  | ok
  | under
  | over
  | level
  | noOpen
  | permitLost
  | seatLost
  | vehicleMoved
  | surge
  | noFlow
  | sensorLost
  | sensorAbsent
  | travelFault
  | gateFault
  | partialStop
  | reset
  | zeroUnstable
  | indexTimeout
  | skippedMark
  | skippedLimit
  | notReached
  deriving DecidableEq, Repr

/-- A sensor receiver (R140). An empty `assembly` is HUNTING. -/
structure Receiver where
  link : Link := .searching
  assembly : List Byte := []
  huntCounted : Bool := false
  lastSequence : Option Byte := none
  lastGoodRaw : Int := 0
  missingRun : Nat := 0
  goodRun : Nat := 0
  silence : Timer := none
  /-- The 20 ms watch outside PRESENT (R146). -/
  watch : Timer := none
  linkErrors : Nat := 0
  deriving DecidableEq, Repr

/-- A totalizer channel (01, table of 1.1). -/
structure Channel where
  remainder : Nat := 0
  delivered : Nat := 0
  integrating : Bool := false
  window : List Nat := []
  windowSum : Nat := 0
  fillCount : Nat := 0
  rate : Nat := 0
  surgeRun : Nat := 0
  leakRemainder : Nat := 0
  leakTotal : Nat := 0
  leak : Bool := false
  deriving DecidableEq, Repr

/-- What the exchange port holds of a channel for the spout's panel: the results of the last sample handed to it (R13, R18). -/
structure Handed where
  delivered : Nat := 0
  rate : Nat := 0
  leakTotal : Nat := 0
  leak : Bool := false
  /-- r of that sample; for a substituted sample the last good raw value. -/
  lastRaw : Int := 0
  deriving DecidableEq, Repr

/-- The fields of a profile (R179). -/
structure Profile where
  zeroRef : Int := 0
  zeroLimit : Nat := 0
  zeroBand : Nat := 0
  creepBand : Nat := 0
  spanRef : Nat := 0
  window : Nat := 0
  zeroStep : Nat := 0
  zeroInterval : Nat := 0
  zeroTimeout : Nat := 0
  surgeLimit : Nat := 0
  surgeCount : Nat := 0
  starveRate : Nat := 0
  starveWindow : Nat := 0
  aerationTime : Nat := 0
  settleBand : Nat := 0
  settleCount : Nat := 0
  gateOpenTime : Nat := 0
  gateCloseTime : Nat := 0
  travelTime : Nat := 0
  indexTimeout : Nat := 0
  debounce : Nat := 0
  leakThreshold : Nat := 0
  leakLimit : Nat := 0
  learnGain : Nat := 0
  learnMaxStep : Nat := 0
  learnMinRate : Nat := 0
  deriving DecidableEq, Repr

/-- The calibration unit's data of one spout (R80, R178). -/
structure Calibration where
  profileValid : Bool := false
  profile : Profile := {}
  zero : Int := 0
  span : Nat := 0
  debt : Nat := 8
  interval : Timer := none
  capture : Capture := .none
  captureCount : Nat := 0
  captureSum : Int := 0
  zeroTimeout : Timer := none
  zeroLimit : Bool := false
  deriving DecidableEq, Repr

/-- A spout positioner (R127). -/
structure Positioner where
  position : Position := .notStarted
  drive : DriveOutput := .none
  travel : Timer := none
  cause : FaultCause := .none
  engageWaiting : Bool := false
  /-- Requests received before the inputs were taken, oldest first (R128, R131). -/
  requests : List Request := []
  deriving DecidableEq, Repr

/-- One field input (R120, R122). -/
structure InputLine where
  taken : Bool := false
  wired : Bool := false
  timer : Timer := none
  initiallyTaken : Bool := false
  deriving DecidableEq, Repr

/-- A spout's group in the field line unit (R120, R125). -/
structure FieldGroup where
  gateClosed : InputLine := {}
  gateOpen : InputLine := {}
  spoutRaised : InputLine := {}
  spoutLowered : InputLine := {}
  levelHigh : InputLine := {}
  indexReady : InputLine := {}
  permit : InputLine := {}
  aerate : Bool := false
  aerateTimer : Timer := none
  deriving DecidableEq, Repr

/-- The gate side of a metering context: its outputs and their timers (R20). -/
structure GateUnit where
  output : GateOutput := .none
  opening : Timer := none
  close : Timer := none
  retry : Timer := none
  hold : Timer := none
  starve : Timer := none
  /-- The close in progress has had its first expiry (R34, R35). -/
  secondTry : Bool := false
  /-- CLOSE is held after a failed close until a CLEAR is accepted (R35). -/
  failed : Bool := false
  deriving DecidableEq, Repr

/-- Hold values of a normal fine cut (R31). -/
structure HoldValues where
  deliveredAtCut : Nat
  rateAtCut : Nat
  lagUsed : Nat
  deriving DecidableEq, Repr

/-- The compartment's fields of a context (R20), and the marks its rules imply. -/
structure Compartment where
  index : Nat := 0
  effectiveTarget : Nat := 0
  cause : Option Code := none
  secondary : Option Code := none
  hold : Option HoldValues := none
  closeRetried : Bool := false
  stopPending : Bool := false
  levelAfterCut : Bool := false
  trimsUsed : Nat := 0
  starveCount : Nat := 0
  settleRun : Nat := 0
  /-- The compartment-start request has been sent (R27 step 4, R35, R39). -/
  opened : Bool := false
  /-- The compartment ends without settle when its close ends (R27, R46, R49, R63). -/
  noSettle : Bool := false
  /-- A close of this spout's gate that the compartment waits for has not ended yet: its cut, its close at the opening check, or
  any close that runs as a spout of the pair faults (R33, R56, R63). -/
  closeAwaited : Bool := false
  /-- The settle run of this spout has reached settle_count (R61). -/
  settleDone : Bool := false
  /-- ENGAGED has been reported since the engage request (R55). -/
  engagedReported : Bool := false
  /-- RELEASED has been answered since the release request (R40, R65). -/
  releasedAnswered : Bool := false
  deriving DecidableEq, Repr

/-- One entry of a running order, as read when it became RUNNING (R100). -/
structure OrderEntry where
  target : Nat
  skip : Bool
  deriving DecidableEq, Repr

/-- The order state of a context (R100), with the product copy of R20 and R101. -/
structure OrderState where
  /-- The running order is a TWIN and this context is its leader. -/
  twin : Bool := false
  product : ProductId := 0
  limit : Nat := 0
  count : Nat := 0
  total : Nat := 0
  watch : IndexWatch := .first
  indexTimer : Timer := none
  mark : EndMark := .none
  /-- A STOP or ALL_STOP has been taken against the order (R114). -/
  stopTaken : Bool := false
  entries : List OrderEntry := []
  offset : Int := 0
  fineBand : Nat := 0
  underTol : Nat := 0
  overTol : Nat := 0
  maxTrims : Nat := 0
  trimRate : Nat := 0
  deriving DecidableEq, Repr

/-- The claim of a twin leader on its follower (R51). -/
structure Claim where
  leader : SpoutId
  slot : SlotId
  deriving DecidableEq, Repr

/-- The follower close record (R54, R59). -/
structure CloseRecord where
  rate : Nat
  delivered : Nat
  deriving DecidableEq, Repr

/-- A metering context (R20, R54, R100). -/
structure Context where
  stage : Stage := .idle
  slot : Option SlotId := none
  claim : Option Claim := none
  phase : Phase := .waiting
  closeRecord : Option CloseRecord := none
  gate : GateUnit := {}
  compartment : Compartment := {}
  order : OrderState := {}
  deriving DecidableEq, Repr

/-- Everything the part holds per spout, the preact table apart. -/
structure Spout where
  receiver : Receiver := {}
  channel : Channel := {}
  calibration : Calibration := {}
  positioner : Positioner := {}
  field : FieldGroup := {}
  context : Context := {}
  /-- The spout queue of the intake, oldest first (R163). -/
  queue : List SlotId := []
  /-- R13, R18. -/
  handed : Handed := {}
  /-- R171. -/
  panelTimer : Timer := none
  deriving DecidableEq, Repr

/-- One product (R178, R182). -/
structure Product where
  set : Bool := false
  defaultLag : Nat := 0
  offset : Int := 0
  fineBand : Nat := 0
  underTol : Nat := 0
  overTol : Nat := 0
  maxTrims : Nat := 0
  trimRate : Nat := 0
  deriving DecidableEq, Repr

/-- One preact table entry (R66). -/
structure PreactEntry where
  lag : Nat := 0
  origin : LagState := .fromDefault
  keep : Bool := false
  learnCount : Nat := 0
  lastOvershoot : Int := 0
  deriving DecidableEq, Repr

/-- The exchange port's own state, the memory apart. -/
structure Port where
  exchange : Exchange := .starting
  /-- The memory is being cleared and tested (R173). -/
  testing : Bool := true
  presenceWindow : Timer := none
  doneCount : Nat := 0
  spoutChange : Bool := false
  startUp : Bool := false
  halted : Bool := false
  protocolFaults : Nat := 0
  /-- The word the port drove at the last host read (R168; log entry 4). -/
  hostData : Word := 0
  deriving DecidableEq, Repr

/-- The whole part, and the queue of commands waiting for it, first in, first out. -/
structure State where
  port : Port
  memory : Memory
  spouts : Vector Spout 8
  products : Vector Product 16
  preact : Vector PreactEntry 128
  /-- The model's own: how many free values have been taken (log entry 31). -/
  freeCount : Nat
  pending : List Instr
  deriving DecidableEq, Repr

/-- No command makes the machine stop: HALTED and FAULTED are states of the part (R154, R134). -/
inductive Fault where
  deriving DecidableEq, Repr

/-- Why a command could be refused by the model. -/
inductive Refusal where
  /-- Raised by an arm of exec whose row has no meaning yet. Safe: the model stops. No arm raises it now. -/
  | notModelled (mnemonic : String)
  deriving DecidableEq, Repr

/-- The part right after power-on (R173 and the reset columns of R19, R20, R66, R80, R100, R126, R127, R140, R178). -/
def State.reset : State where
  port := {}
  memory := []
  spouts := Vector.replicate 8 {}
  products := Vector.replicate 16 {}
  preact := Vector.replicate 128 {}
  freeCount := 0
  pending := []

end Sys2Proof.Machine
end

