-- ==== Sys2Proof/Machine/Ops.lean ====
section
/-! DEFINITION. The shared operations over the state: the exchange memory byte by byte and field by field, one home for each
spout's blocks, and the numeric values of Record Layouts (chapter 11). -/

namespace Sys2Proof.Machine

/-! ## The exchange memory -/

/-- The byte at an address; an unlisted byte reads 0 (R173). -/
def Memory.read : Memory → Nat → Byte
  | [], _ => 0
  | (x, y) :: rest, a => if x = a then y else Memory.read rest a

/-- Write one byte, keeping the canonical form: writing 0 removes the entry. -/
def Memory.write : Memory → Nat → Byte → Memory
  | [], a, b => if b = 0 then [] else [(a, b)]
  | (x, y) :: rest, a, b =>
    if a < x then (if b = 0 then (x, y) :: rest else (a, b) :: (x, y) :: rest)
    else if a = x then (if b = 0 then rest else (a, b) :: rest)
    else (x, y) :: Memory.write rest a b

/-- Write consecutive bytes from an address up. -/
def Memory.writeBytes : Memory → Nat → List Byte → Memory
  | m, _, [] => m
  | m, a, b :: bs => Memory.writeBytes (Memory.write m a b) (a + 1) bs

/-- The canonical form: addresses strictly rising from `low`, and no byte 0 listed. -/
def Memory.wfFrom : Nat → Memory → Bool
  | _, [] => true
  | low, (a, b) :: rest => decide (low ≤ a) && b != 0 && Memory.wfFrom (a + 1) rest

/-- The canonical form of a memory. -/
def Memory.wf (m : Memory) : Bool := Memory.wfFrom 0 m

/-- Multi-byte fields are little-endian (00_scope 0.5 Bytes and words). -/
def u8Bytes (n : Nat) : List Byte := [BitVec.ofNat 8 n]
def u16Bytes (n : Nat) : List Byte := [BitVec.ofNat 8 n, BitVec.ofNat 8 (n / 256)]
def u32Bytes (n : Nat) : List Byte := u16Bytes n ++ u16Bytes (n / 65536)
/-- Two's complement of 16 bits. -/
def s16Bytes (z : Int) : List Byte := u16Bytes (z % 65536).toNat
/-- Two's complement of 32 bits. -/
def s32Bytes (z : Int) : List Byte := u32Bytes (z % 4294967296).toNat

def Memory.u8 (m : Memory) (a : Nat) : Nat := (m.read a).toNat
def Memory.u16 (m : Memory) (a : Nat) : Nat := m.u8 a + 256 * m.u8 (a + 1)
def Memory.u32 (m : Memory) (a : Nat) : Nat := m.u16 a + 65536 * m.u16 (a + 2)

/-- The value of a 16-bit two's-complement number. -/
def signed16 (n : Nat) : Int := if n < 32768 then (n : Int) else (n : Int) - 65536

def Memory.s16 (m : Memory) (a : Nat) : Int := signed16 (m.u16 a)

/-! ## The blocks of one spout -/

def State.spout (s : State) (i : SpoutId) : Spout := s.spouts[i]

def State.updateSpout (s : State) (i : SpoutId) (f : Spout → Spout) : State :=
  { s with spouts := s.spouts.set i (f s.spouts[i]) }

def State.receiver (s : State) (i : SpoutId) : Receiver := (s.spout i).receiver
def State.channel (s : State) (i : SpoutId) : Channel := (s.spout i).channel
def State.handed (s : State) (i : SpoutId) : Handed := (s.spout i).handed
def State.calibration (s : State) (i : SpoutId) : Calibration := (s.spout i).calibration
def State.positioner (s : State) (i : SpoutId) : Positioner := (s.spout i).positioner
def State.field (s : State) (i : SpoutId) : FieldGroup := (s.spout i).field
def State.context (s : State) (i : SpoutId) : Context := (s.spout i).context
def State.queue (s : State) (i : SpoutId) : List SlotId := (s.spout i).queue
def State.profile (s : State) (i : SpoutId) : Profile := (s.calibration i).profile
def State.compartment (s : State) (i : SpoutId) : Compartment := (s.context i).compartment
def State.order (s : State) (i : SpoutId) : OrderState := (s.context i).order
def State.gate (s : State) (i : SpoutId) : GateUnit := (s.context i).gate
def State.stage (s : State) (i : SpoutId) : Stage := (s.context i).stage

def State.updateReceiver (s : State) (i : SpoutId) (f : Receiver → Receiver) : State :=
  s.updateSpout i fun p => { p with receiver := f p.receiver }
def State.updateChannel (s : State) (i : SpoutId) (f : Channel → Channel) : State :=
  s.updateSpout i fun p => { p with channel := f p.channel }
def State.updateCalibration (s : State) (i : SpoutId) (f : Calibration → Calibration) : State :=
  s.updateSpout i fun p => { p with calibration := f p.calibration }
def State.updatePositioner (s : State) (i : SpoutId) (f : Positioner → Positioner) : State :=
  s.updateSpout i fun p => { p with positioner := f p.positioner }
def State.updateField (s : State) (i : SpoutId) (f : FieldGroup → FieldGroup) : State :=
  s.updateSpout i fun p => { p with field := f p.field }
def State.updateContext (s : State) (i : SpoutId) (f : Context → Context) : State :=
  s.updateSpout i fun p => { p with context := f p.context }
def State.updateCompartment (s : State) (i : SpoutId) (f : Compartment → Compartment) : State :=
  s.updateContext i fun c => { c with compartment := f c.compartment }
def State.updateOrder (s : State) (i : SpoutId) (f : OrderState → OrderState) : State :=
  s.updateContext i fun c => { c with order := f c.order }
def State.updateGate (s : State) (i : SpoutId) (f : GateUnit → GateUnit) : State :=
  s.updateContext i fun c => { c with gate := f c.gate }
def State.setQueue (s : State) (i : SpoutId) (q : List SlotId) : State :=
  s.updateSpout i fun p => { p with queue := q }
def State.updatePort (s : State) (f : Port → Port) : State := { s with port := f s.port }

/-- Write consecutive bytes of the exchange memory. -/
def State.writeMemory (s : State) (a : Nat) (bytes : List Byte) : State :=
  { s with memory := s.memory.writeBytes a bytes }

/-- The eight spouts in ascending order. -/
def allSpouts : List SpoutId := List.finRange 8

/-- Do something for every spout, in ascending order. -/
def forSpouts (f : SpoutId → State → State) (s : State) : State :=
  allSpouts.foldl (fun t i => f i t) s

/-- The slots in ascending order. -/
def allSlots : List SlotId := List.finRange 32

/-! ## Input lines -/

def FieldGroup.line (g : FieldGroup) : InputName → InputLine
  | .gateClosed => g.gateClosed
  | .gateOpen => g.gateOpen
  | .spoutRaised => g.spoutRaised
  | .spoutLowered => g.spoutLowered
  | .levelHigh => g.levelHigh
  | .indexReady => g.indexReady
  | .permit => g.permit

def FieldGroup.setLine (g : FieldGroup) (n : InputName) (l : InputLine) : FieldGroup :=
  match n with
  | .gateClosed => { g with gateClosed := l }
  | .gateOpen => { g with gateOpen := l }
  | .spoutRaised => { g with spoutRaised := l }
  | .spoutLowered => { g with spoutLowered := l }
  | .levelHigh => { g with levelHigh := l }
  | .indexReady => { g with indexReady := l }
  | .permit => { g with permit := l }

def State.line (s : State) (i : SpoutId) (n : InputName) : InputLine := (s.field i).line n

/-- An input is present as taken (R123). -/
def State.present (s : State) (i : SpoutId) (n : InputName) : Bool := (s.line i n).taken

/-- All seven inputs of a spout have had their initial taking (R122). -/
def FieldGroup.allTaken (g : FieldGroup) : Bool :=
  g.gateClosed.initiallyTaken && g.gateOpen.initiallyTaken && g.spoutRaised.initiallyTaken
    && g.spoutLowered.initiallyTaken && g.levelHigh.initiallyTaken && g.indexReady.initiallyTaken
    && g.permit.initiallyTaken

def State.inputsTaken (s : State) (i : SpoutId) : Bool := (s.field i).allTaken

/-! ## Pairs (R52, 3.1) -/

/-- The odd spout of the pair a spout belongs to. -/
def followerOf (i : SpoutId) : SpoutId := Fin.ofNat 8 (i.val / 2 * 2 + 1)
/-- The even spout of the pair. -/
def leaderOf (i : SpoutId) : SpoutId := Fin.ofNat 8 (i.val / 2 * 2)

/-- A spout's context is BOUND. -/
def State.isBound (s : State) (i : SpoutId) : Bool := s.stage i == .bound

/-- The context that holds the compartment a spout works for: its leader's while BOUND, else its own. -/
def State.ownerOf (s : State) (i : SpoutId) : SpoutId := if s.isBound i then leaderOf i else i

/-- The spout is FAULTED. -/
def State.isFaulted (s : State) (i : SpoutId) : Bool := (s.positioner i).position == .faulted

/-- An open output of the gate is asserted. -/
def GateUnit.isOpen (g : GateUnit) : Bool := g.output == .openFull || g.output == .openFine

/-- A timed close of the gate is in progress: its close timer or its retry pause runs (R34). -/
def GateUnit.isClosing (g : GateUnit) : Bool := g.close.isSome || g.retry.isSome

/-- OPENING, COARSE, FINE and TRIM are the open stages (2.1). -/
def Stage.isOpen : Stage → Bool
  | .opening | .coarse | .fine | .trim => true
  | _ => false

/-- The part takes characters and inputs: from the end of the memory test on, unless HALTED (R122, R149, R173). -/
def Port.linesLive (p : Port) : Bool :=
  match p.exchange with
  | .running | .resetting => true
  | .starting => p.presenceWindow.isSome
  | .halted => false

/-- The host sees the memory, and panels are refreshed, in RUNNING and RESETTING (R154, R171). -/
def Port.visible (p : Port) : Bool := p.exchange == .running || p.exchange == .resetting

/-! ## Numeric values (chapter 11) -/

def Exchange.value : Exchange → Nat
  | .starting => 0
  | .running => 1
  | .resetting => 2
  | .halted => 3

def Link.value : Link → Nat
  | .searching => 0
  | .present => 1
  | .lost => 2
  | .absent => 3

def Position.value : Position → Nat
  | .released => 0
  | .lowering => 1
  | .engaged => 2
  | .raising => 3
  | .faulted => 4
  | .notStarted => 0xFF

def FaultCause.value : FaultCause → Nat
  | .none => 0
  | .travelFault => 1
  | .gateFault => 2
  | .sensorLost => 3
  | .sensorAbsent => 4

def Stage.value : Stage → Nat
  | .idle => 0
  | .waitIndex => 1
  | .engaging => 2
  | .zeroing => 3
  | .opening => 4
  | .coarse => 5
  | .fine => 6
  | .closing => 7
  | .settling => 8
  | .trim => 9
  | .releasing => 10
  | .zeroRun => 11
  | .bound => 12

def Code.value : Code → Nat
  | .pending => 0
  | .ok => 1
  | .under => 2
  | .over => 3
  | .level => 4
  | .noOpen => 5
  | .permitLost => 6
  | .seatLost => 7
  | .vehicleMoved => 8
  | .surge => 9
  | .noFlow => 10
  | .sensorLost => 11
  | .sensorAbsent => 12
  | .travelFault => 13
  | .gateFault => 14
  | .partialStop => 15
  | .reset => 16
  | .zeroUnstable => 17
  | .indexTimeout => 18
  | .skippedMark => 19
  | .skippedLimit => 20
  | .notReached => 21

def LagState.value : LagState → Nat
  | .fromDefault => 0
  | .seeded => 1
  | .learned => 2

/-- The compartment code of a spout's fault cause (R26, R28, R46, R63). -/
def FaultCause.code : FaultCause → Code
  | .none => .pending
  | .travelFault => .travelFault
  | .gateFault => .gateFault
  | .sensorLost => .sensorLost
  | .sensorAbsent => .sensorAbsent

/-- R110: RESET, SPOUT_FAULT, STOPPED, ENDED, none, strongest first. -/
def EndMark.rank : EndMark → Nat
  | .none => 0
  | .ended => 1
  | .stopped => 2
  | .spoutFault => 3
  | .reset => 4

/-- R110: a weaker mark given after a stronger one is not recorded. -/
def EndMark.strongest (old new : EndMark) : EndMark := if old.rank < new.rank then new else old

/-! ## Slot states, kinds, results and refusal reasons (R195) -/

inductive SlotState where
  | free
  | posted
  | queued
  | running
  | done
  deriving DecidableEq, Repr

def SlotState.value : SlotState → Nat
  | .free => 0
  | .posted => 1
  | .queued => 2
  | .running => 3
  | .done => 4

inductive Kind where
  | load
  | twin
  | zero
  | reconcile
  | profile
  | product
  | seed
  | keep
  | clear
  | stop
  deriving DecidableEq, Repr

def Kind.value : Kind → Nat
  | .load => 1
  | .twin => 2
  | .zero => 3
  | .reconcile => 4
  | .profile => 5
  | .product => 6
  | .seed => 7
  | .keep => 8
  | .clear => 9
  | .stop => 10

def Kind.ofValue (n : Nat) : Option Kind :=
  [Kind.load, .twin, .zero, .reconcile, .profile, .product, .seed, .keep, .clear, .stop].find? fun k => k.value == n

inductive Result where
  | none
  | ok
  | exceptions
  | stopped
  | withdrawn
  | ended
  | spoutFault
  | reset
  | refused
  | zeroUnstable
  | outOfBand
  | spanLimit
  | notFaulted
  | stillFaulted
  | withdrawnQueued
  | stoppedRunning
  | tooLate
  deriving DecidableEq, Repr

def Result.value : Result → Nat
  | .none => 0
  | .ok => 1
  | .exceptions => 2
  | .stopped => 3
  | .withdrawn => 4
  | .ended => 5
  | .spoutFault => 6
  | .reset => 7
  | .refused => 8
  | .zeroUnstable => 9
  | .outOfBand => 10
  | .spanLimit => 11
  | .notFaulted => 12
  | .stillFaulted => 13
  | .withdrawnQueued => 14
  | .stoppedRunning => 15
  | .tooLate => 16

inductive Reason where
  | none
  | unknownKind
  | badSpout
  | badField
  | noProfile
  | noProduct
  | spoutFaulted
  | partnerFaulted
  | queueFull
  | busy
  | badTargetSlot
  deriving DecidableEq, Repr

def Reason.value : Reason → Nat
  | .none => 0
  | .unknownKind => 1
  | .badSpout => 2
  | .badField => 3
  | .noProfile => 4
  | .noProduct => 5
  | .spoutFaulted => 6
  | .partnerFaulted => 7
  | .queueFull => 8
  | .busy => 9
  | .badTargetSlot => 10

/-- The field index that names no field (R195). -/
def noField : Nat := 0xFF

/-! ## Reports between blocks

A report that one block hands to another inside one action. A handler takes the machine's reaction to further reports as
an argument; `react` of Machine/React.lean ties the knot. -/

inductive Report where
  /-- A context may serve its queue head or a claim: it is IDLE, or a claim reached it (R52, R164). -/
  | idle (i : SpoutId)
  /-- The positioner reports ENGAGED (R129). -/
  | engaged (i : SpoutId)
  /-- The positioner answers RELEASED (R131). -/
  | released (i : SpoutId)
  /-- A capture that a release may wait for has ended (R40, R86). -/
  | captureEnded (i : SpoutId)
  /-- A request to a FAULTED spout is answered with the fault report (R128, R131). -/
  | faultReport (i : SpoutId)
  deriving DecidableEq, Repr

abbrev Reaction := Report → State → State

end Sys2Proof.Machine
end

