-- ==== Sys2Proof/Machine/Flags.lean ====
section
/-! DEFINITION. ATTENTION's count and flags (R166 to R169), the condition flags of a panel (R194), the exchange header (R172,
R193), and the panels and images, each written under its stamp (R171, R190, R198). -/

namespace Sys2Proof.Machine

/-! ## ATTENTION and CONTROL -/

/-- R166: a slot became DONE; the count stays at 255 once there. -/
def raiseDoneCount (s : State) : State :=
  s.updatePort fun p => { p with doneCount := min (p.doneCount + 1) Config.maxDoneCount }

/-- R167: the spout-change flag. -/
def setSpoutChange (s : State) : State := s.updatePort fun p => { p with spoutChange := true }

def bit (b : Bool) (n : Nat) : Nat := if b then 2 ^ n else 0

/-- R193: ATTENTION as read in RUNNING and RESETTING; in HALTED the halted bit alone, in STARTING 0 (R154, R168). -/
def attentionWord (p : Port) : Nat :=
  match p.exchange with
  | .running | .resetting => p.doneCount + bit p.spoutChange 8 + bit p.startUp 9 + bit p.halted 10
  | .halted => bit p.halted 10
  | .starting => 0

/-- R169: the ATTENTION line; released throughout STARTING and HALTED. -/
def attentionLine (p : Port) : Bool := p.visible && (0 < p.doneCount || p.spoutChange || p.startUp)

/-! ## The header (R172, R193) -/

/-- R156, R172: a discarded write is counted, and the header field rewritten. -/
def countProtocolFault (s : State) : State :=
  let n := min (s.port.protocolFaults + 1) Config.maxU16
  (s.updatePort fun p => { p with protocolFaults := n }).writeMemory Config.protocolFaultAddress (u16Bytes n)

/-- R154, R172: the exchange state, and its header field in RUNNING and RESETTING. -/
def setExchange (x : Exchange) (s : State) : State :=
  (s.updatePort fun p => { p with exchange := x }).writeMemory Config.exchangeStateAddress (u16Bytes x.value)

/-- R152, R172: a receiver's link state in the header; in STARTING the header is not yet written (R174). -/
def writeLinkState (i : SpoutId) (s : State) : State :=
  if s.port.visible then s.writeMemory (Config.linkStateAddress i) (u16Bytes (s.receiver i).link.value) else s

/-- R174 step 1: the whole header. -/
def writeHeader (s : State) : State :=
  let s := s.writeMemory 0 (u16Bytes Config.partCode ++ u16Bytes Config.revision ++ u16Bytes Config.slotCount
    ++ u16Bytes Config.spoutCount ++ u16Bytes s.port.exchange.value ++ u16Bytes s.port.protocolFaults)
  forSpouts writeLinkState s

/-! ## Records under a stamp -/

/-- R171, R190: raise the stamp by one, write the fields, raise it again; the stamp wraps from 65535 to 0. -/
def writeStamped (base : Nat) (fields : List Byte) (s : State) : State :=
  let stamp := s.memory.u16 base
  ((s.writeMemory base (u16Bytes (stamp + 1))).writeMemory (base + 2) fields).writeMemory base (u16Bytes (stamp + 2))

/-- R194: LEAK, ZERO_LIMIT and FAULTED. -/
def conditionFlags (p : Spout) : Nat :=
  bit p.handed.leak 0 + bit p.calibration.zeroLimit 1 + bit (p.positioner.position == .faulted) 2

/-- R194: the taken levels. -/
def inputBits (g : FieldGroup) : Nat :=
  bit g.gateClosed.taken 0 + bit g.gateOpen.taken 1 + bit g.spoutRaised.taken 2 + bit g.spoutLowered.taken 3
    + bit g.levelHigh.taken 4 + bit g.indexReady.taken 5 + bit g.permit.taken 6

/-- R194: the outputs asserted. -/
def outputBits (p : Spout) : Nat :=
  bit (p.context.gate.output == .openFull) 0 + bit (p.context.gate.output == .openFine) 1
    + bit (p.context.gate.output == .close) 2 + bit (p.positioner.drive == .lower) 3
    + bit (p.positioner.drive == .raise) 4 + bit p.field.aerate 5

/-- R194: the current slot as shown. -/
def slotByte : Option SlotId → Nat
  | some n => n.val
  | none => 0xFF

/-- R18, R171, R194: the fields of a panel, from offset 0x02. The channel's are those last handed with a sample (log entry 10). -/
def panelFields (p : Spout) : List Byte :=
  u8Bytes p.positioner.position.value ++ u8Bytes p.positioner.cause.value ++ u8Bytes p.context.stage.value
    ++ u8Bytes (slotByte p.context.slot) ++ u8Bytes p.context.compartment.index ++ u8Bytes (conditionFlags p)
    ++ u32Bytes p.handed.delivered ++ u32Bytes p.handed.rate ++ s16Bytes p.calibration.zero
    ++ u16Bytes p.calibration.span ++ u16Bytes p.calibration.debt ++ s16Bytes p.handed.lastRaw
    ++ u32Bytes p.handed.leakTotal ++ u16Bytes p.receiver.linkErrors ++ u16Bytes (inputBits p.field)
    ++ u16Bytes (outputBits p)

/-- R171: refresh a spout's panel. Before the port leaves STARTING, and in HALTED, panels are not written. -/
def refreshPanel (i : SpoutId) (s : State) : State :=
  if s.port.visible then writeStamped (Config.panelBase i) (panelFields (s.spout i)) s else s

/-- R198: the fields of a profile image, from offset 0x02. -/
def profileFields (valid : Bool) (p : Profile) : List Byte :=
  u16Bytes (if valid then 1 else 0) ++ s16Bytes p.zeroRef ++ u16Bytes p.zeroLimit ++ u16Bytes p.zeroBand
    ++ u16Bytes p.creepBand ++ u16Bytes p.spanRef ++ u16Bytes p.window ++ u16Bytes p.zeroStep
    ++ u16Bytes p.zeroInterval ++ u16Bytes p.zeroTimeout ++ u32Bytes p.surgeLimit ++ u16Bytes p.surgeCount
    ++ u32Bytes p.starveRate ++ u16Bytes p.starveWindow ++ u16Bytes p.aerationTime ++ u32Bytes p.settleBand
    ++ u16Bytes p.settleCount ++ u16Bytes p.gateOpenTime ++ u16Bytes p.gateCloseTime ++ u16Bytes p.travelTime
    ++ u16Bytes p.indexTimeout ++ u16Bytes p.debounce ++ u16Bytes p.leakThreshold ++ u32Bytes p.leakLimit
    ++ u16Bytes p.learnGain ++ u16Bytes p.learnMaxStep ++ u16Bytes p.learnMinRate

/-- R198: the fields of a product image, from offset 0x02. -/
def productFields (p : Product) : List Byte :=
  u16Bytes (if p.set then 1 else 0) ++ u16Bytes p.defaultLag ++ s16Bytes p.offset ++ u32Bytes p.fineBand
    ++ u32Bytes p.underTol ++ u32Bytes p.overTol ++ u16Bytes p.maxTrims ++ u16Bytes p.trimRate

/-- R198: the fields of a preact image, from offset 0x02. -/
def preactFields (e : PreactEntry) : List Byte :=
  u16Bytes e.lag ++ u8Bytes e.origin.value ++ u8Bytes (if e.keep then 1 else 0) ++ u16Bytes e.learnCount
    ++ s32Bytes e.lastOvershoot

/-- R188. -/
def writeProfileImage (i : SpoutId) (s : State) : State :=
  let c := s.calibration i
  writeStamped (Config.profileImageBase i) (profileFields c.profileValid c.profile) s

/-- R189. -/
def writeProductImage (p : ProductId) (s : State) : State :=
  writeStamped (Config.productImageBase p) (productFields s.products[p]) s

/-- R74. -/
def writePreactImage (e : Fin 128) (s : State) : State :=
  writeStamped (Config.preactImageBase e) (preactFields s.preact[e]) s

/-! ## The host's reads -/

/-- R153, R154: the word a host read of a byte address returns; a read of ATTENTION also clears (`readAttention`). -/
def hostRead (s : State) (address : Nat) : Nat :=
  if address = Config.attentionAddress then attentionWord s.port
  else if address = Config.controlAddress then s.port.exchange.value
  else if s.port.visible && address < Config.memoryBytes then s.memory.u16 address
  else 0

/-- R168: a host read of ATTENTION. -/
def readAttention (s : State) : State :=
  let word := attentionWord s.port
  s.updatePort fun p =>
    if p.visible then
      { p with hostData := BitVec.ofNat 16 word, doneCount := 0, spoutChange := false, startUp := false }
    else { p with hostData := BitVec.ofNat 16 word }

end Sys2Proof.Machine
end

