-- ==== Sys2Proof/Machine/Operands.lean ====
section
/-! DEFINITION. What the slots hold: the header of every slot (R195), the bodies of the kinds (R196, R197), the embedded
profile and product records (R198), and the intake's checks on them (R159, R160). -/

namespace Sys2Proof.Machine

/-! ## The slot header (R195) -/

def State.slotStateByte (s : State) (n : SlotId) : Nat := s.memory.u8 (Config.slotBase n)
def State.slotKind (s : State) (n : SlotId) : Nat := s.memory.u8 (Config.slotBase n + 1)
def State.slotSpoutByte (s : State) (n : SlotId) : Nat := s.memory.u8 (Config.slotBase n + 2)
/-- The spout a slot names, once its byte has passed step 2 of R159. -/
def State.slotSpout (s : State) (n : SlotId) : SpoutId := Fin.ofNat 8 (s.slotSpoutByte n)
def State.slotIs (s : State) (n : SlotId) (x : SlotState) : Bool := s.slotStateByte n == x.value
def State.slotKindIs (s : State) (n : SlotId) (k : Kind) : Bool := s.slotKind n == k.value

/-- A field of a slot body, by its offset within the slot. -/
def State.slotU8 (s : State) (n : SlotId) (offset : Nat) : Nat := s.memory.u8 (Config.slotBase n + offset)
def State.slotU16 (s : State) (n : SlotId) (offset : Nat) : Nat := s.memory.u16 (Config.slotBase n + offset)
def State.slotU32 (s : State) (n : SlotId) (offset : Nat) : Nat := s.memory.u32 (Config.slotBase n + offset)

/-- R157: the part writes the state byte and leaves the kind. -/
def writeSlotState (n : SlotId) (x : SlotState) (s : State) : State :=
  s.writeMemory (Config.slotBase n) (u8Bytes x.value)

/-- R195: the three result fields. -/
def writeResult (n : SlotId) (r : Result) (why : Reason) (index : Nat) (s : State) : State :=
  s.writeMemory (Config.slotBase n + 3) (u8Bytes r.value ++ u8Bytes why.value ++ u8Bytes index)

/-- R157, R166: the result fields first, the state last, and the done count rises. -/
def finishSlot (n : SlotId) (r : Result) (why : Reason) (index : Nat) (s : State) : State :=
  raiseDoneCount (writeSlotState n .done (writeResult n r why index s))

/-- R195: the end of an order that is no refusal. -/
def markDone (n : SlotId) (r : Result) (s : State) : State := finishSlot n r .none noField s

/-- R159: a refusal writes the three result fields and nothing else. -/
def refuseSlot (n : SlotId) (why : Reason) (index : Nat) (s : State) : State :=
  finishSlot n .refused why index s

/-! ## The body of a LOAD or TWIN (R196) -/

/-- The offset of an entry within its slot. -/
def entryOffset (e : Nat) : Nat := 0x40 + 16 * e

def State.loadProduct (s : State) (n : SlotId) : ProductId := Fin.ofNat 16 (s.slotU8 n 0x10)
def State.loadCount (s : State) (n : SlotId) : Nat := s.slotU8 n 0x11
def State.loadLimit (s : State) (n : SlotId) : Nat := s.slotU32 n 0x14
def State.entryCode (s : State) (n : SlotId) (e : Nat) : Nat := s.slotU8 n (entryOffset e + 5)

/-- The host fields of entries 0 to n − 1, read once when the order becomes RUNNING (R100). -/
def State.loadEntries (s : State) (n : SlotId) : List OrderEntry :=
  (List.range (s.loadCount n)).map fun e =>
    { target := s.slotU32 n (entryOffset e), skip := s.slotU8 n (entryOffset e + 4) == 1 }

/-- R39 step 2: code, secondary cause, trims used and final of an entry. -/
def writeEntry (n : SlotId) (e : Nat) (code : Code) (secondary : Option Code) (trims final : Nat) (s : State) : State :=
  (s.writeMemory (Config.slotBase n + entryOffset e + 5)
    (u8Bytes code.value ++ u8Bytes ((secondary.map Code.value).getD 0) ++ u8Bytes trims)).writeMemory
    (Config.slotBase n + entryOffset e + 12) (u32Bytes final)

/-- R21, R27 step 1, R103: the effective target of an entry. -/
def writeEffectiveTarget (n : SlotId) (e eff : Nat) (s : State) : State :=
  s.writeMemory (Config.slotBase n + entryOffset e + 8) (u32Bytes eff)

/-- The code of an entry alone. -/
def writeEntryCode (n : SlotId) (e : Nat) (code : Code) (s : State) : State :=
  s.writeMemory (Config.slotBase n + entryOffset e + 5) (u8Bytes code.value)

/-- R108: an entry that is neither started to its end nor passed over. -/
def openCode (code : Nat) : Bool := code == Code.pending.value || code == Code.notReached.value

/-- R108: an entry has a final when its code is one a compartment gives. -/
def finalCode (code : Nat) : Bool := Code.ok.value ≤ code && code ≤ Code.zeroUnstable.value

/-- The codes of entries 0 to count − 1. -/
def State.entryCodes (s : State) (n : SlotId) (count : Nat) : List Nat := (List.range count).map (s.entryCode n)

/-- R108: the index of the highest-numbered entry with a final, or 0xFF. -/
def lastCompleted (codes : List Nat) : Nat :=
  match codes.reverse.findIdx? finalCode with
  | some fromEnd => codes.length - 1 - fromEnd
  | none => noField

/-- R108: the four progress fields, from the codes as they stand and the delivered total. -/
def writeProgress (n : SlotId) (count total : Nat) (s : State) : State :=
  let codes := s.entryCodes n count
  (s.writeMemory (Config.slotBase n + 0x18)
    (u8Bytes (codes.countP openCode) ++ u8Bytes (codes.findIdx openCode) ++ u8Bytes (lastCompleted codes))).writeMemory
    (Config.slotBase n + 0x1C) (u32Bytes (min total Config.maxU32))

/-- R99: the part's fields of an accepted LOAD or TWIN, in their starting form. -/
def writeStartingFields (n : SlotId) (s : State) : State :=
  let count := s.loadCount n
  let s := (List.range count).foldl (fun t e => writeEffectiveTarget n e 0 (writeEntry n e .pending none 0 0 t)) s
  writeProgress n count 0 s

/-- R109 step 1: every entry still PENDING becomes NOT_REACHED, and the progress fields are rewritten. -/
def closeEntries (n : SlotId) (count total : Nat) (s : State) : State :=
  let s := (List.range count).foldl
    (fun t e => if t.entryCode n e == Code.pending.value then writeEntryCode n e .notReached t else t) s
  writeProgress n count total s

/-- R118: an order that ends without running. -/
def endWithoutRunning (n : SlotId) (r : Result) (s : State) : State :=
  let s := if s.slotKindIs n .load || s.slotKindIs n .twin then closeEntries n (s.loadCount n) 0 s else s
  markDone n r s

/-! ## Embedded records (R198) -/

/-- A profile record; its stamp and valid words are not read. -/
def Memory.profileAt (m : Memory) (a : Nat) : Profile where
  zeroRef := m.s16 (a + 0x04)
  zeroLimit := m.u16 (a + 0x06)
  zeroBand := m.u16 (a + 0x08)
  creepBand := m.u16 (a + 0x0A)
  spanRef := m.u16 (a + 0x0C)
  window := m.u16 (a + 0x0E)
  zeroStep := m.u16 (a + 0x10)
  zeroInterval := m.u16 (a + 0x12)
  zeroTimeout := m.u16 (a + 0x14)
  surgeLimit := m.u32 (a + 0x16)
  surgeCount := m.u16 (a + 0x1A)
  starveRate := m.u32 (a + 0x1C)
  starveWindow := m.u16 (a + 0x20)
  aerationTime := m.u16 (a + 0x22)
  settleBand := m.u32 (a + 0x24)
  settleCount := m.u16 (a + 0x28)
  gateOpenTime := m.u16 (a + 0x2A)
  gateCloseTime := m.u16 (a + 0x2C)
  travelTime := m.u16 (a + 0x2E)
  indexTimeout := m.u16 (a + 0x30)
  debounce := m.u16 (a + 0x32)
  leakThreshold := m.u16 (a + 0x34)
  leakLimit := m.u32 (a + 0x36)
  learnGain := m.u16 (a + 0x3A)
  learnMaxStep := m.u16 (a + 0x3C)
  learnMinRate := m.u16 (a + 0x3E)

/-- A product record; its stamp and state words are not read. -/
def Memory.productAt (m : Memory) (a : Nat) : Product where
  set := true
  defaultLag := m.u16 (a + 0x04)
  offset := m.s16 (a + 0x06)
  fineBand := m.u32 (a + 0x08)
  underTol := m.u32 (a + 0x0C)
  overTol := m.u32 (a + 0x10)
  maxTrims := m.u16 (a + 0x14)
  trimRate := m.u16 (a + 0x16)

/-! ## Range checks: each field with its index and whether it lies in its range -/

def inRange (low high n : Nat) : Bool := low ≤ n && n ≤ high

/-- R179, in layout order; `a` is the record's offset in the slot. zero_ref takes every value of its type. -/
def profileChecks (a : Nat) (p : Profile) : List (Nat × Bool) :=
  [(a + 0x06, inRange 0 4095 p.zeroLimit), (a + 0x08, inRange 1 1023 p.zeroBand),
   (a + 0x0A, inRange 0 255 p.creepBand), (a + 0x0C, inRange 1 65535 p.spanRef),
   (a + 0x0E, [16, 32, 64, 128, 256].contains p.window), (a + 0x10, inRange 1 255 p.zeroStep),
   (a + 0x12, inRange 10 3600 p.zeroInterval), (a + 0x14, inRange 2000 60000 p.zeroTimeout),
   (a + 0x16, inRange 1 4194176 p.surgeLimit), (a + 0x1A, inRange 1 1000 p.surgeCount),
   (a + 0x1C, inRange 0 4194176 p.starveRate), (a + 0x20, inRange 500 30000 p.starveWindow),
   (a + 0x22, inRange 100 10000 p.aerationTime), (a + 0x24, inRange 0 4194176 p.settleBand)]
  ++ [(a + 0x28, inRange 50 5000 p.settleCount), (a + 0x2A, inRange 100 5000 p.gateOpenTime),
   (a + 0x2C, inRange 100 5000 p.gateCloseTime), (a + 0x2E, inRange 1000 60000 p.travelTime),
   (a + 0x30, inRange 10 600 p.indexTimeout), (a + 0x32, inRange 0 50 p.debounce),
   (a + 0x34, inRange 0 65535 p.leakThreshold), (a + 0x36, inRange 0 4294967295 p.leakLimit),
   (a + 0x3A, inRange 0 16 p.learnGain), (a + 0x3C, inRange 0 1000 p.learnMaxStep),
   (a + 0x3E, inRange 1 65535 p.learnMinRate)]

/-- R182, in layout order; the offset C takes every value of its type. -/
def productChecks (a : Nat) (p : Product) : List (Nat × Bool) :=
  [(a + 0x04, inRange 0 5000 p.defaultLag), (a + 0x08, inRange 0 10000000 p.fineBand),
   (a + 0x0C, inRange 0 1000000 p.underTol), (a + 0x10, inRange 0 1000000 p.overTol),
   (a + 0x14, inRange 0 3 p.maxTrims), (a + 0x16, inRange 1 65535 p.trimRate)]

/-- R99, R196: product, n, limit, then each entry's target and skip mark. A bad n is met before any entry. -/
def State.loadChecks (s : State) (n : SlotId) : List (Nat × Bool) :=
  [(0x10, inRange 0 15 (s.slotU8 n 0x10)), (0x11, inRange 1 12 (s.loadCount n)),
   (0x14, inRange 1000 150000000 (s.loadLimit n))]
  ++ (List.range (s.loadCount n)).flatMap fun e =>
    [(entryOffset e, inRange 1000 65000000 (s.slotU32 n (entryOffset e))),
     (entryOffset e + 4, inRange 0 1 (s.slotU8 n (entryOffset e + 4)))]

/-- R159 step 3: the first field out of range. -/
def firstBad (checks : List (Nat × Bool)) : Option Nat := (checks.find? fun c => !c.2).map (·.1)

/-! ## Refusals (R159): the reason and the field index -/

abbrev Refused := Option (Reason × Nat)

/-- One step of R159. -/
def require (ok : Bool) (why : Reason) (index : Nat) : Refused := if ok then none else some (why, index)

/-- The steps in order; the first that fails refuses. -/
def firstRefusal (steps : List Refused) : Refused := steps.findSome? id

/-- The index of the kind field and of the spout field (R195). -/
def kindIndex : Nat := 0x01
def spoutIndex : Nat := 0x02

/-- R159 step 3. -/
def fieldsRefusal (checks : List (Nat × Bool)) : Refused := (firstBad checks).map fun index => (.badField, index)

def State.hasProfile (s : State) (i : SpoutId) : Bool := (s.calibration i).profileValid

/-- R159 step 2 for the kinds that accept every spout. -/
def State.spoutRefusal (s : State) (n : SlotId) : Refused := require (s.slotSpoutByte n < 8) .badSpout spoutIndex

/-- R159 step 4. -/
def State.profileRefusal (s : State) (i : SpoutId) : Refused := require (s.hasProfile i) .noProfile spoutIndex

/-- R159 step 5. -/
def State.productRefusal (s : State) (n : SlotId) : Refused :=
  require s.products[s.loadProduct n].set .noProduct 0x10

/-- R159 steps 6 and 9 for the spout whose queue the order joins. -/
def State.faultRefusal (s : State) (i : SpoutId) : Refused := require (!s.isFaulted i) .spoutFaulted spoutIndex
def State.queueRefusal (s : State) (i : SpoutId) : Refused :=
  require ((s.queue i).length < Config.queuePlaces) .queueFull noField

/-- R160, row LOAD. -/
def State.loadRefusal (s : State) (n : SlotId) : Refused :=
  let i := s.slotSpout n
  firstRefusal [s.spoutRefusal n, fieldsRefusal (s.loadChecks n), s.profileRefusal i, s.productRefusal n,
    s.faultRefusal i, s.queueRefusal i]

/-- R50 and R160, row TWIN. -/
def State.twinRefusal (s : State) (n : SlotId) : Refused :=
  let i := s.slotSpout n
  let f := followerOf i
  firstRefusal [require (s.slotSpoutByte n < 8 && s.slotSpoutByte n % 2 == 0) .badSpout spoutIndex,
    fieldsRefusal (s.loadChecks n), s.profileRefusal i, s.profileRefusal f, s.productRefusal n, s.faultRefusal i,
    require (!s.isFaulted f) .partnerFaulted spoutIndex, s.queueRefusal i]

/-- R160, row ZERO. -/
def State.zeroRefusal (s : State) (n : SlotId) : Refused :=
  let i := s.slotSpout n
  firstRefusal [s.spoutRefusal n, s.profileRefusal i, s.faultRefusal i, s.queueRefusal i]

/-- R94 and R160, row RECONCILE. -/
def State.reconcileRefusal (s : State) (n : SlotId) : Refused :=
  let i := s.slotSpout n
  firstRefusal [s.spoutRefusal n, fieldsRefusal [(0x10, 1 ≤ s.slotU32 n 0x10)], s.profileRefusal i,
    s.faultRefusal i, s.queueRefusal i]

/-- R180 and R160, row PROFILE. -/
def State.profileOrderRefusal (s : State) (n : SlotId) : Refused :=
  let i := s.slotSpout n
  firstRefusal [s.spoutRefusal n,
    fieldsRefusal (profileChecks 0x10 (s.memory.profileAt (Config.slotBase n + 0x10))),
    s.faultRefusal i, s.queueRefusal i]

/-- R185 and R160, row SEED. -/
def State.seedRefusal (s : State) (n : SlotId) : Refused :=
  let i := s.slotSpout n
  firstRefusal [s.spoutRefusal n,
    fieldsRefusal [(0x10, inRange 0 15 (s.slotU8 n 0x10)), (0x12, inRange 0 5000 (s.slotU16 n 0x12))],
    s.faultRefusal i, s.queueRefusal i]

/-- R112 and R160, row STOP: a target outside 0..31, or the STOP's own slot. -/
def State.stopRefusal (s : State) (n : SlotId) : Refused :=
  require (s.slotU8 n 0x10 < 32 && s.slotU8 n 0x10 != n.val) .badTargetSlot 0x10

/-- R183: some slot holds a QUEUED or RUNNING LOAD or TWIN that names the product. -/
def State.productInUse (s : State) (number : Nat) : Bool :=
  allSlots.any fun n =>
    (s.slotIs n .queued || s.slotIs n .running) && (s.slotKindIs n .load || s.slotKindIs n .twin)
      && s.slotU8 n 0x10 == number

/-- R183 and R160, row PRODUCT. -/
def State.productOrderRefusal (s : State) (n : SlotId) : Refused :=
  firstRefusal [fieldsRefusal ((0x10, inRange 0 15 (s.slotU8 n 0x10))
      :: productChecks 0x20 (s.memory.productAt (Config.slotBase n + 0x20))),
    require (!s.productInUse (s.slotU8 n 0x10)) .busy 0x10]

/-- R186: a selector names one, or all with 0xFF. -/
def selectorOk (high n : Nat) : Bool := n ≤ high || n == 0xFF

/-- R186 and R160, row KEEP. -/
def State.keepRefusal (s : State) (n : SlotId) : Refused :=
  fieldsRefusal [(0x10, selectorOk 7 (s.slotU8 n 0x10)), (0x11, selectorOk 15 (s.slotU8 n 0x11)),
    (0x12, inRange 0 1 (s.slotU8 n 0x12))]

/-- R187 and R160, row CLEAR. -/
def State.clearRefusal (s : State) (n : SlotId) : Refused := s.spoutRefusal n

end Sys2Proof.Machine
end

