-- ==== Sys2Proof/Machine/Learning.lean ====
section
/-! DEFINITION. The learning unit (chapter 04): the preact table, the cut record and its qualification, the learning
computation, SEED, KEEP, the product default lag and the soft reset of the table. -/

namespace Sys2Proof.Machine

/-- R66: the entry of a spout and a product. -/
def preactIndex (i : SpoutId) (p : ProductId) : Fin 128 := Fin.ofNat 128 (i.val * 16 + p.val)

/-- The product of an entry. -/
def preactProduct (e : Fin 128) : ProductId := Fin.ofNat 16 e.val

/-- The spout of an entry. -/
def preactSpout (e : Fin 128) : SpoutId := Fin.ofNat 8 (e.val / 16)

/-- R67: the lag as the entry holds it now. -/
def State.lag (s : State) (i : SpoutId) (p : ProductId) : Nat := s.preact[preactIndex i p].lag

/-- R72, R74: write an entry and rewrite its image. -/
def writePreact (e : Fin 128) (v : PreactEntry) (s : State) : State :=
  writePreactImage e { s with preact := s.preact.set e v }

/-- R74, R77, R79: rewrite the entry and its image only if the entry changes. -/
def changePreact (e : Fin 128) (v : PreactEntry) (s : State) : State :=
  if s.preact[e] = v then s else writePreact e v s

/-- R68: a cut record. -/
structure CutRecord where
  spout : SpoutId
  product : ProductId
  slot : SlotId
  effectiveTarget : Nat
  final : Nat
  code : Code
  hold : Option HoldValues
  closeRetried : Bool
  stopPending : Bool
  levelAfterCut : Bool
  trimsUsed : Nat
  settled : Bool
  offset : Int
  gain : Nat
  maxStep : Nat
  minRate : Nat
  deriving DecidableEq, Repr

/-- R69: the code lets the record qualify. -/
def learnableCode (code : Code) (levelAfterCut : Bool) : Bool :=
  match code with
  | .ok | .under | .over => true
  | .level => levelAfterCut
  | _ => false

/-- R69, the hold values apart. -/
def CutRecord.qualifies (r : CutRecord) (h : HoldValues) : Bool :=
  r.trimsUsed == 0 && learnableCode r.code r.levelAfterCut && r.minRate ≤ h.rateAtCut
    && !r.closeRetried && !r.stopPending && r.settled

/-- R70: the ideal lag. -/
def idealLag (inFlight offset : Int) (rateAtCut : Nat) : Nat :=
  ((inFlight - offset).toNat * 1000) / rateAtCut

/-- clamp(x, lo, hi) of 00_scope 0.5. -/
def clampInt (x lo hi : Int) : Int := if x < lo then lo else if hi < x then hi else x

/-- R71: the step, truncated toward zero and clamped to ±max_step. -/
def learnStep (ideal lagUsed gain maxStep : Nat) : Int :=
  clampInt ((((ideal : Int) - lagUsed) * gain).tdiv 16) (-(maxStep : Int)) maxStep

/-- R72: the entry after a qualifying record. -/
def PreactEntry.learn (r : CutRecord) (h : HoldValues) (v : PreactEntry) : PreactEntry :=
  let ideal := idealLag ((r.final : Int) - h.deliveredAtCut) r.offset h.rateAtCut
  let step := learnStep ideal h.lagUsed r.gain r.maxStep
  { v with
    lag := (clampInt ((h.lagUsed : Int) + step) 0 Config.maxLag).toNat
    origin := .learned
    learnCount := min (v.learnCount + 1) Config.maxU16
    lastOvershoot := clampInt ((r.final : Int) - r.effectiveTarget) (-Config.maxOvershoot) Config.maxOvershoot }

/-- R68, R69, R72: the learning unit takes a record whole. -/
def learnRecord (r : CutRecord) (s : State) : State :=
  match r.hold with
  | none => s
  | some h =>
    if r.qualifies h then
      let e := preactIndex r.spout r.product
      writePreact e (s.preact[e].learn r h) s
    else s

/-- R75: a SEED applied. -/
def seedEntry (i : SpoutId) (p : ProductId) (lag : Nat) (s : State) : State :=
  let e := preactIndex i p
  writePreact e { s.preact[e] with lag := lag, origin := .seeded } s

/-- R76: the entries a KEEP selects; 0xFF selects every spout or every product. -/
def keepSelects (spoutByte productByte : Nat) (e : Fin 128) : Bool :=
  (spoutByte == 0xFF || spoutByte == (preactSpout e).val)
    && (productByte == 0xFF || productByte == (preactProduct e).val)

/-- Do something for every preact entry, in index order. -/
def forEntries (f : Fin 128 → State → State) (s : State) : State :=
  (List.finRange 128).foldl (fun t e => f e t) s

/-- R76: set or clear the keep mark of every selected entry; each selected image is rewritten. -/
def keepEntries (spoutByte productByte : Nat) (set : Bool) (s : State) : State :=
  forEntries (fun e t =>
    if keepSelects spoutByte productByte e then writePreact e { t.preact[e] with keep := set } t else t) s

/-- R77: a product's new default lag reaches its DEFAULT entries; an entry already at it is not rewritten. -/
def propagateDefaultLag (p : ProductId) (lag : Nat) (s : State) : State :=
  forEntries (fun e t =>
    if preactProduct e = p ∧ t.preact[e].origin = .fromDefault then
      changePreact e { t.preact[e] with lag := lag } t
    else t) s

/-- R79: an entry at a soft reset; `defaultLag` is its product's L0, or 0 if the product is UNSET. -/
def PreactEntry.softReset (defaultLag : Nat) (v : PreactEntry) : PreactEntry :=
  if v.keep then v else { lag := defaultLag }

/-- R79: the table at a soft reset; an UNSET product has every field 0, so its L0 reads 0 (R178). -/
def softResetPreact (s : State) : State :=
  forEntries (fun e t =>
    let p := t.products[preactProduct e]
    changePreact e (t.preact[e].softReset (if p.set then p.defaultLag else 0)) t) s

end Sys2Proof.Machine
end

