-- ==== Sys2Proof/Machine/Totalizer.lean ====
section
/-! DEFINITION. The totalizer channels (chapter 01): a sample's net value and increment, integration, the rate window, the
surge run and the leak monitor. -/

namespace Sys2Proof.Machine

/-- One delivered sample (R1). The mark of a substituted sample is carried; no rule acts on it. -/
structure Sample where
  raw : Int
  overRange : Bool
  substituted : Bool
  deriving DecidableEq, Repr

/-- R3: the increment, in mg, of a net value against a band (the creep band, or R15's leak threshold). -/
def increment (net : Int) (band span : Nat) : Nat :=
  if net ≤ (band : Int) then 0 else (net.toNat * span + 512) / 1024

/-- R6: whole grams join the accumulator, which saturates; the rest is the remainder. -/
def addMilligrams (grams remainder mg : Nat) : Nat × Nat :=
  (min (grams + (remainder + mg) / 1000) Config.maxU32, (remainder + mg) % 1000)

/-- R9: a window restart. -/
def Channel.restartWindow (c : Channel) : Channel :=
  { c with window := [], windowSum := 0, fillCount := 0, rate := 0, surgeRun := 0 }

/-- R5, R17: a compartment-start request. -/
def Channel.startCompartment (c : Channel) : Channel :=
  { c.restartWindow with
    remainder := 0, delivered := 0, leakRemainder := 0, leakTotal := 0, leak := false, integrating := true }

/-- R5: a compartment-end request. -/
def Channel.endCompartment (c : Channel) : Channel := { c with integrating := false }

/-- R19: a reset. What was last handed to the exchange port is not the channel's, and stays (R18). -/
def Channel.reset (_ : Channel) : Channel := {}

/-- R7: append an increment and drop the oldest if the window was full. -/
def Channel.push (size mg : Nat) (c : Channel) : Channel :=
  if c.fillCount < size then
    { c with window := c.window ++ [mg], windowSum := c.windowSum + mg, fillCount := c.fillCount + 1 }
  else
    { c with window := (c.window ++ [mg]).drop 1, windowSum := c.windowSum + mg - (c.window ++ [mg]).headD 0 }

/-- What one sample reads besides the channel itself (R2, R4, R14). -/
structure SampleSettings where
  zero : Int
  span : Nat
  creepBand : Nat
  windowSize : Nat
  /-- Absent while the spout has no valid profile: no surge test and no leak monitor (R4). -/
  profile : Option Profile
  leakActive : Bool

/-- R6: integration. -/
def Channel.integrate (mg : Nat) (c : Channel) : Channel :=
  if c.integrating then
    { c with delivered := (addMilligrams c.delivered c.remainder mg).1,
             remainder := (addMilligrams c.delivered c.remainder mg).2 }
  else c

/-- R8: the rate; an empty window gives 0 g/s. -/
def Channel.updateRate (c : Channel) : Channel := { c with rate := c.windowSum / c.fillCount }

/-- R11: the surge run. -/
def Channel.updateSurge (p : Profile) (overRange : Bool) (c : Channel) : Channel :=
  if p.surgeLimit < c.rate || overRange then { c with surgeRun := min (c.surgeRun + 1) Config.maxSurgeRun }
  else { c with surgeRun := 0 }

/-- R15, R16: the leak monitor, active for this sample. -/
def Channel.updateLeak (p : Profile) (net : Int) (span : Nat) (c : Channel) : Channel :=
  if net ≤ (p.leakThreshold : Int) then c
  else
    let sum := addMilligrams c.leakTotal c.leakRemainder (increment net p.leakThreshold span)
    { c with leakTotal := sum.1, leakRemainder := sum.2, leak := c.leak || p.leakLimit < sum.1 }

/-- R1: the steps of one sample, in order. -/
def Channel.process (x : Sample) (g : SampleSettings) (c : Channel) : Channel :=
  let net := x.raw - g.zero
  let mg := increment net g.creepBand g.span
  let c := ((c.integrate mg).push g.windowSize mg).updateRate
  match g.profile with
  | some p =>
    let c := c.updateSurge p x.overRange
    if g.leakActive then c.updateLeak p net g.span else c
  | none => c

/-- R13, R18: what the exchange port is handed with a sample. -/
def Channel.hand (x : Sample) (c : Channel) : Handed :=
  { delivered := c.delivered, rate := c.rate, leakTotal := c.leakTotal, leak := c.leak, lastRaw := x.raw }

/-- R14: the stages in which the leak monitor may be active. -/
def Stage.leakStage : Stage → Bool
  | .idle | .waitIndex | .engaging | .zeroing | .releasing | .zeroRun => true
  | _ => false

/-- R2, R4, R14: the settings a sample of a spout meets. -/
def State.sampleSettings (s : State) (i : SpoutId) : SampleSettings :=
  let c := s.calibration i
  { zero := c.zero, span := c.span
    creepBand := if c.profileValid then c.profile.creepBand else 0
    windowSize := if c.profileValid then c.profile.window else Config.defaultWindow
    profile := if c.profileValid then some c.profile else none
    leakActive := c.profileValid && (s.stage i).leakStage && s.present i .gateClosed }

/-- R1, R13: one sample through the channel, and its results to the exchange port. -/
def Spout.sample (x : Sample) (g : SampleSettings) (p : Spout) : Spout :=
  let c := p.channel.process x g
  { p with channel := c, handed := c.hand x }

/-- R1, R13, R16: one sample of a spout; LEAK rising sets the spout-change flag. -/
def channelSample (i : SpoutId) (x : Sample) (s : State) : State :=
  let before := (s.channel i).leak
  let g := s.sampleSettings i
  let s := s.updateSpout i (Spout.sample x g)
  if (s.channel i).leak && !before then setSpoutChange s else s

/-- R12: the channel reports a surge condition with this sample. -/
def State.surgeReport (s : State) (i : SpoutId) : Bool :=
  s.hasProfile i && (s.profile i).surgeCount ≤ (s.channel i).surgeRun

def startIntegration (i : SpoutId) (s : State) : State := s.updateChannel i Channel.startCompartment
def endIntegration (i : SpoutId) (s : State) : State := s.updateChannel i Channel.endCompartment
def restartWindow (i : SpoutId) (s : State) : State := s.updateChannel i Channel.restartWindow

end Sys2Proof.Machine
end

