-- ==== Sys2Proof/Machine/Calibration.lean ====
section
/-! DEFINITION. The calibration unit (chapter 05): captures, the zero interval and its debt, span correction and the
application of a profile. -/

namespace Sys2Proof.Machine

/-- A short capture (5.2). -/
def Capture.isShort : Capture → Bool
  | .shortInterval | .shortSettle => true
  | _ => false

/-- A long capture (5.2). -/
def Capture.isLong : Capture → Bool
  | .longBlocking | .longOrder => true
  | _ => false

/-- R82: the length of a capture. -/
def Capture.length : Capture → Nat
  | .shortInterval | .shortSettle => Config.shortCapture
  | .longBlocking | .longOrder => Config.longCapture
  | .none => 0

/-- R81: the zero range, its part within the signed 16-bit range. -/
def Profile.zeroLow (p : Profile) : Int := max (p.zeroRef - p.zeroLimit) (-32768)
def Profile.zeroHigh (p : Profile) : Int := min (p.zeroRef + p.zeroLimit) 32767

/-- R81, R95: the span range. -/
def Profile.spanLow (p : Profile) : Nat := max ((9 * p.spanRef + 9) / 10) 1
def Profile.spanHigh (p : Profile) : Nat := min (11 * p.spanRef / 10) 65535

/-- Start a capture; a long one starts the zero timeout timer (R87, R91, R92). -/
def Calibration.startCapture (kind : Capture) (c : Calibration) : Calibration :=
  { c with
    capture := kind, captureCount := 0, captureSum := 0
    zeroTimeout := if kind.isLong then some c.profile.zeroTimeout else c.zeroTimeout }

/-- R86, R87: a capture ends without a result. -/
def Calibration.dropCapture (c : Calibration) : Calibration :=
  { c with capture := .none, captureCount := 0, captureSum := 0, zeroTimeout := none }

/-- R83 to R85: the new zero, clamped to the zero range; ZERO_LIMIT says whether the clamp changed it. -/
def Calibration.setZero (z : Int) (c : Calibration) : Calibration :=
  let held := clampInt z c.profile.zeroLow c.profile.zeroHigh
  { c with zero := held, zeroLimit := held != z }

/-- R83: a short capture completes; a post-settle one lowers the debt by one (R90). -/
def Calibration.completeShort (c : Calibration) : Calibration :=
  let average := (c.captureSum + 32) / 64
  let step := clampInt (average - c.zero) (-(c.profile.zeroStep : Int)) c.profile.zeroStep
  { (c.setZero (c.zero + step)).dropCapture with
    debt := if c.capture = .shortSettle then c.debt - 1 else c.debt }

/-- R84: a long capture completes. -/
def Calibration.completeLong (c : Calibration) : Calibration :=
  { (c.setZero ((c.captureSum + 512) / 1024)).dropCapture with debt := 0 }

/-- R82: a sample is in band; `zero` is the one the sample was netted against. -/
def inBand (raw zero : Int) (band : Nat) (gateClosed : Bool) : Bool := (raw - zero).natAbs ≤ band && gateClosed

/-- What a sample made of the capture in progress. -/
inductive CaptureEvent where
  | goesOn
  | shortEnded
  | longCompleted (kind : Capture)
  deriving DecidableEq, Repr

/-- R82: an in-band sample is added. -/
def Calibration.gather (raw : Int) (c : Calibration) : Calibration :=
  { c with captureCount := c.captureCount + 1, captureSum := c.captureSum + raw }

/-- R82, R86, R87: one sample of a capture. -/
def Calibration.captureSample (raw zero : Int) (gateClosed : Bool) (c : Calibration) : Calibration × CaptureEvent :=
  let kind := c.capture
  if kind = .none then (c, .goesOn)
  else if inBand raw zero c.profile.zeroBand gateClosed then
    let c := c.gather raw
    if c.captureCount < kind.length then (c, .goesOn)
    else if kind.isShort then (c.completeShort, .shortEnded)
    else (c.completeLong, .longCompleted kind)
  else if kind.isShort then (c.dropCapture, .shortEnded)
  else ({ c with captureCount := 0, captureSum := 0 }, .goesOn)

/-- R89: an interval passed without a capture being possible. -/
def Calibration.oweInterval (c : Calibration) : Calibration := { c with debt := min (c.debt + 1) Config.fullDebt }

/-- R96: a profile applied. -/
def Calibration.applyProfile (p : Profile) (c : Calibration) : Calibration :=
  { (if c.capture.isShort then c.dropCapture else c) with
    profile := p, profileValid := true, zero := p.zeroRef, span := p.spanRef, debt := Config.fullDebt
    zeroLimit := false, interval := some (p.zeroInterval * 1000) }

/-- R98: a soft reset. -/
def Calibration.softReset (c : Calibration) : Calibration :=
  { c.dropCapture with interval := if c.profileValid then some (c.profile.zeroInterval * 1000) else c.interval }

/-- R94: the ratio in parts per million, rounding half up. -/
def reconcileRatio (metered net : Nat) : Nat := (net * 1000000 + metered / 2) / metered

/-- clamp(x, lo, hi) of 00_scope 0.5 on naturals. -/
def clampNat (x lo hi : Nat) : Nat := if x < lo then lo else if hi < x then hi else x

/-- R95: the scaled span before the span range is applied. -/
def scaledSpan (span ratio : Nat) : Nat :=
  (span * clampNat ratio Config.stepLow Config.stepHigh + 500000) / 1000000

/-- R94, R95: the span after a RECONCILE, and its result. -/
def Calibration.reconcile (ratio : Nat) (c : Calibration) : Nat × Result :=
  if ratio < Config.ratioLow || Config.ratioHigh < ratio then (c.span, .outOfBand)
  else
    let scaled := scaledSpan c.span ratio
    let held := clampNat scaled c.profile.spanLow c.profile.spanHigh
    (held, if held = scaled then .ok else .spanLimit)

/-! ## On the state -/

def startCapture (i : SpoutId) (kind : Capture) (s : State) : State :=
  s.updateCalibration i (Calibration.startCapture kind)

/-- The capture of a spout, if any, is abandoned; who waits for its end is told by the caller. -/
def dropCapture (i : SpoutId) (s : State) : State := s.updateCalibration i Calibration.dropCapture

/-- R85: ZERO_LIMIT rising sets the spout-change flag. -/
def signalZeroLimit (before : Bool) (i : SpoutId) (s : State) : State :=
  if (s.calibration i).zeroLimit && !before then setSpoutChange s else s

/-- R82: a sample handed to the capture of a spout. -/
def captureSample (i : SpoutId) (raw zero : Int) (s : State) : State × CaptureEvent :=
  let c := s.calibration i
  let gathered := c.captureSample raw zero (s.present i .gateClosed)
  (signalZeroLimit c.zeroLimit i (s.updateCalibration i fun _ => gathered.1), gathered.2)

/-- R89: the zero interval timer of a spout expires. -/
def zeroInterval (i : SpoutId) (s : State) : State :=
  let x := s.context i
  let stageOk := match x.stage with
    | .idle | .waitIndex | .releasing => true
    | .bound => x.phase == .waiting || x.phase == .releasing
    | _ => false
  let measures := stageOk && s.present i .gateClosed && !s.isFaulted i && (s.calibration i).capture == .none
  let s := if measures then startCapture i .shortInterval s else s.updateCalibration i Calibration.oweInterval
  s.updateCalibration i fun c => { c with interval := some (c.profile.zeroInterval * 1000) }

/-- R181 steps 1 and 2: a profile in a spout's calibration, and its channel's window restarted. -/
def Spout.applyProfile (v : Profile) (p : Spout) : Spout :=
  { p with calibration := p.calibration.applyProfile v, channel := p.channel.restartWindow }

/-- R181 steps 1 to 3: a profile applied to a spout. -/
def applyProfile (i : SpoutId) (p : Profile) (s : State) : State :=
  writeProfileImage i (s.updateSpout i (Spout.applyProfile p))

end Sys2Proof.Machine
end

