-- ==== Sys2Proof/Machine/Gate.lean ====
section
/-! DEFINITION. What a metering context does to its own fields: stages and phases (R21, R54), the gate outputs and their timers
(R22 to R25, R33 to R35), causes (R47), and the field line unit's AERATE (R125). -/

namespace Sys2Proof.Machine

/-! ## Stages and phases: each change refreshes the panel (R21, R54, R171) -/

def setStage (i : SpoutId) (x : Stage) (s : State) : State :=
  let t := s.updateContext i fun c => { c with stage := x }
  if s.stage i = x then t else refreshPanel i t

def setPhase (i : SpoutId) (x : Phase) (s : State) : State :=
  let t := s.updateContext i fun c => { c with phase := x }
  if (s.context i).phase = x then t else refreshPanel i t

/-! ## The gate unit -/

/-- The gate is opened: the other outputs, a close hold and a re-close end (R22, R24, R38). -/
def GateUnit.feed (output : GateOutput) (openTime : Nat) (g : GateUnit) : GateUnit :=
  { g with
    output := output, opening := some openTime, close := none, retry := none, hold := none, secondTry := false }

/-- R33 steps 1 to 3; the close timer is absent while the spout has no valid profile (R25). -/
def GateUnit.cut (closeTime : Timer) (g : GateUnit) : GateUnit :=
  { g with
    output := .close, opening := none, starve := none, hold := none, retry := none, close := closeTime
    secondTry := false }

/-- R25: a re-close. -/
def GateUnit.reclose (closeTime : Timer) (g : GateUnit) : GateUnit :=
  { g with output := .close, hold := none, retry := none, close := closeTime, secondTry := false }

/-- R30: the coarse-to-fine switch is not verified and leaves the starve timer as it runs. -/
def GateUnit.toFine (g : GateUnit) : GateUnit := { g with output := .openFine }

/-- R29, R38: an opening is verified; the starve timer starts. -/
def GateUnit.verify (starveWindow : Nat) (g : GateUnit) : GateUnit :=
  { g with opening := none, starve := some starveWindow }

/-- R34: a first close timer expiry. -/
def GateUnit.firstExpiry (g : GateUnit) : GateUnit :=
  { g with output := .none, close := none, retry := some Config.retryPauseMs, secondTry := true }

/-- R34: the retry pause expires. -/
def GateUnit.reassert (closeTime : Timer) (g : GateUnit) : GateUnit :=
  { g with output := .close, retry := none, close := closeTime }

/-- R35: a second expiry in one close; CLOSE stays asserted until a CLEAR is accepted. -/
def GateUnit.fail (g : GateUnit) : GateUnit := { g with close := none, failed := true }

/-- R24, R34: GATE_CLOSED taken present. In the retry pause CLOSE stays dropped; else the close hold starts. -/
def GateUnit.closedTaken (g : GateUnit) : GateUnit :=
  if g.retry.isSome then { g with retry := none }
  else { g with close := none, hold := some Config.closeHoldMs }

/-- The gate takes GATE_CLOSED present as the end of a close: CLOSE is asserted or paused, and no failed close holds it. -/
def GateUnit.takesClosed (g : GateUnit) : Bool := !g.failed && (g.output == .close || g.retry.isSome)

/-- The close timer of a spout (R25, R33). -/
def State.closeTime (s : State) (i : SpoutId) : Timer :=
  if s.hasProfile i then some (s.profile i).gateCloseTime else none

/-- A close of the spout's gate that its compartment waits for begins, or is over. -/
def setCloseAwaited (b : Bool) (i : SpoutId) (s : State) : State :=
  s.updateCompartment i fun c => { c with closeAwaited := b }

/-- The gate of a spout is asked shut, as a cut (R33) or by the opening check (R27); the compartment waits for it. -/
def cutGate (i : SpoutId) (s : State) : State :=
  setCloseAwaited true i (s.updateGate i (GateUnit.cut (s.closeTime i)))

/-- R25: the re-close of a spout's gate. -/
def recloseGate (i : SpoutId) (s : State) : State := s.updateGate i (GateUnit.reclose (s.closeTime i))

/-- R23: the start-up close runs without a close timer. -/
def startUpClose (i : SpoutId) (s : State) : State :=
  if s.present i .gateClosed then s else s.updateGate i (GateUnit.reclose none)

/-- R27 step 5, R38: an open output is asserted and the opening timer started. -/
def openGate (i : SpoutId) (output : GateOutput) (s : State) : State :=
  s.updateGate i (GateUnit.feed output (s.profile i).gateOpenTime)

/-! ## Causes (R47) -/

/-- R47: the failures that a secondary cause can name. -/
def Code.isFailure : Code → Bool
  | .permitLost | .seatLost | .vehicleMoved | .sensorLost | .gateFault | .travelFault => true
  | _ => false

/-- R47: the cause if there is none, else the secondary cause if that is empty and the code is a failure. -/
def Compartment.record (code : Code) (c : Compartment) : Compartment :=
  if c.cause.isNone then { c with cause := some code }
  else if c.secondary.isNone && code.isFailure then { c with secondary := some code }
  else c

/-- R33: a cut's reason becomes the cause only if there is none. -/
def Compartment.setCause (reason : Option Code) (c : Compartment) : Compartment :=
  if c.cause.isNone then { c with cause := reason } else c

/-- R110: the end mark keeps the strongest. -/
def markOrder (i : SpoutId) (m : EndMark) (s : State) : State :=
  s.updateOrder i fun o => { o with mark := o.mark.strongest m }

/-! ## AERATE (R125) -/

def requestAerate (i : SpoutId) (s : State) : State :=
  s.updateField i fun g => { g with aerate := true, aerateTimer := some (s.profile i).aerationTime }

def dropAerate (i : SpoutId) (s : State) : State :=
  s.updateField i fun g => { g with aerate := false, aerateTimer := none }

end Sys2Proof.Machine
end

