-- ==== Sys2Proof/Machine/Positioner.lean ====
section
/-! DEFINITION. The spout positioner (chapter 07, 7.4): engage and release requests, the travels, seat loss, the start-up state.
What it reports goes to the reaction `k`. -/

namespace Sys2Proof.Machine

/-- R127: a change of state refreshes the spout's panel. -/
def updatePosition (i : SpoutId) (f : Positioner → Positioner) (s : State) : State :=
  let t := s.updatePositioner i f
  if (s.positioner i).position = (t.positioner i).position then t else refreshPanel i t

/-- R133: the travel time, read when the timer starts. -/
def State.travelTime (s : State) (i : SpoutId) : Nat :=
  if s.hasProfile i then (s.profile i).travelTime else Config.defaultTravelMs

/-- R124, R133: RAISE asserted, LOWER dropped, the travel timer started afresh. -/
def beginRaise (i : SpoutId) (s : State) : State :=
  updatePosition i (fun p => { p with drive := .raise, travel := some (s.travelTime i), position := .raising }) s

/-- R128: LOWER asserted and the travel timer started. -/
def beginLower (i : SpoutId) (s : State) : State :=
  updatePosition i (fun p => { p with drive := .lower, travel := some (s.travelTime i), position := .lowering }) s

/-- A travel ends at its switch: the output drops and the timer stops (R129, R131). -/
def Positioner.arrive (x : Position) (p : Positioner) : Positioner :=
  { p with drive := .none, travel := none, position := x }

/-- R129: the lowering condition, tested. -/
def testLowered (k : Reaction) (i : SpoutId) (s : State) : State :=
  if (s.positioner i).position = .lowering ∧ s.present i .spoutLowered ∧ ¬ s.present i .spoutRaised then
    k (.engaged i) (updatePosition i (Positioner.arrive .engaged) s)
  else s

/-- R128, RELEASED: the spout is lowered; it engages at once if the condition holds. -/
def lowerSpout (k : Reaction) (i : SpoutId) (s : State) : State := testLowered k i (beginLower i s)

/-- R131: the raise, tested. An engage that waits is acted on in the same action (R128); else RELEASED is reported. -/
def testRaised (k : Reaction) (i : SpoutId) (s : State) : State :=
  let p := s.positioner i
  if p.position = .raising ∧ s.present i .spoutRaised then
    let s := updatePosition i (fun p => { p.arrive .released with engageWaiting := false }) s
    if p.engageWaiting then lowerSpout k i s else k (.released i) s
  else s

/-- The spout is raised; it is RELEASED at once if its upper switch is present (R131). -/
def raiseSpout (k : Reaction) (i : SpoutId) (s : State) : State := testRaised k i (beginRaise i s)

/-- A request that waits for the spout's inputs to be taken (R128, R131; log entry 20). -/
def holdRequest (i : SpoutId) (r : Request) (s : State) : State :=
  s.updatePositioner i fun p => { p with requests := p.requests ++ [r] }

/-- R128: an engage request. -/
def engageRequest (k : Reaction) (i : SpoutId) (s : State) : State :=
  match (s.positioner i).position with
  | .released => lowerSpout k i s
  | .raising => s.updatePositioner i fun p => { p with engageWaiting := true }
  | .lowering => s
  | .engaged => k (.engaged i) s
  | .faulted => k (.faultReport i) s
  | .notStarted => holdRequest i .engage s

/-- R131: a release request. -/
def releaseRequest (k : Reaction) (i : SpoutId) (s : State) : State :=
  match (s.positioner i).position with
  | .engaged | .lowering => raiseSpout k i s
  | .raising => s.updatePositioner i fun p => { p with engageWaiting := false }
  | .released => k (.released i) s
  | .faulted => k (.faultReport i) s
  | .notStarted => holdRequest i .release s

def actOnRequest (k : Reaction) (i : SpoutId) (s : State) : Request → State
  | .engage => engageRequest k i s
  | .release => releaseRequest k i s

/-- R138: the start-up state, once the spout's inputs are taken and unless it is FAULTED. -/
def takeStartUpState (i : SpoutId) (s : State) : State :=
  if s.present i .spoutRaised then updatePosition i (Positioner.arrive .released) s else beginRaise i s

/-- R128, R131, R138: the start-up state, then the requests that waited, oldest first. -/
def startPositioner (k : Reaction) (i : SpoutId) (s : State) : State :=
  if (s.positioner i).position = .notStarted then
    let waiting := (s.positioner i).requests
    let s := takeStartUpState i (s.updatePositioner i fun p => { p with requests := [] })
    waiting.foldl (actOnRequest k i) s
  else s

/-- R134: entry into FAULTED, the positioner's part; what waited on the spout is dropped (log entry 20). -/
def Positioner.enterFault (cause : FaultCause) (p : Positioner) : Positioner :=
  { p.arrive .faulted with cause := cause, engageWaiting := false, requests := [] }

/-- R138, soft reset. -/
def softResetPositioner (k : Reaction) (i : SpoutId) (s : State) : State :=
  let s := s.updatePositioner i fun p => { p with engageWaiting := false, requests := [] }
  match (s.positioner i).position with
  | .engaged | .lowering => raiseSpout k i s
  | _ => s

end Sys2Proof.Machine
end

