-- ==== Sys2Proof/Machine/LoadOrder.lean ====
section
/-! DEFINITION. Load orders (chapter 06): becoming RUNNING, stepping through the entries, the index handshake, the end action,
and the claim and binding of a TWIN (3.2, R65). -/

namespace Sys2Proof.Machine

/-- The running order is a TWIN, and this context its leader. -/
def State.isTwin (s : State) (i : SpoutId) : Bool := (s.order i).twin

/-- R51: a TWIN whose claim is not yet granted. -/
def State.claimPending (s : State) (i : SpoutId) : Bool := s.isTwin i && !s.isBound (followerOf i)

/-! ## The end of an order -/

/-- R109 step 4, R49, R100: everything of a context at rest but its stage, its claim and its gate. -/
def Context.rest (c : Context) : Context :=
  { c with slot := none, phase := .waiting, closeRecord := none, compartment := {}, order := {} }

def restContext (i : SpoutId) (s : State) : State := setStage i .idle (s.updateContext i Context.rest)

/-- R65: the follower leaves BOUND for IDLE, its claim removed. -/
def leaveBound (f : SpoutId) (s : State) : State :=
  restContext f (s.updateContext f fun c => { c with claim := none })

/-- R53, R65: what a TWIN holds of its follower is given up: a claim withdrawn, or the binding ended. -/
def freeFollower (f : SpoutId) (s : State) : State :=
  if s.isBound f then leaveBound f s else s.updateContext f fun c => { c with claim := none }

/-- R110: the result of an order that ends. -/
def orderResult (mark : EndMark) (codes : List Nat) : Result :=
  match mark with
  | .none => if codes.all fun c => c == Code.ok.value || c == Code.skippedMark.value then .ok else .exceptions
  | .ended => .ended
  | .stopped => .stopped
  | .spoutFault => .spoutFault
  | .reset => .reset

/-- R109 steps 1 to 3 on the slot of a running order. -/
def closeOrderSlot (n : SlotId) (o : OrderState) (s : State) : State :=
  let s := closeEntries n o.count o.total s
  markDone n (orderResult o.mark (s.entryCodes n o.count)) s

/-- R109: the end action. The context's queue is served again, then that of a follower set free (log entry 13). -/
def endOrder (k : Reaction) (i : SpoutId) (s : State) : State :=
  let o := s.order i
  let s := match (s.context i).slot with
    | some n => closeOrderSlot n o s
    | none => s
  if o.twin then
    k (.idle (followerOf i)) (k (.idle i) (freeFollower (followerOf i) (restContext i s)))
  else k (.idle i) (restContext i s)

/-- R53, R64: a claim still pending is withdrawn; a BOUND follower leaves BOUND by its own phase. -/
def withdrawClaim (f : SpoutId) (s : State) : State :=
  if s.isBound f then s else s.updateContext f fun c => { c with claim := none }

/-- R117: the end of an order under a soft reset: steps 1, 2 and 4; its slot stays RUNNING. -/
def resetRest (i : SpoutId) (s : State) : State :=
  let o := s.order i
  let s := match (s.context i).slot with
    | some n => writeResult n .reset .none noField (closeEntries n o.count o.total s)
    | none => s
  let s := restContext i s
  if o.twin then withdrawClaim (followerOf i) s else s

/-- The order ends: under a soft reset by R117, else by R109. -/
def concludeOrder (k : Reaction) (i : SpoutId) (s : State) : State :=
  if (s.order i).mark = .reset then resetRest i s else endOrder k i s

/-! ## The index handshake -/

/-- R105: the index condition. -/
def indexCondition (watch : IndexWatch) (ready : Bool) : Bool := (watch == .first && ready) || watch == .risen

/-- R105: an INDEX_READY change taken in RELEASING or WAIT_INDEX. -/
def IndexWatch.change (ready : Bool) (w : IndexWatch) : IndexWatch :=
  if ready then (if w = .awaitRise then .risen else w)
  else (if w = .awaitDrop ∨ w = .risen then .awaitRise else w)

/-- R106, R55: the index timer starts at the spout's index_timeout. -/
def startIndexTimer (i : SpoutId) (s : State) : State :=
  s.updateOrder i fun o => { o with indexTimer := some ((s.profile i).indexTimeout * 1000) }

/-- R86: entering ENGAGING abandons a short capture, which nothing waits for then. -/
def enterEngaging (i : SpoutId) (s : State) : State :=
  setStage i .engaging (dropCapture i (s.updateOrder i fun o => { o with indexTimer := none }))

/-- R55: the follower on the leader's engage order, unless the leader's own request has ended the wait. -/
def engageFollower (k : Reaction) (i : SpoutId) (s : State) : State :=
  let f := followerOf i
  if s.stage i = .engaging ∧ (s.context f).phase = .engaging then engageRequest k f s else s

/-- R106, R55: the index condition holds; the engage request is sent, a TWIN's to both spouts. -/
def beginEngaging (k : Reaction) (i : SpoutId) (s : State) : State :=
  if s.isTwin i then
    let f := followerOf i
    engageFollower k i (engageRequest k i (enterEngaging i (setPhase f .engaging (dropCapture f s))))
  else engageRequest k i (enterEngaging i s)

/-- R105: the index condition is tested; not while a claim is pending (R51). -/
def testIndex (k : Reaction) (i : SpoutId) (s : State) : State :=
  if s.stage i = .waitIndex ∧ ¬ s.claimPending i
      ∧ indexCondition (s.order i).watch (s.present i .indexReady) then beginEngaging k i s
  else s

/-! ## Stepping (R102, R103) -/

/-- R103: the effective target; what the limit does not allow is 0. -/
def effectiveTarget (target limit total : Nat) : Nat := min target (limit - total)

/-- R102: the codes of entries passed over, each with the progress fields rewritten; and the entry handed over, with its
effective target. `e` is the index of the first entry of the list. -/
def stepThrough (n : SlotId) (o : OrderState) : Nat → List OrderEntry → State → State × Option (Nat × Nat)
  | _, [], s => (s, none)
  | e, x :: rest, s =>
    if x.skip then stepThrough n o (e + 1) rest (writeProgress n o.count o.total (writeEntryCode n e .skippedMark s))
    else
      let eff := effectiveTarget x.target o.limit o.total
      if 0 < eff then (s, some (e, eff))
      else
        let later := (List.range (rest.length + 1)).map (e + ·)
        (writeProgress n o.count o.total (later.foldl (fun t j => writeEntryCode n j .skippedLimit t) s), none)

/-- R102: an entry is handed over; the compartment's own fields are fresh (log entry 17). -/
def handOver (i : SpoutId) (e eff : Nat) (s : State) : State :=
  s.updateCompartment i fun _ => { index := e, effectiveTarget := eff }

/-- R51, R53: the claim is placed, or, where the follower is FAULTED, the TWIN ends SPOUT_FAULT. -/
def placeClaim (k : Reaction) (i : SpoutId) (n : SlotId) (s : State) : State :=
  let f := followerOf i
  if s.isFaulted f then endOrder k i (markOrder i .spoutFault s)
  else k (.idle f) (s.updateContext f fun c => { c with claim := some { leader := i, slot := n } })

/-- R106: a LOAD, or a later compartment of a TWIN, waits for its hatch; a BOUND follower shows the leader's index (R54). -/
def enterWaitIndex (k : Reaction) (i : SpoutId) (s : State) : State :=
  let s := startIndexTimer i s
  if s.isTwin i then
    let f := followerOf i
    let s := setPhase f .waiting (s.updateCompartment f fun _ => { index := (s.compartment i).index })
    testIndex k i (setStage i .waitIndex s)
  else testIndex k i (setStage i .waitIndex s)

/-- R102: the context steps from entry `e` on. -/
def stepFrom (k : Reaction) (i : SpoutId) (n : SlotId) (e : Nat) (first : Bool) (s : State) : State :=
  let o := s.order i
  match stepThrough n o e (o.entries.drop e) s with
  | (s, none) => endOrder k i s
  | (s, some (e, eff)) =>
    let s := handOver i e eff s
    if o.twin && first then placeClaim k i n (setStage i .waitIndex s) else enterWaitIndex k i s

/-- R20, R100, R101: what an order copies when it becomes RUNNING. -/
def State.orderCopy (s : State) (n : SlotId) (twin : Bool) : OrderState :=
  let p := s.products[s.loadProduct n]
  { twin := twin, product := s.loadProduct n, limit := s.loadLimit n, count := s.loadCount n
    entries := s.loadEntries n, offset := p.offset, fineBand := p.fineBand, underTol := p.underTol
    overTol := p.overTol, maxTrims := p.maxTrims, trimRate := p.trimRate }

/-- R101: the order, already out of its queue, becomes RUNNING. -/
def becomeRunning (k : Reaction) (i : SpoutId) (n : SlotId) (twin : Bool) (s : State) : State :=
  let s := writeSlotState n .running s
  let s := s.updateContext i fun c => { c with slot := some n, compartment := {}, order := s.orderCopy n twin }
  stepFrom k i n 0 true s

/-! ## The claim granted (R52, R54) -/

/-- R54: the fields of a context entering BOUND; its close hold and outputs are as left. -/
def Context.bind (slot : Option SlotId) (index : Nat) (c : Context) : Context :=
  { c with
    slot := slot, phase := .waiting, closeRecord := none, compartment := { index := index }
    gate := { c.gate with opening := none, close := none, retry := none, starve := none, secondTry := false } }

/-- R52, R55, R106: the follower enters BOUND, and the leader's first index wait begins. -/
def grantClaim (k : Reaction) (f : SpoutId) (c : Claim) (s : State) : State :=
  let s := s.updateContext f (Context.bind (some c.slot) (s.compartment c.leader).index)
  testIndex k c.leader (startIndexTimer c.leader (setStage f .bound s))

end Sys2Proof.Machine
end

