-- ==== Sys2Proof/Machine/Compartment.lean ====
section
/-! DEFINITION. One compartment from the engage to the release (chapter 02), for one spout or for a twin pair (chapter 03): its
start, its cuts, its closes, its settle and trims, its end and its release. -/

namespace Sys2Proof.Machine

/-- The spouts that work for the compartment of a context: its own, and for a TWIN the BOUND follower. -/
def State.members (s : State) (o : SpoutId) : List SpoutId :=
  if s.isTwin o && s.isBound (followerOf o) then [o, followerOf o] else [o]

/-- Do something for each spout of a compartment, the leader first. -/
def forMembers (o : SpoutId) (f : SpoutId → State → State) (s : State) : State :=
  (s.members o).foldl (fun t m => f m t) s

/-- R58: the delivered mass of the compartment; for a TWIN the sum of both channels, also once a soft reset has set the
follower free (R64). -/
def State.mass (s : State) (o : SpoutId) : Nat :=
  if s.isTwin o then (s.channel o).delivered + (s.channel (followerOf o)).delivered else (s.channel o).delivered

/-- A phase change of a member that is a follower; the leader's stage changes by itself. -/
def setMemberPhase (o m : SpoutId) (x : Phase) (s : State) : State := if m = o then s else setPhase m x s

/-! ## Release (R39 step 5, R40, R65) -/

/-- R40, R65: a spout has reached its end of release. -/
def State.releaseDone (s : State) (i : SpoutId) : Bool :=
  s.isFaulted i || ((s.compartment i).releasedAnswered && (s.calibration i).capture == .none)

/-- R40: control goes back to the load order, which steps on, or ends by its mark (R104). -/
def leaveReleasing (k : Reaction) (o : SpoutId) (s : State) : State :=
  match (s.context o).slot, (s.order o).mark with
  | some n, .none => stepFrom k o n ((s.compartment o).index + 1) false s
  | _, _ => concludeOrder k o s

/-- R40, R65: RELEASING is left when every spout of the compartment has reached its end of release. -/
def releaseCheck (k : Reaction) (o : SpoutId) (s : State) : State :=
  if s.stage o = .releasing ∧ (s.members o).all s.releaseDone then leaveReleasing k o s else s

/-- R90: a short capture for a settled compartment, while the debt is above 0. -/
def startSettleCapture (settled : Bool) (m : SpoutId) (s : State) : State :=
  if settled && !s.isFaulted m && 0 < (s.calibration m).debt then startCapture m .shortSettle s else s

/-- R63, R65: the phase of a follower that is released, or that is FAULTED and holds its position. -/
def State.releasePhase (s : State) (m : SpoutId) : Phase :=
  if s.isFaulted m then (if (s.gate m).isClosing then .closing else .settled) else .releasing

/-- R40, R65, R105: RELEASING is entered. -/
def enterReleasing (o : SpoutId) (settled : Bool) (s : State) : State :=
  let ready := s.present o .indexReady
  let s := s.updateOrder o fun x => { x with watch := if ready then .awaitDrop else .awaitRise }
  let s := forMembers o (fun m t => t.updateCompartment m fun c => { c with releasedAnswered := false }) s
  let s := setStage o .releasing s
  let s := forMembers o (fun m t => setMemberPhase o m (t.releasePhase m) t) s
  forMembers o (startSettleCapture settled) s

/-- A release request to a spout that is not FAULTED, while RELEASING still waits for it. -/
def requestRelease (k : Reaction) (o m : SpoutId) (s : State) : State :=
  if s.stage o = .releasing ∧ ¬ s.isFaulted m ∧ ¬ (s.compartment m).releasedAnswered then releaseRequest k m s else s

/-- R39 step 5, R65: a faulted spout's context goes to IDLE; else the spout is released. -/
def startRelease (k : Reaction) (o : SpoutId) (settled : Bool) (s : State) : State :=
  if s.isFaulted o && !s.isTwin o then concludeOrder k o s
  else releaseCheck k o (forMembers o (requestRelease k o) (enterReleasing o settled s))

/-- R131: RELEASED is answered to a context in RELEASING, or to a follower in phase RELEASING. -/
def onReleased (k : Reaction) (i : SpoutId) (s : State) : State :=
  let o := s.ownerOf i
  if s.stage o = .releasing ∧ (i = o ∨ (s.context i).phase = .releasing) then
    releaseCheck k o (s.updateCompartment i fun c => { c with releasedAnswered := true })
  else s

/-! ## The end of a compartment (R39, R48, R104) -/

/-- R48: the code without a cause. -/
def toleranceCode (o : OrderState) (target final : Nat) : Code :=
  if final + o.underTol < target then .under else if target + o.overTol < final then .over else .ok

/-- R48: the code. -/
def compartmentCode (o : OrderState) (c : Compartment) (final : Nat) : Code :=
  if o.mark = .reset then .reset
  else match c.cause with
    | some code => code
    | none => toleranceCode o c.effectiveTarget final

/-- R104: the end mark a code sets. -/
def Code.mark : Code → EndMark
  | .partialStop => .stopped
  | .noOpen | .permitLost | .seatLost | .vehicleMoved | .surge | .noFlow | .zeroUnstable | .indexTimeout => .ended
  | .sensorLost | .sensorAbsent | .travelFault | .gateFault => .spoutFault
  | .reset => .reset
  | _ => .none

/-- The final: 0 g without a compartment-start request (R27), else the compartment's mass. A sum of two channels past the
largest u32 has no value in the spec: it is a free value (log entry 31). -/
def takeFinal (o : SpoutId) (s : State) : State × Nat :=
  if (s.compartment o).opened then
    if s.mass o ≤ Config.maxU32 then (s, s.mass o)
    else ({ s with freeCount := s.freeCount + 1 }, (Config.freeFinal s.freeCount).toNat)
  else (s, 0)

/-- R39 step 2 and R104 steps 1 and 2: the entry, the delivered total and the progress fields. -/
def recordEntry (o : SpoutId) (code : Code) (final : Nat) (s : State) : State :=
  let c := s.compartment o
  let s := s.updateOrder o fun x => { x with total := x.total + final }
  match (s.context o).slot with
  | some n =>
    writeProgress n (s.order o).count (s.order o).total
      (writeEntry n c.index code c.secondary c.trimsUsed final s)
  | none => s

/-- R68: the cut record of an opened compartment. -/
def State.cutRecord (s : State) (o : SpoutId) (n : SlotId) (code : Code) (final : Nat) (settled : Bool) : CutRecord :=
  let c := s.compartment o
  let p := s.profile o
  { spout := o, product := (s.order o).product, slot := n, effectiveTarget := c.effectiveTarget
    final := final, code := code, hold := c.hold
    closeRetried := c.closeRetried || (s.isTwin o && (s.compartment (followerOf o)).closeRetried)
    stopPending := c.stopPending, levelAfterCut := c.levelAfterCut, trimsUsed := c.trimsUsed, settled := settled
    offset := (s.order o).offset, gain := p.learnGain, maxStep := p.learnMaxStep, minRate := p.learnMinRate }

/-- R39 step 4: a compartment ended before opening hands no record. -/
def handRecord (o : SpoutId) (code : Code) (final : Nat) (settled : Bool) (s : State) : State :=
  match (s.context o).slot with
  | some n => if (s.compartment o).opened then learnRecord (s.cutRecord o n code final settled) s else s
  | none => s

/-- R39, R49, R65: the compartment ends, in the order of R39. -/
def finishCompartment (k : Reaction) (o : SpoutId) (settled : Bool) (s : State) : State :=
  let s := forMembers o endIntegration s
  let (s, final) := takeFinal o s
  let code := compartmentCode (s.order o) (s.compartment o) final
  let s := markOrder o code.mark (recordEntry o code final s)
  let s := handRecord o code final settled s
  if (s.order o).mark = .reset then resetRest o s else startRelease k o settled s

/-- A compartment that ends before its opening, with a code and a final of 0 g; any capture is abandoned (R26, R28, R91). -/
def endUnopened (k : Reaction) (o : SpoutId) (code : Code) (s : State) : State :=
  finishCompartment k o false
    ((forMembers o dropCapture s).updateCompartment o (Compartment.setCause (some code)))

/-! ## Cuts (R33, R59, R62) -/

/-- A gate of the compartment is cut if it is open; a follower so cut is in phase CLOSING. -/
def cutMember (o m : SpoutId) (s : State) : State :=
  if (s.gate m).isOpen then setMemberPhase o m .closing (cutGate m s) else s

/-- R33: a cut, with the reason that becomes the cause if there is none; a TWIN's cut closes every gate still open. -/
def cut (o : SpoutId) (reason : Option Code) (s : State) : State :=
  setStage o .closing ((forMembers o (cutMember o) s).updateCompartment o (Compartment.setCause reason))

/-- CLOSING or SETTLING. -/
def Stage.isClosed : Stage → Bool
  | .closing | .settling => true
  | _ => false

/-- R41, R43, R44, R62: an interlock cuts in the open stages, and is recorded in CLOSING and SETTLING. -/
def interlock (o : SpoutId) (code : Code) (s : State) : State :=
  if (s.stage o).isOpen then cut o (some code) s
  else if (s.stage o).isClosed then forMembers o (cutMember o) (s.updateCompartment o (Compartment.record code))
  else s

/-- R42, R62: LEVEL_HIGH taken present. -/
def levelInterlock (o : SpoutId) (s : State) : State :=
  if (s.stage o).isOpen then cut o (some .level) s
  else if (s.stage o).isClosed then
    forMembers o (cutMember o)
      (s.updateCompartment o fun c => { c.setCause (some .level) with levelAfterCut := true })
  else s

/-! ## Opening (R27 steps 3 to 5, R29, R56, R57) -/

/-- R29, R38, R57: the opening of a spout is verified; the stage follows when every opening of the compartment is. -/
def verifyOpening (i : SpoutId) (s : State) : State :=
  let o := s.ownerOf i
  let s := s.updateGate i (GateUnit.verify (s.profile i).starveWindow)
  let s := s.updateCompartment i fun c => { c with starveCount := 0 }
  let s := setMemberPhase o i .feeding s
  if s.stage o = .opening ∧ (s.members o).all (fun m => (s.gate m).opening.isNone) then
    setStage o (if (s.gate o).output = .openFull then .coarse else .fine) s
  else s

/-- R27 steps 4 and 5, R56: the compartment opens; OPEN_FULL is verified at once where GATE_OPEN is already present. -/
def openCompartment (o : SpoutId) (s : State) : State :=
  let output := if (s.order o).fineBand < (s.compartment o).effectiveTarget then GateOutput.openFull else .openFine
  let s := s.updateCompartment o fun c => { c with opened := true }
  let s := forMembers o (fun m t => setMemberPhase o m .opening (openGate m output (startIntegration m t))) s
  let s := setStage o .opening s
  forMembers o (fun m t =>
    if (t.gate m).output = .openFull ∧ t.present m .gateOpen then verifyOpening m t else t) s

/-- R27, R56: the GATE_CLOSED check fails; each gate not shut is closed, and the compartment ends NO_OPEN without settle. -/
def closeUnopened (o : SpoutId) (s : State) : State :=
  let s := forMembers o (fun m t =>
    if t.present m .gateClosed then t else setMemberPhase o m .closing (cutGate m t)) s
  setStage o .closing (s.updateCompartment o fun c => { c.setCause (some .noOpen) with noSettle := true })

/-- R27 step 3, R56: the opening conditions, in order. -/
def checkOpening (k : Reaction) (o : SpoutId) (s : State) : State :=
  let m := s.members o
  if ¬ m.all (s.present · .permit) then endUnopened k o .permitLost s
  else if ¬ s.present o .indexReady then endUnopened k o .vehicleMoved s
  else if m.any (s.present · .levelHigh) then endUnopened k o .level s
  else if ¬ m.all (fun i => (s.positioner i).position == .engaged) then endUnopened k o .seatLost s
  else if ¬ m.all (s.present · .gateClosed) then closeUnopened o s
  else openCompartment o s

/-- R27 step 1, R56: the compartment's fields are cleared and the effective target written into the entry. -/
def clearCompartment (o : SpoutId) (s : State) : State :=
  let c := s.compartment o
  let s := match (s.context o).slot with
    | some n => writeEffectiveTarget n c.index c.effectiveTarget s
    | none => s
  forMembers o (fun m t => t.updateContext m fun x =>
    { x with
      closeRecord := none
      compartment := { index := c.index, effectiveTarget := if m = o then c.effectiveTarget else 0 } }) s

/-- R27, R56, R91: compartment start; each spout whose debt is 8 zeroes first. -/
def startCompartment (k : Reaction) (o : SpoutId) (s : State) : State :=
  let s := clearCompartment o s
  let owing := (s.members o).filter fun m => (s.calibration m).debt == Config.fullDebt
  if owing = [] then checkOpening k o s
  else owing.foldl (fun t m => setMemberPhase o m .zeroing (startCapture m .longBlocking t)) (setStage o .zeroing s)

/-- R26, R55: ENGAGED is reported; compartment start follows when every spout of the compartment has reported. -/
def onEngaged (k : Reaction) (i : SpoutId) (s : State) : State :=
  let o := s.ownerOf i
  if s.stage o = .engaging ∧ (i = o ∨ (s.context i).phase = .engaging) then
    let s := s.updateCompartment i fun c => { c with engagedReported := true }
    if (s.members o).all (fun m => (s.compartment m).engagedReported) then startCompartment k o s else s
  else s

/-- R56, R91: a blocking capture has succeeded; step 3 follows when every capture asked for has. -/
def zeroingDone (k : Reaction) (o : SpoutId) (s : State) : State :=
  if s.stage o = .zeroing ∧ (s.members o).all (fun m => (s.calibration m).capture != .longBlocking) then
    checkOpening k o s
  else s

/-! ## Settle and trim (R36 to R38, R61) -/

/-- R38: a trim opens, on the leader alone; it is verified at once where GATE_CLOSED is already absent. -/
def startTrim (o : SpoutId) (s : State) : State :=
  let s := s.updateCompartment o fun c => { c with trimsUsed := c.trimsUsed + 1 }
  let s := setStage o .trim (restartWindow o (openGate o .openFine s))
  if s.present o .gateClosed then s else verifyOpening o s

/-- R37: a trim is due on the settled mass. -/
def trimDue (o : OrderState) (c : Compartment) (settled : Nat) : Bool :=
  c.cause.isNone && !c.stopPending && !c.levelAfterCut && settled + o.underTol < c.effectiveTarget
    && c.trimsUsed < o.maxTrims

/-- R37: settle ends. -/
def settleEnd (k : Reaction) (o : SpoutId) (s : State) : State :=
  if trimDue (s.order o) (s.compartment o) (s.mass o) then startTrim o s else finishCompartment k o true s

/-- R36, R61: settle ends when the run of every spout of the compartment is complete. -/
def settleCheck (k : Reaction) (o : SpoutId) (s : State) : State :=
  if s.stage o = .settling ∧ ¬ (s.compartment o).noSettle ∧ (s.members o).all (fun m => (s.compartment m).settleDone) then
    settleEnd k o s
  else s

/-- R36: one sample of a settle run. -/
def countSettle (i : SpoutId) (s : State) : State :=
  let p := s.profile i
  let quiet := (s.channel i).rate ≤ p.settleBand
  s.updateCompartment i fun c =>
    if c.settleDone then c
    else
      let run := if quiet then c.settleRun + 1 else 0
      { c with settleRun := run, settleDone := p.settleCount ≤ run }

/-! ## Closes (R34, R59, R63, R64) -/

/-- R27, R46, R56, R63: a compartment that ends without settle ends when it waits for no close any more. Under a soft reset R64
says when it ends. -/
def closesEnded (k : Reaction) (o : SpoutId) (s : State) : State :=
  if (s.stage o).isClosed ∧ (s.compartment o).noSettle ∧ (s.order o).mark ≠ .reset
      ∧ (s.members o).all (fun m => !(s.compartment m).closeAwaited) then
    finishCompartment k o false s
  else s

/-- R64: a TWIN's compartment under a soft reset ends when the leader waits in SETTLING and the follower is free. -/
def resetCheck (k : Reaction) (o : SpoutId) (s : State) : State :=
  if s.isTwin o ∧ (s.order o).mark = .reset ∧ s.stage o = .settling ∧ ¬ s.isBound (followerOf o) then
    finishCompartment k o false s
  else s

/-- R64: under a soft reset a TWIN's leader whose close does not run waits in SETTLING, counting nothing, with its channel
frozen. -/
def leaderWaits (o : SpoutId) (s : State) : State :=
  setStage o .settling ((endIntegration o s).updateCompartment o fun c => { c with noSettle := true })

/-- R64: under a soft reset a close of a TWIN's gate is taken or has failed; its channel is frozen. -/
def resetCloseEnded (k : Reaction) (o i : SpoutId) (s : State) : State :=
  resetCheck k o (if i = o then leaderWaits o s else leaveBound i (endIntegration i s))

/-- A settle run starts afresh. -/
def freshSettle (i : SpoutId) (s : State) : State :=
  s.updateCompartment i fun c => { c with settleRun := 0, settleDone := false }

/-- R34, R46, R49: the close of a context in CLOSING is taken. -/
def ownCloseTaken (k : Reaction) (o : SpoutId) (s : State) : State :=
  if (s.order o).mark = .reset then
    if s.isTwin o then resetCloseEnded k o o s else finishCompartment k o false s
  else if (s.compartment o).noSettle then closesEnded k o s
  else setStage o .settling (freshSettle o s)

/-- R64: a soft reset has reached the pair of a BOUND follower: its leader's order ends RESET, or is at rest already. -/
def State.pairReset (s : State) (o : SpoutId) : Bool := (s.order o).mark == .reset || s.stage o == .idle

/-- R59, R63, R64: the close of a follower in phase CLOSING is taken. -/
def followerCloseTaken (k : Reaction) (f : SpoutId) (s : State) : State :=
  let o := leaderOf f
  if s.pairReset o then resetCloseEnded k o f s
  else if s.isFaulted f ∨ ¬ (s.compartment o).opened then closesEnded k o (setPhase f .settled s)
  else closesEnded k o (setPhase f .settling (freshSettle f s))

/-- R24, R34: GATE_CLOSED taken present ends a close; what else it does depends on the stage or phase. The end of a re-close may
end a compartment that waits for it (R63). -/
def closeTaken (k : Reaction) (i : SpoutId) (s : State) : State :=
  let s := setCloseAwaited false i (s.updateGate i GateUnit.closedTaken)
  if s.stage i = .closing then ownCloseTaken k i s
  else if s.stage i = .bound ∧ (s.context i).phase = .closing then followerCloseTaken k i s
  else closesEnded k (s.ownerOf i) s

/-! ## STOP and ALL_STOP on a running LOAD or TWIN (R64, R113) -/

/-- R113 to R115: a first STOP; a later one changes nothing further. -/
def stopOrder (k : Reaction) (o : SpoutId) (s : State) : State :=
  if (s.order o).stopTaken then s
  else
  let s := (markOrder o .stopped s).updateOrder o fun x => { x with stopTaken := true }
  match s.stage o with
  | .waitIndex => endOrder k o s
  | .engaging | .zeroing => startRelease k o false (forMembers o dropCapture s)
  | .opening | .coarse | .fine | .trim => cut o (some .partialStop) s
  | .closing | .settling => s.updateCompartment o fun c => { c with stopPending := true }
  | _ => s

end Sys2Proof.Machine
end

