-- ==== Sys2Proof/Machine/ZeroOrder.lean ====
section
/-! DEFINITION. The ZERO order (5.6) and the RECONCILE order (5.7) at the head of their queue. -/

namespace Sys2Proof.Machine

/-- R92, R93, R197: the result fields of a ZERO: Z before, Z after, ZERO_LIMIT. -/
def writeZeroFields (n : SlotId) (before after : Int) (limit : Bool) (s : State) : State :=
  s.writeMemory (Config.slotBase n + 0x10) (s16Bytes before ++ s16Bytes after ++ u8Bytes (if limit then 1 else 0))

/-- R92: a ZERO at its queue head, already out of the queue: ZERO_RUN, or refused BUSY. -/
def serveZero (k : Reaction) (i : SpoutId) (n : SlotId) (s : State) : State :=
  if s.present i .gateClosed then
    let s := (writeSlotState n .running s).updateContext i fun c => { c with slot := some n }
    startCapture i .longOrder (setStage i .zeroRun (dropCapture i s))
  else k (.idle i) (refuseSlot n .busy noField s)

/-- R92, R93: a running ZERO ends with a result; `before` is Z before its capture. -/
def endZeroRun (k : Reaction) (i : SpoutId) (r : Result) (before : Int) (s : State) : State :=
  let s := dropCapture i s
  let c := s.calibration i
  let s := match (s.context i).slot with
    | some n => markDone n r (writeZeroFields n before c.zero c.zeroLimit s)
    | none => s
  k (.idle i) (restContext i s)

/-- R92, R93: a running ZERO ends with Z unchanged. -/
def endZeroUnchanged (k : Reaction) (i : SpoutId) (r : Result) (s : State) : State :=
  endZeroRun k i r (s.calibration i).zero s

/-- R94, R95: a RECONCILE at its queue head, already out of the queue. -/
def serveReconcile (k : Reaction) (i : SpoutId) (n : SlotId) (s : State) : State :=
  let ratio := reconcileRatio (s.slotU32 n 0x10) (s.slotU32 n 0x14)
  let done := (s.calibration i).reconcile ratio
  let s := s.updateCalibration i fun c => { c with span := done.1 }
  k (.idle i) (markDone n done.2
    (s.writeMemory (Config.slotBase n + 0x18) (u32Bytes (min ratio Config.maxU32) ++ u16Bytes done.1)))

end Sys2Proof.Machine
end

