-- ==== Sys2Proof/Machine/SpoutFault.lean ====
section
/-! DEFINITION. A spout enters FAULTED (R134, R135), and what that does to the context it works for (R26, R28, R40, R46, R53,
R55, R63, R93, R107). -/

namespace Sys2Proof.Machine

/-- R134, R165: the spout's queue is returned, oldest first; in RESETTING it is kept. -/
def returnQueue (i : SpoutId) (s : State) : State :=
  if s.port.exchange = .resetting then s
  else (s.queue i).foldl (fun t n => endWithoutRunning n .spoutFault t) (s.setQueue i [])

/-- R135: a sensor loss replaces a travel or gate cause. -/
def replacesCause (old new : FaultCause) : Bool := new == .sensorLost && (old == .travelFault || old == .gateFault)

/-- R134, R135: the positioner, the queue, the capture and the spout-change flag. -/
def enterFault (i : SpoutId) (cause : FaultCause) (s : State) : State :=
  if s.isFaulted i then
    if replacesCause (s.positioner i).cause cause then
      setSpoutChange (s.updatePositioner i fun p => { p with cause := cause })
    else s
  else
    setSpoutChange (dropCapture i (returnQueue i (updatePosition i (Positioner.enterFault cause) s)))

/-- R53: a follower that faults while a claim waits on it ends the leader's TWIN. -/
def withdrawClaimOn (k : Reaction) (f : SpoutId) (s : State) : State :=
  match (s.context f).claim with
  | some c => if s.isBound f then s else endOrder k c.leader (markOrder c.leader .spoutFault s)
  | none => s

/-- R35, R46: the channel whose gate has failed to close, or whose sensor is lost, is frozen. -/
def freezeChannel (i : SpoutId) (cause : FaultCause) (s : State) : State :=
  if cause = .travelFault then s else endIntegration i s

/-- R35, R46: a fault of a single spout in an open stage, CLOSING or SETTLING. A gate fault ends the compartment at once; a
sensor loss cuts an open gate, ends SETTLING at once and lets a close run on; a travel fault is recorded. -/
def faultAlone (k : Reaction) (o : SpoutId) (cause : FaultCause) (s : State) : State :=
  let s := freezeChannel o cause s
  match s.stage o with
  | .closing =>
    let s := s.updateCompartment o (Compartment.record cause.code)
    if cause = .gateFault then finishCompartment k o false s
    else if cause = .travelFault then s
    else s.updateCompartment o fun c => { c with noSettle := true }
  | .settling =>
    let s := s.updateCompartment o (Compartment.record cause.code)
    if cause = .travelFault then s else finishCompartment k o false s
  | _ => (cut o (some cause.code) s).updateCompartment o fun c => { c with noSettle := true }

/-- R63: the compartment waits for every gate of it that is closing, a re-close too. -/
def awaitCloses (o : SpoutId) (s : State) : State :=
  forMembers o (fun m t => if (t.gate m).isClosing then setCloseAwaited true m t else t) s

/-- R63: a faulted follower holds phase CLOSING while a close of its gate runs, and SETTLED otherwise. -/
def holdFollower (o i : SpoutId) (s : State) : State :=
  setMemberPhase o i (if (s.gate i).isClosing then .closing else .settled) s

/-- R63: a fault of either spout of a pair during its compartment. -/
def faultInPair (k : Reaction) (o i : SpoutId) (cause : FaultCause) (s : State) : State :=
  let s := interlock o cause.code (freezeChannel i cause s)
  let s := s.updateCompartment o fun c => { c with noSettle := true }
  closesEnded k o (holdFollower o i (awaitCloses o s))

/-- R64: a fault of either spout of a pair under a soft reset; a failed close counts as ended. -/
def faultInReset (k : Reaction) (o i : SpoutId) (cause : FaultCause) (s : State) : State :=
  let s := (freezeChannel i cause s).updateCompartment o (Compartment.record cause.code)
  if cause = .gateFault then resetCloseEnded k o i s else s

/-- A fault in an open stage, CLOSING or SETTLING; whatever the cause, the order ends SPOUT_FAULT (R46, R63). -/
def faultMetering (k : Reaction) (o i : SpoutId) (cause : FaultCause) (s : State) : State :=
  let s := markOrder o .spoutFault s
  if ¬ s.isTwin o then faultAlone k o cause s
  else if (s.order o).mark = .reset then faultInReset k o i cause s
  else faultInPair k o i cause s

/-- The context that a fault of spout `i` concerns acts by its stage. A BOUND follower whose leader is IDLE waits, under a soft
reset, for the end of its close alone (R64). -/
def contextFaulted (k : Reaction) (i : SpoutId) (cause : FaultCause) (s : State) : State :=
  let o := s.ownerOf i
  match s.stage o with
  | .idle => if s.isBound i ∧ cause = .gateFault then leaveBound i s else s
  | .bound => s
  | .waitIndex => endOrder k o (markOrder o .spoutFault s)
  | .engaging | .zeroing => endUnopened k o cause.code (markOrder o .spoutFault s)
  | .releasing =>
    let s := markOrder o .spoutFault s
    if s.isTwin o then releaseCheck k o (holdFollower o i s) else concludeOrder k o s
  | .zeroRun => endZeroUnchanged k o .spoutFault s
  | .opening | .coarse | .fine | .trim | .closing | .settling => faultMetering k o i cause s

/-- R134: a spout faults; every block concerned acts in the same action. -/
def spoutFault (k : Reaction) (i : SpoutId) (cause : FaultCause) (s : State) : State :=
  contextFaulted k i cause (withdrawClaimOn k i (enterFault i cause s))

/-- R128, R131: a request to a FAULTED spout is answered with the fault. -/
def onFaultReport (k : Reaction) (i : SpoutId) (s : State) : State :=
  contextFaulted k i (s.positioner i).cause s

/-- R35: a close has failed. -/
def closeFailed (k : Reaction) (i : SpoutId) (s : State) : State :=
  spoutFault k i .gateFault (setCloseAwaited false i (s.updateGate i GateUnit.fail))

end Sys2Proof.Machine
end

