-- ==== Sys2Proof/Machine/Metering.lean ====
section
/-! DEFINITION. What a delivered sample does (R1, R13): the channel first, then the context's stage conditions (R30 to R32, R36,
R38, R45, R58 to R61), then a capture that was already in progress (R82). -/

namespace Sys2Proof.Machine

/-! ## Predictions -/

/-- R31: P = floor(rate × L / 1000) + C, and 0 g if that is negative. -/
def inFlightMass (rate lag : Nat) (offset : Int) : Nat := (((rate * lag / 1000 : Nat) : Int) + offset).toNat

/-- R31, R67: P for a spout and the running order, with the lag as its entry stands now. -/
def State.prediction (s : State) (o : SpoutId) (rate : Nat) : Nat :=
  inFlightMass rate (s.lag o (s.order o).product) (s.order o).offset

/-- R60: the follower residual; 0 g once the follower has settled, or without a close record (R62). -/
def State.residual (s : State) (o : SpoutId) : Nat :=
  let f := followerOf o
  let x := s.context f
  match s.isTwin o && (x.phase == .closing || x.phase == .settling), x.closeRecord with
  | true, some r =>
    (((r.rate * s.lag f (s.order o).product / 1000 : Nat) : Int) + (s.order o).offset
      - (((s.channel f).delivered : Int) - r.delivered)).toNat
  | _, _ => 0

/-! ## Stage conditions -/

/-- R32: a sample at or above starve_rate restarts the starve timer and clears the expiry count. -/
def restartStarve (i : SpoutId) (s : State) : State :=
  let p := s.profile i
  if (s.gate i).starve.isSome && p.starveRate ≤ (s.channel i).rate then
    (s.updateGate i fun g => { g with starve := some p.starveWindow }).updateCompartment i fun c =>
      { c with starveCount := 0 }
  else s

/-- R30, R59: the coarse-to-fine switch holds. -/
def State.switchHolds (s : State) (o : SpoutId) : Bool :=
  (s.compartment o).effectiveTarget ≤ s.mass o + (s.order o).fineBand

/-- R59: the close order to a follower whose gate is open, with its close record. -/
def closeFollower (o : SpoutId) (s : State) : State :=
  let f := followerOf o
  if s.isTwin o && s.isBound f && (s.gate f).isOpen then
    let c := s.channel f
    setPhase f .closing ((cutGate f s).updateContext f fun x =>
      { x with closeRecord := some { rate := c.rate, delivered := c.delivered } })
  else s

/-- R31, R60: the fine cut; a normal one records the hold values. -/
def fineCut (o : SpoutId) (s : State) : State :=
  let rate := (s.channel o).rate
  let reached := s.mass o + s.residual o
  if (s.compartment o).effectiveTarget ≤ reached + s.prediction o rate then
    let hold : HoldValues := { deliveredAtCut := reached, rateAtCut := rate, lagUsed := s.lag o (s.order o).product }
    cut o none (s.updateCompartment o fun c => { c with hold := some hold })
  else s

/-- R38: the rate of a trim's prediction. -/
def trimRate (o : OrderState) (c : Compartment) : Nat :=
  match c.hold with
  | some h => if h.rateAtCut = 0 then o.trimRate else h.rateAtCut
  | none => o.trimRate

/-- R38, R61: the trim cut. -/
def trimCut (o : SpoutId) (s : State) : State :=
  if (s.compartment o).effectiveTarget ≤ s.mass o + s.prediction o (trimRate (s.order o) (s.compartment o)) then
    cut o none s
  else s

/-- R30, R59: on the sample where the switch holds, the fine cut is evaluated too. -/
def coarseSample (o : SpoutId) (s : State) : State :=
  if s.switchHolds o then fineCut o (setStage o .fine ((closeFollower o s).updateGate o GateUnit.toFine)) else s

/-- R31, R59, R60: a TWIN opened in fine feed closes its follower on the first sample after both verifications. -/
def fineSample (o : SpoutId) (s : State) : State :=
  fineCut o (if s.switchHolds o then closeFollower o s else s)

/-- R30, R31, R38, R58: the evaluation of a sample by the stage. -/
def evaluateFeed (o : SpoutId) (s : State) : State :=
  match s.stage o with
  | .coarse => coarseSample o s
  | .fine => fineSample o s
  | .trim => trimCut o s
  | _ => s

/-- A sample of a spout that is not BOUND. Surge comes first (R45; log entry 9). -/
def ownSample (k : Reaction) (o : SpoutId) (s : State) : State :=
  if (s.stage o).isOpen && s.surgeReport o then cut o (some .surge) s
  else if s.stage o = .settling ∧ ¬ (s.compartment o).noSettle then settleCheck k o (countSettle o s)
  else evaluateFeed o (restartStarve o s)

/-- R59, R61: a follower's own settle; its end is reported to the leader. -/
def followerSettle (k : Reaction) (f : SpoutId) (s : State) : State :=
  if (s.context f).phase = .settling then
    let s := countSettle f s
    if (s.compartment f).settleDone then settleCheck k (leaderOf f) (setPhase f .settled s) else s
  else s

/-- R58 to R62: a sample of a BOUND follower. The leader's evaluation is that of the stage the sample met. The follower's settle
end is reported first, so the combined cut of that same sample has R_f = 0 g (the model's choice, log entry 36). -/
def followerSample (k : Reaction) (f : SpoutId) (s : State) : State :=
  let o := leaderOf f
  let met := s.stage o
  if (s.gate f).isOpen && s.surgeReport f then interlock o .surge s
  else
    let s := followerSettle k f (restartStarve f s)
    if s.stage o = met then evaluateFeed o s else s

/-! ## One sample, whole -/

/-- R84, R91, R92: what waits for a capture goes on; `before` is Z before its completion. -/
def captureEvent (k : Reaction) (i : SpoutId) (before : Int) (e : CaptureEvent) (s : State) : State :=
  match e with
  | .goesOn => s
  | .shortEnded => k (.captureEnded i) s
  | .longCompleted .longBlocking => zeroingDone k (s.ownerOf i) s
  | .longCompleted _ => endZeroRun k i .ok before s

/-- R1, R13: one delivered sample. A capture that the sample itself started does not take it (R90). -/
def deliverSample (k : Reaction) (i : SpoutId) (x : Sample) (s : State) : State :=
  let zero := (s.calibration i).zero
  let capture := (s.calibration i).capture
  let s := channelSample i x s
  let s := if s.isBound i then followerSample k i s else ownSample k i s
  if capture = .none then s
  else
    let gathered := captureSample i x.raw zero s
    captureEvent k i zero gathered.2 gathered.1

end Sys2Proof.Machine
end

