-- ==== Sys2Proof/Machine/Intake.lean ====
section
/-! DEFINITION. The order intake (9.3, 9.4): acceptance into a spout queue, service at a queue head, the immediate orders STOP,
PRODUCT, KEEP and CLEAR, and ALL_STOP. -/

namespace Sys2Proof.Machine

/-! ## Service at the head (R52, R164) -/

/-- R181: a PROFILE at its queue head. -/
def serveProfile (k : Reaction) (i : SpoutId) (n : SlotId) (s : State) : State :=
  k (.idle i) (markDone n .ok (applyProfile i (s.memory.profileAt (Config.slotBase n + 0x10)) s))

/-- R75: a SEED at its queue head. -/
def serveSeed (k : Reaction) (i : SpoutId) (n : SlotId) (s : State) : State :=
  k (.idle i) (markDone n .ok (seedEntry i (Fin.ofNat 16 (s.slotU8 n 0x10)) (s.slotU16 n 0x12) s))

/-- R164: the head, already out of its queue, is served by its kind. Only queued kinds stand in a queue. -/
def serveHead (k : Reaction) (i : SpoutId) (n : SlotId) (s : State) : State :=
  match Kind.ofValue (s.slotKind n) with
  | some .load => becomeRunning k i n false s
  | some .twin => becomeRunning k i n true s
  | some .zero => serveZero k i n s
  | some .reconcile => serveReconcile k i n s
  | some .profile => serveProfile k i n s
  | some .seed => serveSeed k i n s
  | _ => s

/-- R52, R164: a context that is IDLE grants the claim on it, or else serves its queue head, in RUNNING. -/
def onIdle (k : Reaction) (i : SpoutId) (s : State) : State :=
  if s.port.exchange = .running ∧ s.stage i = .idle then
    match (s.context i).claim, s.queue i with
    | some c, _ => grantClaim k i c s
    | none, n :: rest => serveHead k i n (s.setQueue i rest)
    | none, [] => s
  else s

/-! ## Acceptance (R162) -/

/-- R162, R195: an accepted order joins its queue, and is served in the same handling where it can be. -/
def queueOrder (k : Reaction) (n : SlotId) (s : State) : State :=
  let i := s.slotSpout n
  let s := writeResult n .none .none noField s
  let s := if s.slotKindIs n .load || s.slotKindIs n .twin then writeStartingFields n s else s
  let s := writeSlotState n .queued (s.setQueue i (s.queue i ++ [n]))
  k (.idle i) s

/-- R159: refused, or else accepted as given. -/
def takeOrder (n : SlotId) (refused : Refused) (accept : State → State) (s : State) : State :=
  match refused with
  | some (why, index) => refuseSlot n why index s
  | none => accept s

/-! ## STOP and ALL_STOP (R112, R116) -/

/-- R112, R165: an order leaves its queue from wherever it stands. -/
def removeFromQueues (n : SlotId) (s : State) : State :=
  forSpouts (fun i t => t.setQueue i ((t.queue i).filter (· ≠ n))) s

/-- R93, R113: the running order of a context is stopped. -/
def stopRunning (k : Reaction) (i : SpoutId) (s : State) : State :=
  if s.stage i = .zeroRun then endZeroUnchanged k i .stopped s else stopOrder k i s

/-- The context runs the order of the slot itself; a BOUND follower only shows its leader's. -/
def State.runs (s : State) (i : SpoutId) (n : SlotId) : Bool := (s.context i).slot == some n && !s.isBound i

/-- R112: a STOP acts by the state of its target. -/
def applyStop (k : Reaction) (n : SlotId) (s : State) : State :=
  let target : SlotId := Fin.ofNat 32 (s.slotU8 n 0x10)
  if s.slotIs target .queued then
    markDone n .withdrawnQueued (endWithoutRunning target .withdrawn (removeFromQueues target s))
  else if s.slotIs target .running then
    let holder := allSpouts.find? fun i => s.runs i target
    markDone n .stoppedRunning (match holder with
      | some i => stopRunning k i s
      | none => s)
  else markDone n .tooLate s

/-- R116: every queue is emptied, oldest first, each order ending WITHDRAWN. -/
def withdrawQueue (i : SpoutId) (s : State) : State :=
  (s.queue i).foldl (fun t n => endWithoutRunning n .withdrawn t) (s.setQueue i [])

/-- R116: the queues are emptied, then every running order is stopped. -/
def applyAllStop (k : Reaction) (s : State) : State :=
  forSpouts (fun i t => if (t.context i).slot.isSome && !t.isBound i then stopRunning k i t else t)
    (forSpouts withdrawQueue s)

/-! ## PRODUCT and KEEP (R76, R184) -/

/-- R184. The product is SET at once, so a LOAD taken after it is not refused NO_PRODUCT, whatever the product was before: R184 step 1
and R159 step 5, against the last words of R183's row on PRODUCT and LOAD (the model's choice, log entry 40). -/
def applyProduct (n : SlotId) (s : State) : State :=
  let p : ProductId := Fin.ofNat 16 (s.slotU8 n 0x10)
  let v := s.memory.productAt (Config.slotBase n + 0x20)
  let s := { s with products := s.products.set p v }
  markDone n .ok (writeProductImage p (propagateDefaultLag p v.defaultLag s))

/-- R76. -/
def applyKeep (n : SlotId) (s : State) : State :=
  markDone n .ok (keepEntries (s.slotU8 n 0x10) (s.slotU8 n 0x11) (s.slotU8 n 0x12 == 1) s)

/-! ## CLEAR (R136, R137) -/

def FaultCause.isSensor : FaultCause → Bool
  | .sensorLost | .sensorAbsent => true
  | _ => false

/-- R136: every condition of an accepted CLEAR holds. -/
def State.clearable (s : State) (i : SpoutId) : Bool :=
  let r := s.receiver i
  s.stage i == .idle
    && (!(r.link == .lost || r.link == .absent) || Config.recoveredRun ≤ r.goodRun)
    && (!(s.gate i).failed || s.present i .gateClosed)

/-- R137 step 2, R151, R97: the sensor link is PRESENT again, and the debt is full. -/
def restoreLink (i : SpoutId) (s : State) : State :=
  let s := s.updateReceiver i fun r =>
    { r with link := .present, missingRun := 0, silence := some Config.silenceMs, watch := none }
  refreshPanel i (writeLinkState i (s.updateCalibration i fun c => { c with debt := Config.fullDebt }))

/-- R137 step 3: a CLOSE held after a failed close is dropped. -/
def dropFailedClose (i : SpoutId) (s : State) : State :=
  if (s.gate i).failed then s.updateGate i fun g => { g with output := .none, failed := false } else s

/-- R137 step 4: the spout leaves FAULTED, for its start-up state once its inputs are taken. -/
def leaveFault (i : SpoutId) (s : State) : State :=
  let s := s.updatePositioner i fun p => { p with cause := .none, position := .notStarted }
  if s.inputsTaken i then takeStartUpState i s else refreshPanel i s

/-- R137: an accepted CLEAR. -/
def acceptClear (i : SpoutId) (s : State) : State :=
  let cause := (s.positioner i).cause
  let s := if cause.isSensor then restoreLink i s else s
  setSpoutChange (leaveFault i (dropFailedClose i s))

/-- R136, R187. -/
def applyClear (n : SlotId) (s : State) : State :=
  let i := s.slotSpout n
  if ¬ s.isFaulted i then markDone n .notFaulted s
  else if s.clearable i then markDone n .ok (acceptClear i s)
  else markDone n .stillFaulted s

/-! ## A posting taken (R158) -/

def takeLoad (k : Reaction) (n : SlotId) (s : State) : State := takeOrder n (s.loadRefusal n) (queueOrder k n) s
def takeTwin (k : Reaction) (n : SlotId) (s : State) : State := takeOrder n (s.twinRefusal n) (queueOrder k n) s
def takeZero (k : Reaction) (n : SlotId) (s : State) : State := takeOrder n (s.zeroRefusal n) (queueOrder k n) s
def takeReconcile (k : Reaction) (n : SlotId) (s : State) : State :=
  takeOrder n (s.reconcileRefusal n) (queueOrder k n) s
def takeProfile (k : Reaction) (n : SlotId) (s : State) : State :=
  takeOrder n (s.profileOrderRefusal n) (queueOrder k n) s
def takeSeed (k : Reaction) (n : SlotId) (s : State) : State := takeOrder n (s.seedRefusal n) (queueOrder k n) s
def takeStop (k : Reaction) (n : SlotId) (s : State) : State := takeOrder n (s.stopRefusal n) (applyStop k n) s
def takeProduct (n : SlotId) (s : State) : State := takeOrder n (s.productOrderRefusal n) (applyProduct n) s
def takeKeep (n : SlotId) (s : State) : State := takeOrder n (s.keepRefusal n) (applyKeep n) s
def takeClear (n : SlotId) (s : State) : State := takeOrder n (s.clearRefusal n) (applyClear n) s

/-- R158, R159 step 1: the intake takes a posted slot by its kind. -/
def takePosting (k : Reaction) (n : SlotId) (s : State) : State :=
  match Kind.ofValue (s.slotKind n) with
  | some .load => takeLoad k n s
  | some .twin => takeTwin k n s
  | some .zero => takeZero k n s
  | some .reconcile => takeReconcile k n s
  | some .profile => takeProfile k n s
  | some .seed => takeSeed k n s
  | some .stop => takeStop k n s
  | some .product => takeProduct n s
  | some .keep => takeKeep n s
  | some .clear => takeClear n s
  | none => refuseSlot n .unknownKind kindIndex s

/-- R176: the backlog pass, in ascending slot number. -/
def backlogPass (k : Reaction) (s : State) : State :=
  allSlots.foldl (fun t n => if t.slotIs n .posted then takePosting k n t else t) s

end Sys2Proof.Machine
end

