-- ==== Sys2Proof/Machine/React.lean ====
section
/-! DEFINITION. The blocks' reactions to each other's reports inside one action, run to their end. -/

namespace Sys2Proof.Machine

/-- A report is handed to the block that acts on it, whose own reports are handled with one level less. The depth is far more
than one action's reports can nest (log entry 21). -/
def reactTo : Nat → Reaction
  | 0, _, s => s
  | depth + 1, r, s =>
    match r with
    | .idle i => onIdle (reactTo depth) i s
    | .engaged i => onEngaged (reactTo depth) i s
    | .released i => onReleased (reactTo depth) i s
    | .captureEnded i => releaseCheck (reactTo depth) (s.ownerOf i) s
    | .faultReport i => onFaultReport (reactTo depth) i s

/-- The reactions of one command. -/
def react : Reaction := reactTo Config.reactionDepth

end Sys2Proof.Machine
end

