-- ==== Sys2Proof/Machine/FieldInputs.lean ====
section
/-! DEFINITION. The field line unit (7.2): the wired and taken levels, their initial taking, and what each taken change does at
its consumers (R123). -/

namespace Sys2Proof.Machine

/-! ## Gate switches (R24, R25, R29, R34, R38) -/

/-- GATE_CLOSED taken present. -/
def gateClosedPresent (i : SpoutId) (s : State) : State :=
  if (s.gate i).takesClosed then closeTaken react i s else s

/-- R25: a re-close; a FAULTED follower holds phase CLOSING while it runs (R63). -/
def beginReclose (i : SpoutId) (s : State) : State :=
  let s := recloseGate i s
  if s.isBound i && s.isFaulted i then setPhase i .closing s else s

/-- GATE_CLOSED taken absent: an OPEN_FINE is verified, or a shut gate re-closes (R25; log entries 18 and 19). -/
def gateClosedAbsent (i : SpoutId) (s : State) : State :=
  let g := s.gate i
  if g.output = .openFine ∧ g.opening.isSome then verifyOpening i s
  else if !g.isOpen && !g.failed && !g.isClosing && s.inputsTaken i then beginReclose i s
  else s

/-- GATE_OPEN taken present. -/
def gateOpenPresent (i : SpoutId) (s : State) : State :=
  let g := s.gate i
  if g.output = .openFull ∧ g.opening.isSome then verifyOpening i s else s

/-! ## Spout switches (R129 to R132) -/

/-- R28, R43, R62: seat loss reaches the context the spout works for. -/
def seatLoss (i : SpoutId) (s : State) : State :=
  let o := s.ownerOf i
  if s.stage o = .zeroing then endUnopened react o .seatLost s else interlock o .seatLost s

/-- R130: the raise begins with the report. -/
def loseSeat (i : SpoutId) (s : State) : State := testRaised react i (seatLoss i (beginRaise i s))

def spoutLoweredChange (i : SpoutId) (level : Bool) (s : State) : State :=
  match (s.positioner i).position with
  | .lowering => testLowered react i s
  | .engaged => if level then s else loseSeat i s
  | _ => s

/-- R132: in RELEASED, SPOUT_RAISED taken absent starts a re-raise. -/
def spoutRaisedChange (i : SpoutId) (level : Bool) (s : State) : State :=
  match (s.positioner i).position with
  | .raising => testRaised react i s
  | .lowering => testLowered react i s
  | .released => if level then s else beginRaise i s
  | _ => s

/-! ## INDEX_READY (R26, R28, R44, R54, R105) -/

def indexChange (i : SpoutId) (level : Bool) (s : State) : State :=
  match s.stage i with
  | .waitIndex | .releasing =>
    testIndex react i (s.updateOrder i fun o => { o with watch := o.watch.change level })
  | .engaging | .zeroing => if level then s else endUnopened react i .vehicleMoved s
  | .opening | .coarse | .fine | .trim | .closing | .settling => if level then s else interlock i .vehicleMoved s
  | _ => s

/-! ## Taking a change (R120, R121, R123) -/

/-- R123: a taken change is delivered to its consumers. -/
def deliverChange (i : SpoutId) (n : InputName) (level : Bool) (s : State) : State :=
  match n with
  | .gateClosed => if level then gateClosedPresent i s else gateClosedAbsent i s
  | .gateOpen => if level then gateOpenPresent i s else s
  | .spoutRaised => spoutRaisedChange i level s
  | .spoutLowered => spoutLoweredChange i level s
  | .levelHigh => if level then levelInterlock (s.ownerOf i) s else s
  | .indexReady => indexChange i level s
  | .permit => if level then s else interlock (s.ownerOf i) .permitLost s

def updateLine (i : SpoutId) (n : InputName) (f : InputLine → InputLine) (s : State) : State :=
  s.updateField i fun g => g.setLine n (f (g.line n))

/-- R120: the taken level becomes `level`, and the change is delivered. -/
def takeChange (i : SpoutId) (n : InputName) (level : Bool) (s : State) : State :=
  deliverChange i n level (updateLine i n (fun l => { l with taken := level, timer := none }) s)

/-- R121: the changes that skip the debounce. -/
def takenAtOnce (n : InputName) (level : Bool) : Bool :=
  match n with
  | .permit => !level
  | .levelHigh => level
  | _ => false

/-- R120: the debounce time, read when the timer starts. -/
def State.debounceTime (s : State) (i : SpoutId) : Nat :=
  if s.hasProfile i then (s.profile i).debounce else Config.defaultDebounceMs

/-- R120, R121: the wired level of an input already in use has become `level`. -/
def wiredChange (i : SpoutId) (n : InputName) (level : Bool) (s : State) : State :=
  let l := s.line i n
  if level = l.taken then updateLine i n (fun l => { l with timer := none }) s
  else if takenAtOnce n level || s.debounceTime i == 0 then takeChange i n level s
  else if l.timer.isSome then s
  else updateLine i n (fun l => { l with timer := some (s.debounceTime i) }) s

/-- R120, R122: the wired level is always seen; it matters to an input that has had its initial taking. -/
def execInputChange (i : SpoutId) (n : InputName) (level : Bool) (s : State) : Host.Outcome State Fault Refusal :=
  .next <|
    let s := updateLine i n (fun l => { l with wired := level }) s
    if s.port.linesLive && (s.line i n).initiallyTaken then wiredChange i n level s else s

/-- R120: the timer expires with the wired level still differing. -/
def execDebounceExpiry (i : SpoutId) (n : InputName) (s : State) : Host.Outcome State Fault Refusal :=
  .next <|
    let l := s.line i n
    if l.timer.isSome && l.wired != l.taken then takeChange i n l.wired s else s

/-- R23, R122, R138: a spout's inputs are all taken. -/
def inputsComplete (i : SpoutId) (s : State) : State := startPositioner react i (startUpClose i s)

/-- R122: the first taken level; nothing is delivered. The last of the seven starts the spout up. -/
def execInitialTaking (i : SpoutId) (n : InputName) (level : Bool) (s : State) : Host.Outcome State Fault Refusal :=
  .next <|
    if s.port.linesLive && !(s.line i n).initiallyTaken then
      let s := updateLine i n (fun _ => { taken := level, wired := level, timer := none, initiallyTaken := true }) s
      if s.inputsTaken i then inputsComplete i s else s
    else s

end Sys2Proof.Machine
end

