-- ==== Sys2Proof/Machine/Reset.lean ====
section
/-! DEFINITION. Power-on, hard reset and start-up (9.8), and the soft reset (9.9): POWER_ON, HARD_RESET, MEMORY_TEST_COMPLETE,
PRESENCE_WINDOW_EXPIRY, SOFT_RESET and SOFT_RESET_END. -/

namespace Sys2Proof.Machine

/-! ## Power-on and hard reset (R173) -/

/-- R173: every block takes its reset values; the commands still waiting, and the count of free values, are not the part's. -/
def fullReset (s : State) : State := { State.reset with pending := s.pending, freeCount := s.freeCount }

def execPowerOn (s : State) : Host.Outcome State Fault Refusal := .next (fullReset s)

def execHardReset (s : State) : Host.Outcome State Fault Refusal := .next (fullReset s)

/-! ## The memory test (R149, R173) -/

/-- R149: the presence window starts, with every receiver's 20 ms watch (R146). -/
def startWindow (s : State) : State :=
  forSpouts (fun i t => t.updateReceiver i fun r => { r with watch := some Config.silenceMs })
    (s.updatePort fun p => { p with testing := false, presenceWindow := some Config.presenceWindowMs })

/-- R173: the clearing and test of the memory end. Only a test in progress can. -/
def execMemoryTestComplete (passed : Bool) (s : State) : Host.Outcome State Fault Refusal :=
  .next <|
    if s.port.exchange = .starting ∧ s.port.testing then
      let s := { s with memory := [] }
      if passed then startWindow s
      else s.updatePort fun p => { p with exchange := .halted, testing := false, halted := true }
    else s

/-! ## The end of the presence window (R149, R174) -/

/-- R149: a receiver still in SEARCHING becomes ABSENT, and its spout faults. -/
def endSearch (i : SpoutId) (s : State) : State :=
  if (s.receiver i).link = .searching then
    spoutFault react i .sensorAbsent (s.updateReceiver i fun r => { r with link := .absent })
  else s

/-- R174 steps 1 and 2: the header, every panel and every image. -/
def writeRegions (s : State) : State :=
  let s := forSpouts refreshPanel (writeHeader s)
  let s := forSpouts writeProfileImage s
  let s := (List.finRange 16).foldl (fun t p => writeProductImage p t) s
  forEntries writePreactImage s

/-- R171, R174: the port leaves STARTING for RUNNING. -/
def enterRunning (s : State) : State :=
  let s := s.updatePort fun p => { p with exchange := .running, presenceWindow := none }
  let s := forSpouts (fun i t => t.updateSpout i fun p => { p with panelTimer := some Config.panelTimerMs }) (writeRegions s)
  s.updatePort fun p => { p with startUp := true }

def execPresenceWindowExpiry (s : State) : Host.Outcome State Fault Refusal :=
  .next <|
    if s.port.exchange = .starting ∧ s.port.presenceWindow.isSome then enterRunning (forSpouts endSearch s) else s

/-! ## The soft reset begins (R49, R64, R175) -/

/-- R117: the end mark becomes RESET, whatever it was. -/
def markReset (i : SpoutId) (s : State) : State := s.updateOrder i fun o => { o with mark := .reset }

def setResetCause (i : SpoutId) (s : State) : State := s.updateCompartment i (Compartment.setCause (some .reset))

/-- R49, R98: the compartment of a blocking capture that a soft reset abandons ends with code RESET; its final stays 0 g (R117). -/
def resetEntry (i : SpoutId) (s : State) : State :=
  match (s.context i).slot with
  | some n => writeEntryCode n (s.compartment i).index .reset s
  | none => s

/-- R49: a context that is not BOUND, by its stage. The model's choices: an order found in ZEROING is at rest at once, its entry in hand
RESET, as R98 says, with the final of 0 g that R117 leaves it, and so no longer among the entries that R117 turns NOT_REACHED (log
entry 38); a TWIN's leader found in CLOSING whose own close does not run is frozen and waits in SETTLING at once, a case that R64 does
not name (log entry 39). -/
def softResetContext (o : SpoutId) (s : State) : State :=
  match s.stage o with
  | .idle | .bound => s
  | .waitIndex | .engaging | .releasing => resetRest o (markReset o s)
  | .zeroing => resetRest o (resetEntry o (markReset o s))
  | .zeroRun => restContext o s
  | .opening | .coarse | .fine | .trim => cut o (some .reset) (markReset o s)
  | .closing =>
    let s := setResetCause o (markReset o s)
    if s.isTwin o && !(s.compartment o).closeAwaited then leaderWaits o s else s
  | .settling =>
    let s := setResetCause o (markReset o s)
    if s.isTwin o then leaderWaits o s else finishCompartment react o false s

/-- R64: a BOUND follower by its phase; one whose close runs stays until it ends. -/
def softResetFollower (f : SpoutId) (s : State) : State :=
  if s.isBound f ∧ (s.context f).phase ≠ .closing then leaveBound f (endIntegration f s) else s

/-- R49, R64: the two contexts of a pair, and the end of a TWIN's compartment that waits for neither. -/
def softResetPair (o : SpoutId) (s : State) : State :=
  let f := followerOf o
  let wasBound := s.isBound f
  let s := softResetContext o s
  let s := if wasBound then softResetFollower f s else softResetContext f s
  resetCheck react o s

/-- The four leaders, in ascending order. -/
def allLeaders : List SpoutId := [0, 2, 4, 6]

/-- R175 step 4: the soft reset delivered to the blocks. A claim still pending is withdrawn with its TWIN (R53). -/
def softResetBlocks (s : State) : State :=
  let s := allLeaders.foldl (fun t o => softResetPair o t) s
  let s := forSpouts (softResetPositioner react) s
  let s := forSpouts (fun i t => t.updateCalibration i Calibration.softReset) s
  forSpouts dropAerate (softResetPreact s)

/-- R175. -/
def beginSoftReset (s : State) : State :=
  let s := setExchange .resetting s
  softResetBlocks (s.updatePort fun p => { p with doneCount := 0 })

/-- R170: SOFT_RESET written to CONTROL begins a soft reset in RUNNING, is ignored in RESETTING and discarded in STARTING and
HALTED: in none of the three others does anything change. -/
def execSoftReset (s : State) : Host.Outcome State Fault Refusal :=
  .next <| if s.port.exchange = .running then beginSoftReset s else s

/-! ## The soft reset ends (R176) -/

/-- R93, R176, R197: a running ZERO's fields. Both show Z as it stands at the end of the soft reset, which an interval capture may
have moved in RESETTING (R98; the model's choice, log entry 37). -/
def resetZeroFields (n : SlotId) (s : State) : State :=
  let c := s.calibration (s.slotSpout n)
  if s.slotKindIs n .zero then writeZeroFields n c.zero c.zero c.zeroLimit s else s

/-- R176 step 1: a RUNNING or QUEUED slot returns DONE RESET. -/
def returnReset (n : SlotId) (s : State) : State :=
  if s.slotIs n .running then markDone n .reset (resetZeroFields n s)
  else if s.slotIs n .queued then endWithoutRunning n .reset s
  else s

/-- R176: the four steps of the end of a soft reset. -/
def endSoftReset (s : State) : State :=
  let s := allSlots.foldl (fun t n => returnReset n t) s
  let s := forSpouts (fun i t => (t.setQueue i []).updateChannel i Channel.reset) s
  backlogPass react (setExchange .running s)

/-- R176: every context is IDLE, and so none is BOUND. -/
def State.allIdle (s : State) : Bool := allSpouts.all fun i => s.stage i == .idle

def execSoftResetEnd (s : State) : Host.Outcome State Fault Refusal :=
  .next <| if s.port.exchange = .resetting ∧ s.allIdle then endSoftReset s else s

end Sys2Proof.Machine
end

