-- ==== Sys2Proof/Machine/HostPort.lean ====
section
/-! DEFINITION. What the host does at the exchange port: slot writes, returns and discarded writes (R155, R156), the read of
ATTENTION (R168), ALL_STOP (R116, R170) and the postings of every kind (R158). -/

namespace Sys2Proof.Machine

/-! ## Writes (R154 to R156, R170) -/

/-- R154, R156: a write that the port discards: counted in RUNNING and RESETTING. -/
def discardWrite (s : State) : State := if s.port.visible then countProtocolFault s else s

/-- R155: a write of state POSTED and a kind to word 0. In RESETTING the slot stays POSTED (R158). -/
def postSlot (n : SlotId) (kind : Nat) (take : State → State) (s : State) : State :=
  if s.port.visible && s.slotIs n .free then
    let s := s.writeMemory (Config.slotBase n) (u8Bytes SlotState.posted.value ++ u8Bytes kind)
    if s.port.exchange = .running then take s else s
  else discardWrite s

/-- R155: a write of state FREE and a kind to word 0: stored while FREE; the return while DONE, which keeps the kind. -/
def freeSlot (n : SlotId) (kind : Nat) (s : State) : State :=
  if s.port.visible && s.slotIs n .free then
    s.writeMemory (Config.slotBase n) (u8Bytes SlotState.free.value ++ u8Bytes kind)
  else if s.port.visible && s.slotIs n .done then writeSlotState n .free s
  else discardWrite s

/-- R155: a write to a word of a slot other than word 0. -/
def writeBody (n : SlotId) (word : Fin 128) (value : Word) (s : State) : State :=
  if s.port.visible && s.slotIs n .free then
    s.writeMemory (Config.slotBase n + 2 * word.val) (u16Bytes value.toNat)
  else discardWrite s

/-- R155: any write to a slot. -/
def writeSlot (n : SlotId) (word : Fin 128) (value : Word) (s : State) : State :=
  let state := value.toNat % 256
  let kind := value.toNat / 256
  if word = 0 then
    if state = SlotState.free.value then freeSlot n kind s
    else if state = SlotState.posted.value then postSlot n kind (takePosting react n) s
    else discardWrite s
  else writeBody n word value s

/-- R170: ALL_STOP in RUNNING; elsewhere nothing changes. -/
def controlAllStop (s : State) : State := if s.port.exchange = .running then applyAllStop react s else s

/-- R170: a write to CONTROL. -/
def writeControl (value : Word) (s : State) : State :=
  if s.port.exchange = .running then
    if value = Config.softResetCommand then beginSoftReset s
    else if value = Config.allStopCommand then applyAllStop react s
    else s
  else s

/-- R153 to R156: a host write to any byte address of the bus. -/
def hostWrite (address : Nat) (value : Word) (s : State) : State :=
  if 0x1000 ≤ address && address < 0x3000 then
    writeSlot (Fin.ofNat 32 ((address - 0x1000) / 256)) (Fin.ofNat 128 (address % 256 / 2)) value s
  else if address = Config.controlAddress then writeControl value s
  else discardWrite s

def execSlotWrite (n : SlotId) (word : Fin 128) (value : Word) (s : State) : Host.Outcome State Fault Refusal :=
  .next (writeSlot n word value s)

def execReturn (n : SlotId) (kind : Byte) (s : State) : Host.Outcome State Fault Refusal :=
  .next (freeSlot n kind.toNat s)

/-- R156, R177: the thirteen word-address lines are byte address bits 1 to 13. -/
def execDiscardedWrite (line : BitVec 13) (value : Word) (s : State) : Host.Outcome State Fault Refusal :=
  .next (hostWrite (2 * line.toNat) value s)

def execAttentionRead (s : State) : Host.Outcome State Fault Refusal := .next (readAttention s)

def execAllStop (s : State) : Host.Outcome State Fault Refusal := .next (controlAllStop s)

/-! ## Postings (R155, R158): one meaning for each kind -/

def execLoad (n : SlotId) (s : State) : Host.Outcome State Fault Refusal :=
  .next (postSlot n Kind.load.value (takeLoad react n) s)

def execTwin (n : SlotId) (s : State) : Host.Outcome State Fault Refusal :=
  .next (postSlot n Kind.twin.value (takeTwin react n) s)

def execZero (n : SlotId) (s : State) : Host.Outcome State Fault Refusal :=
  .next (postSlot n Kind.zero.value (takeZero react n) s)

def execReconcile (n : SlotId) (s : State) : Host.Outcome State Fault Refusal :=
  .next (postSlot n Kind.reconcile.value (takeReconcile react n) s)

def execProfile (n : SlotId) (s : State) : Host.Outcome State Fault Refusal :=
  .next (postSlot n Kind.profile.value (takeProfile react n) s)

def execSeed (n : SlotId) (s : State) : Host.Outcome State Fault Refusal :=
  .next (postSlot n Kind.seed.value (takeSeed react n) s)

def execStop (n : SlotId) (s : State) : Host.Outcome State Fault Refusal :=
  .next (postSlot n Kind.stop.value (takeStop react n) s)

def execProduct (n : SlotId) (s : State) : Host.Outcome State Fault Refusal :=
  .next (postSlot n Kind.product.value (takeProduct n) s)

def execKeep (n : SlotId) (s : State) : Host.Outcome State Fault Refusal :=
  .next (postSlot n Kind.keep.value (takeKeep n) s)

def execClear (n : SlotId) (s : State) : Host.Outcome State Fault Refusal :=
  .next (postSlot n Kind.clear.value (takeClear n) s)

/-- R159 step 1. The kind is taken as the write carries it; a known kind is handled as that kind. -/
def execUnknownKindPosting (n : SlotId) (kind : Byte) (s : State) : Host.Outcome State Fault Refusal :=
  .next (postSlot n kind.toNat (takePosting react n) s)

end Sys2Proof.Machine
end

