-- ==== Sys2Proof/Machine/SensorLink.lean ====
section
/-! DEFINITION. The sensor receivers (chapter 08): assembling and checking frames, sequence and substitution, the silence timer
and the 20 ms watch, loss. -/

namespace Sys2Proof.Machine

/-! ## Assembly and check (R141, R142) -/

/-- R142: the link-error count, which stays at 65535. -/
def Receiver.countError (r : Receiver) : Receiver := { r with linkErrors := min (r.linkErrors + 1) Config.maxU16 }

/-- R142: one of the eight shifts of a character. -/
def crcShift (c : Byte) : Byte := if c.msb then (c <<< 1) ^^^ 0x07 else c <<< 1

/-- R142: one character fed in, most significant bit first. -/
def crcFeed (crc char : Byte) : Byte := Nat.repeat crcShift 8 (crc ^^^ char)

/-- R142: CRC-8, polynomial x⁸ + x² + x + 1, initial value 0, no reflection, no final inversion. -/
def crc8 (chars : List Byte) : Byte := chars.foldl crcFeed 0

/-- R141: a character discarded in a hunt; the first of a hunt counts one error. -/
def Receiver.discardInHunt (r : Receiver) : Receiver :=
  if r.huntCounted then r else { r.countError with huntCounted := true }

/-- R141, R142: a frame rejected: one error, and a hunt that does not count again. -/
def Receiver.reject (r : Receiver) : Receiver := { r.countError with assembly := [], huntCounted := true }

/-- R192: the characters of a complete frame but its sync. -/
structure Frame where
  sequence : Byte
  overRange : Bool
  fault : Bool
  raw : Int
  deriving DecidableEq, Repr

/-- R142, R192: a complete frame, if it is valid. -/
def readFrame : List Byte → Option Frame
  | [sync, sequence, status, low, high, check] =>
    if sync = Config.syncChar ∧ check = crc8 [sync, sequence, status, low, high] then
      some { sequence := sequence, overRange := status.getLsbD 0, fault := status.getLsbD 1
             raw := signed16 (low.toNat + 256 * high.toNat) }
    else none
  | _ => none

/-! ## Loss (R148) -/

/-- R148 step 1; the receiver's own watch takes over. -/
def Receiver.lose (r : Receiver) : Receiver :=
  { r with link := .lost, silence := none, missingRun := 0, watch := some Config.silenceMs }

/-- R152, R172: a change of link state reaches the header and the panel. -/
def showLink (i : SpoutId) (s : State) : State := refreshPanel i (writeLinkState i s)

/-- R148, R10, R46, R134: the link goes from PRESENT to LOST. -/
def loseLink (i : SpoutId) (s : State) : State :=
  showLink i (spoutFault react i .sensorLost (restartWindow i (s.updateReceiver i Receiver.lose)))

/-! ## A frame taken (R143 to R146, R149, R150) -/

/-- R143: the sequence gap; 255 is a duplicate. -/
def sequenceGap (last : Option Byte) (sequence : Byte) : Nat :=
  match last with
  | some l => (sequence - l - 1).toNat
  | none => 0

/-- R143, R144, R146: what every taken frame does, in every link state. -/
def Receiver.take (x : Frame) (gap : Nat) (r : Receiver) : Receiver :=
  { r with
    lastSequence := some x.sequence
    lastGoodRaw := if x.fault then r.lastGoodRaw else x.raw
    goodRun := if gap = 0 ∧ ¬ x.fault then min (r.goodRun + 1) Config.maxU16 else 0 }

/-- R144 steps 1 and 2: the missing run after a frame with gap `gap`, or none where the link becomes LOST. -/
def missingAfter (run gap : Nat) (fault : Bool) : Option Nat :=
  if Config.gapLimit < gap ∨ Config.missingLimit ≤ run + gap then none
  else if fault then (if Config.missingLimit ≤ run + gap + 1 then none else some (run + gap + 1))
  else some 0

/-- R144 step 3: the samples of a frame, the substituted ones first; `lastGood` is as it stood before the frame. -/
def frameSamples (x : Frame) (gap : Nat) (lastGood : Int) : List Sample :=
  let substitute : Sample := { raw := lastGood, overRange := false, substituted := true }
  List.replicate gap substitute
    ++ [if x.fault then substitute else { raw := x.raw, overRange := x.overRange, substituted := false }]

def deliverSamples (i : SpoutId) (samples : List Sample) (s : State) : State :=
  samples.foldl (fun t x => deliverSample react i x t) s

/-- R144, R147: a frame taken in PRESENT; `before` is the receiver before it. -/
def takeInPresent (i : SpoutId) (x : Frame) (gap : Nat) (before : Receiver) (s : State) : State :=
  match missingAfter before.missingRun gap x.fault with
  | none => loseLink i s
  | some run =>
    deliverSamples i (frameSamples x gap before.lastGoodRaw)
      (s.updateReceiver i fun r => { r with missingRun := run, silence := some Config.silenceMs })

/-- R149: presence; the frame's sample is the first delivered. -/
def becomePresent (i : SpoutId) (x : Frame) (s : State) : State :=
  let s := s.updateReceiver i fun r =>
    { r with link := .present, missingRun := 0, silence := some Config.silenceMs, watch := none }
  deliverSample react i { raw := x.raw, overRange := x.overRange, substituted := false } (showLink i s)

/-- R146: outside PRESENT the watch restarts at each frame taken. -/
def restartWatch (i : SpoutId) (s : State) : State :=
  s.updateReceiver i fun r => { r with watch := some Config.silenceMs }

/-- R143: a valid frame. -/
def takeFrame (i : SpoutId) (x : Frame) (s : State) : State :=
  let before := s.receiver i
  let gap := sequenceGap before.lastSequence x.sequence
  if gap = 255 then s
  else
    let s := s.updateReceiver i (Receiver.take x gap)
    match before.link with
    | .present => takeInPresent i x gap before s
    | .searching => if Config.presentRun ≤ (s.receiver i).goodRun then becomePresent i x s else restartWatch i s
    | .lost | .absent => restartWatch i s

/-- R141, R142: the sixth character completes the frame; a failed check rejects it. -/
def completeFrame (i : SpoutId) (chars : List Byte) (s : State) : State :=
  match readFrame chars with
  | some x => takeFrame i x (s.updateReceiver i fun r => { r with assembly := [] })
  | none => s.updateReceiver i Receiver.reject

/-- R141: a character without a framing error. -/
def receiveChar (i : SpoutId) (c : Byte) (s : State) : State :=
  let r := s.receiver i
  if r.assembly = [] then
    if c = Config.syncChar then s.updateReceiver i fun r => { r with assembly := [c], huntCounted := false }
    else s.updateReceiver i Receiver.discardInHunt
  else if r.assembly.length < 5 then s.updateReceiver i fun r => { r with assembly := r.assembly ++ [c] }
  else completeFrame i (r.assembly ++ [c]) s

/-! ## The commands. Before the memory test has passed, and in HALTED, no receiver takes characters (R149, R173). -/

def execFrame (i : SpoutId) (check : Byte) (s : State) : Host.Outcome State Fault Refusal :=
  .next <| if s.port.linesLive then receiveChar i check s else s

def execCharacterReceived (i : SpoutId) (c : Byte) (s : State) : Host.Outcome State Fault Refusal :=
  .next <| if s.port.linesLive then receiveChar i c s else s

/-- R141: a character with its stop bit low. -/
def execFramingError (i : SpoutId) (s : State) : Host.Outcome State Fault Refusal :=
  .next <|
    if s.port.linesLive then
      s.updateReceiver i fun r => if r.assembly = [] then r.discardInHunt else r.reject
    else s

/-- R141: more than 500 µs between two characters of a frame; in a hunt there is no such gap. -/
def execInterCharacterTimeout (i : SpoutId) (s : State) : Host.Outcome State Fault Refusal :=
  .next <|
    if s.port.linesLive ∧ (s.receiver i).assembly ≠ [] then s.updateReceiver i Receiver.reject else s

/-- R147. -/
def execSilenceTimerExpiry (i : SpoutId) (s : State) : Host.Outcome State Fault Refusal :=
  .next <|
    if (s.receiver i).link = .present ∧ (s.receiver i).silence.isSome then loseLink i s else s

/-- R146. -/
def execGoodFrameWatchExpiry (i : SpoutId) (s : State) : Host.Outcome State Fault Refusal :=
  .next <|
    if (s.receiver i).watch.isSome then
      s.updateReceiver i fun r => { r with goodRun := 0, watch := some Config.silenceMs }
    else s

end Sys2Proof.Machine
end

