-- ==== Sys2Proof/Machine/Timers.lean ====
section
/-! DEFINITION. The expiries of the timers of the metering contexts, the positioners, the field line unit, the calibration unit
and the panels. The expiry of a timer that does not run changes nothing (log entry 2). -/

namespace Sys2Proof.Machine

/-- R29, R57: the compartment is cut NO_OPEN. -/
def execOpeningTimerExpiry (i : SpoutId) (s : State) : Host.Outcome State Fault Refusal :=
  .next <| if (s.gate i).opening.isSome then cut (s.ownerOf i) (some .noOpen) s else s

/-- R34: a first expiry pauses the close. -/
def pauseClose (i : SpoutId) (s : State) : State :=
  (s.updateGate i GateUnit.firstExpiry).updateCompartment i fun c => { c with closeRetried := true }

/-- R34, R35. -/
def execCloseTimerExpiry (i : SpoutId) (s : State) : Host.Outcome State Fault Refusal :=
  .next <|
    if (s.gate i).close.isSome then
      if (s.gate i).secondTry then closeFailed react i s else pauseClose i s
    else s

/-- R34: CLOSE is reasserted with a fresh close timer. -/
def execRetryPauseExpiry (i : SpoutId) (s : State) : Host.Outcome State Fault Refusal :=
  .next <| if (s.gate i).retry.isSome then s.updateGate i (GateUnit.reassert (s.closeTime i)) else s

/-- R24: CLOSE is dropped, unless a failed close holds it (R35). -/
def execCloseHoldExpiry (i : SpoutId) (s : State) : Host.Outcome State Fault Refusal :=
  .next <|
    if (s.gate i).hold.isSome then
      s.updateGate i fun g => { g with hold := none, output := if g.failed then g.output else .none }
    else s

/-- R32: a first expiry asks for AERATE. -/
def firstStarve (i : SpoutId) (s : State) : State :=
  let s := requestAerate i s
  (s.updateGate i fun g => { g with starve := some (s.profile i).starveWindow }).updateCompartment i fun c =>
    { c with starveCount := 1 }

/-- R32, R62: the second expiry cuts the compartment NO_FLOW. -/
def execStarveTimerExpiry (i : SpoutId) (s : State) : Host.Outcome State Fault Refusal :=
  .next <|
    if (s.gate i).starve.isSome then
      if (s.compartment i).starveCount = 0 then firstStarve i s else cut (s.ownerOf i) (some .noFlow) s
    else s

/-- R125. -/
def execAerateTimerExpiry (i : SpoutId) (s : State) : Host.Outcome State Fault Refusal :=
  .next <| if (s.field i).aerateTimer.isSome then dropAerate i s else s

/-- R133: the timer runs in LOWERING and RAISING. -/
def execTravelTimerExpiry (i : SpoutId) (s : State) : Host.Outcome State Fault Refusal :=
  .next <|
    if (s.positioner i).travel.isSome ∧ ((s.positioner i).position = .lowering ∨ (s.positioner i).position = .raising) then
      spoutFault react i .travelFault s
    else s

/-- R106: the entry in hand becomes INDEX_TIMEOUT, and the order ends ENDED. -/
def indexTimeout (i : SpoutId) (s : State) : State :=
  let o := s.order i
  let s := match (s.context i).slot with
    | some n => writeProgress n o.count o.total (writeEntryCode n (s.compartment i).index .indexTimeout s)
    | none => s
  endOrder react i (markOrder i .ended s)

def execIndexTimerExpiry (i : SpoutId) (s : State) : Host.Outcome State Fault Refusal :=
  .next <| if (s.order i).indexTimer.isSome ∧ s.stage i = .waitIndex then indexTimeout i s else s

/-- R89. -/
def execZeroIntervalExpiry (i : SpoutId) (s : State) : Host.Outcome State Fault Refusal :=
  .next <| if (s.calibration i).interval.isSome then zeroInterval i s else s

/-- R56, R87, R91, R92: a long capture fails. -/
def failLongCapture (i : SpoutId) (s : State) : State :=
  if s.stage i = .zeroRun then endZeroUnchanged react i .zeroUnstable s
  else endUnopened react (s.ownerOf i) .zeroUnstable s

def execZeroTimeoutExpiry (i : SpoutId) (s : State) : Host.Outcome State Fault Refusal :=
  .next <| if (s.calibration i).zeroTimeout.isSome then failLongCapture i s else s

/-- R171: the panel is refreshed and the timer restarts. -/
def execPanelTimerExpiry (i : SpoutId) (s : State) : Host.Outcome State Fault Refusal :=
  .next <|
    if (s.spout i).panelTimer.isSome then
      (refreshPanel i s).updateSpout i fun p => { p with panelTimer := some Config.panelTimerMs }
    else s

end Sys2Proof.Machine
end

