-- ==== Sys2Proof/Machine/Dispatch.lean ====
section
/-! DEFINITION. One arm per command, each a call of its meaning. -/

namespace Sys2Proof.Machine

/-- The effect of a command on everything but the queue of commands. -/
def exec (i : Instr) (s : State) : Host.Outcome State Fault Refusal :=
  match i with
  | .powerOn => Sys2Proof.Machine.execPowerOn s
  | .hardReset => Sys2Proof.Machine.execHardReset s
  | .memoryTestComplete passed => Sys2Proof.Machine.execMemoryTestComplete passed s
  | .initialTaking j n level => Sys2Proof.Machine.execInitialTaking j n level s
  | .presenceWindowExpiry => Sys2Proof.Machine.execPresenceWindowExpiry s
  | .slotWrite n word value => Sys2Proof.Machine.execSlotWrite n word value s
  | .returnSlot n kind => Sys2Proof.Machine.execReturn n kind s
  | .discardedWrite line value => Sys2Proof.Machine.execDiscardedWrite line value s
  | .attentionRead => Sys2Proof.Machine.execAttentionRead s
  | .softReset => Sys2Proof.Machine.execSoftReset s
  | .allStop => Sys2Proof.Machine.execAllStop s
  | .softResetEnd => Sys2Proof.Machine.execSoftResetEnd s
  | .load n => Sys2Proof.Machine.execLoad n s
  | .twin n => Sys2Proof.Machine.execTwin n s
  | .zero n => Sys2Proof.Machine.execZero n s
  | .reconcile n => Sys2Proof.Machine.execReconcile n s
  | .profile n => Sys2Proof.Machine.execProfile n s
  | .seed n => Sys2Proof.Machine.execSeed n s
  | .stop n => Sys2Proof.Machine.execStop n s
  | .product n => Sys2Proof.Machine.execProduct n s
  | .keep n => Sys2Proof.Machine.execKeep n s
  | .clear n => Sys2Proof.Machine.execClear n s
  | .frame j check => Sys2Proof.Machine.execFrame j check s
  | .framingError j => Sys2Proof.Machine.execFramingError j s
  | .interCharacterTimeout j => Sys2Proof.Machine.execInterCharacterTimeout j s
  | .silenceTimerExpiry j => Sys2Proof.Machine.execSilenceTimerExpiry j s
  | .goodFrameWatchExpiry j => Sys2Proof.Machine.execGoodFrameWatchExpiry j s
  | .inputChange j n level => Sys2Proof.Machine.execInputChange j n level s
  | .debounceExpiry j n => Sys2Proof.Machine.execDebounceExpiry j n s
  | .openingTimerExpiry j => Sys2Proof.Machine.execOpeningTimerExpiry j s
  | .closeTimerExpiry j => Sys2Proof.Machine.execCloseTimerExpiry j s
  | .retryPauseExpiry j => Sys2Proof.Machine.execRetryPauseExpiry j s
  | .closeHoldExpiry j => Sys2Proof.Machine.execCloseHoldExpiry j s
  | .starveTimerExpiry j => Sys2Proof.Machine.execStarveTimerExpiry j s
  | .aerateTimerExpiry j => Sys2Proof.Machine.execAerateTimerExpiry j s
  | .travelTimerExpiry j => Sys2Proof.Machine.execTravelTimerExpiry j s
  | .indexTimerExpiry j => Sys2Proof.Machine.execIndexTimerExpiry j s
  | .zeroIntervalExpiry j => Sys2Proof.Machine.execZeroIntervalExpiry j s
  | .zeroTimeoutExpiry j => Sys2Proof.Machine.execZeroTimeoutExpiry j s
  | .panelTimerExpiry j => Sys2Proof.Machine.execPanelTimerExpiry j s
  | .characterReceived j char => Sys2Proof.Machine.execCharacterReceived j char s
  | .unknownKindPosting n kind => Sys2Proof.Machine.execUnknownKindPosting n kind s

end Sys2Proof.Machine
end

