-- ==== Sys2Proof/WellFormed.lean ====
section
/-! DEFINITION. Which commands are terms of their row. Spouts, slots, words and inputs are bounded by their types;
two rows restrict an operand further. `exec` is total: an ill-formed command is handled as the host write it spells. -/

namespace Sys2Proof

/-- R156: a write that the port discards by its address: the header, a panel, an image (0x0000..0x0FFF), ATTENTION
(0x3000) or an address that is not decoded (0x3004..0x3FFE). The argument is the byte address. -/
def discardedByAddress (address : Nat) : Bool :=
  address < 0x1000 || address == 0x3000 || 0x3004 ≤ address

/-- R159 step 1 and R195: the kinds the part does not know are 0 and 11..255. -/
def unknownKind (kind : Nat) : Bool :=
  kind == 0 || 10 < kind

/-- The command is a term of its row. -/
def Instr.wellFormed : Instr → Bool
  | .discardedWrite line _ => discardedByAddress (2 * line.toNat)
  | .unknownKindPosting _ kind => unknownKind kind.toNat
  | .powerOn | .hardReset | .memoryTestComplete _ | .initialTaking _ _ _ | .presenceWindowExpiry
  | .slotWrite _ _ _ | .returnSlot _ _ | .attentionRead | .softReset | .allStop | .softResetEnd
  | .load _ | .twin _ | .zero _ | .reconcile _ | .profile _ | .seed _ | .stop _ | .product _ | .keep _ | .clear _
  | .frame _ _ | .framingError _ | .interCharacterTimeout _ | .silenceTimerExpiry _ | .goodFrameWatchExpiry _
  | .inputChange _ _ _ | .debounceExpiry _ _ | .openingTimerExpiry _ | .closeTimerExpiry _ | .retryPauseExpiry _
  | .closeHoldExpiry _ | .starveTimerExpiry _ | .aerateTimerExpiry _ | .travelTimerExpiry _ | .indexTimerExpiry _
  | .zeroIntervalExpiry _ | .zeroTimeoutExpiry _ | .panelTimerExpiry _ | .characterReceived _ _ => true

end Sys2Proof
end

