-- ==== Sys2Proof/Safety.lean ====
section
/-! DEFINITION. What every step keeps, block by block: the laws that the invariants of the certificates are stated with. -/

namespace Sys2Proof.Machine

/-- R154, R156, R166, R173: the port's counts stay in range, the presence window runs in STARTING alone and not before the
memory test has ended, and the halted bit stands in HALTED alone. -/
structure Port.Lawful (p : Port) : Prop where
  doneCount : p.doneCount ≤ 255
  protocolFaults : p.protocolFaults ≤ 65535
  window : p.presenceWindow.isSome = true → p.exchange = .starting
  testing : p.testing = true → p.presenceWindow = none
  halted : p.halted = true ↔ p.exchange = .halted

/-- R140, R141, R147: a receiver's counts stay in range, an assembly begins with the sync and waits for its next character,
and the silence timer runs exactly in PRESENT. -/
structure Receiver.Lawful (r : Receiver) : Prop where
  missingRun : r.missingRun ≤ 4
  goodRun : r.goodRun ≤ 65535
  linkErrors : r.linkErrors ≤ 65535
  assembly : r.assembly.length ≤ 5
  sync : ∀ c, r.assembly.head? = some c → c = 0xA5
  silence : r.silence.isSome = true ↔ r.link = .present

/-- R6, R7, R11, R15: a channel's remainders and counts stay in range, and its window sum and fill count are those of its
window. -/
structure Channel.Lawful (c : Channel) : Prop where
  remainder : c.remainder ≤ 999
  delivered : c.delivered ≤ 4294967295
  windowSum : c.windowSum = c.window.sum
  fillCount : c.fillCount = c.window.length
  surgeRun : c.surgeRun ≤ 1000
  leakRemainder : c.leakRemainder ≤ 999
  leakTotal : c.leakTotal ≤ 4294967295

/-- R80 to R82, R87, R95: the debt stays in range, the zero of a valid profile stays in its zero range, the span in its span
range, a capture holds fewer samples than its length, and a long one runs under its timeout. -/
structure Calibration.Lawful (c : Calibration) : Prop where
  debt : c.debt ≤ 8
  zeroRef : -32768 ≤ c.profile.zeroRef ∧ c.profile.zeroRef ≤ 32767
  spanRef : c.profile.spanRef ≤ 65535
  zero : c.profileValid = true → c.profile.zeroLow ≤ c.zero ∧ c.zero ≤ c.profile.zeroHigh
  span : c.profileValid = true → 1 ≤ c.profile.spanRef → c.profile.spanLow ≤ c.span ∧ c.span ≤ c.profile.spanHigh
  idle : c.capture = .none → c.captureCount = 0
  gathering : c.capture ≠ .none → c.captureCount < c.capture.length
  timeout : c.capture.isLong = true → c.zeroTimeout.isSome = true

/-- R124, R127, R133: LOWER is asserted in LOWERING alone and RAISE in RAISING alone, the travel timer runs in those two alone, a
fault cause stands in FAULTED alone, and an engage waits in RAISING alone. -/
structure Positioner.Lawful (p : Positioner) : Prop where
  lower : p.drive = .lower ↔ p.position = .lowering
  raise : p.drive = .raise ↔ p.position = .raising
  travel : p.travel.isSome = true ↔ (p.position = .lowering ∨ p.position = .raising)
  cause : p.cause = .none ↔ p.position ≠ .faulted
  engageWaiting : p.engageWaiting = true → p.position = .raising

/-- R66, R72: the counts of a preact entry stay in range. -/
structure PreactEntry.Lawful (v : PreactEntry) : Prop where
  learnCount : v.learnCount ≤ 65535
  overshootLow : -2147483647 ≤ v.lastOvershoot
  overshootHigh : v.lastOvershoot ≤ 2147483647

/-- R4, R7: a channel's window holds at most the W that its next sample meets. -/
def State.WindowLawful (s : State) (i : SpoutId) : Prop :=
  (s.channel i).window.length ≤ (s.sampleSettings i).windowSize

/-- Every block of the part is lawful, and its memory is canonical. -/
structure State.Lawful (s : State) : Prop where
  memory : s.memory.wf = true
  port : s.port.Lawful
  receiver : ∀ i, (s.receiver i).Lawful
  channel : ∀ i, (s.channel i).Lawful
  window : ∀ i, s.WindowLawful i
  calibration : ∀ i, (s.calibration i).Lawful
  positioner : ∀ i, (s.positioner i).Lawful
  preact : ∀ e : Fin 128, (s.preact[e]).Lawful

/-! ## Slots, contexts and gates -/

/-- R99, R159, R160: what a queued order's slot went through at its acceptance: one of the six kinds that queue, a TWIN on an even
spout, and a body within its ranges. -/
def State.acceptedBody (s : State) (n : SlotId) (i : SpoutId) : Bool :=
  s.slotSpoutByte n == i.val &&
    match Kind.ofValue (s.slotKind n) with
    | some .load => (s.loadChecks n).all (·.2)
    | some .twin => i.val % 2 == 0 && (s.loadChecks n).all (·.2)
    | some .zero => true
    | some .reconcile => 1 ≤ s.slotU32 n 0x10
    | some .profile => (profileChecks 0x10 (s.memory.profileAt (Config.slotBase n + 0x10))).all (·.2)
    | some .seed => s.slotU8 n 0x10 ≤ 15 && s.slotU16 n 0x12 ≤ 5000
    | _ => false

/-- R100, R157, R163: a QUEUED slot stands in exactly one spout queue, once, and no other slot stands in any; each queue has at most
four places; a context's current slot is RUNNING, and is the slot of one order alone (a BOUND follower shows its leader's); every
RUNNING slot is some context's, but in RESETTING, where its order may have ended already (R117). -/
structure State.SlotsLawful (s : State) : Prop where
  queued : ∀ n, s.slotStateByte n = 2 ↔ ∃ i, n ∈ s.queue i
  once : ∀ i, (s.queue i).Nodup
  apart : ∀ i j n, n ∈ s.queue i → n ∈ s.queue j → i = j
  places : ∀ i, (s.queue i).length ≤ 4
  accepted : ∀ i, ∀ n ∈ s.queue i, s.acceptedBody n i = true
  current : ∀ i n, (s.context i).slot = some n → s.slotStateByte n = 3
  alone : ∀ i j n, s.runs i n = true → s.runs j n = true → i = j
  running : s.port.exchange ≠ .resetting → ∀ n, s.slotStateByte n = 3 → ∃ i, s.runs i n = true

/-- R20, R50 to R54, R100, R154: a context holds a slot exactly while it is not IDLE; its order has at most twelve entries and its
index is one of them; a TWIN runs on an even spout and claims its follower; only an odd spout is claimed or BOUND, by the TWIN of
its even partner, whose slot it holds (under a soft reset a follower's close may outlast its leader, R64); outside RUNNING and
RESETTING nothing runs, and in RESETTING every order that still runs is to end RESET. -/
structure State.ContextsLawful (s : State) : Prop where
  slot : ∀ i, (s.context i).slot = none ↔ s.stage i = .idle
  idle : ∀ i, s.stage i = .idle ∨ s.stage i = .bound ∨ s.stage i = .zeroRun →
    s.order i = {} ∧ (s.compartment i).cause = none
  count : ∀ i, (s.order i).count ≤ 12 ∧ (s.order i).entries.length = (s.order i).count
  index : ∀ i, (s.compartment i).index < 12
  twin : ∀ i, s.isTwin i = true → i.val % 2 = 0
  claims : ∀ i n, s.isTwin i = true → (s.context i).slot = some n →
    (s.context (followerOf i)).claim = some { leader := i, slot := n } ∨ (s.order i).mark = .reset
  granted : ∀ i, s.isTwin i = true → s.isBound (followerOf i) = true ∨ s.stage i = .waitIndex ∨ (s.order i).mark = .reset
  claimed : ∀ i c, (s.context i).claim = some c → i.val % 2 = 1 ∧ c.leader = leaderOf i
    ∧ ((s.isTwin (leaderOf i) = true ∧ (s.context (leaderOf i)).slot = some c.slot)
      ∨ (s.isBound i = true ∧ s.stage (leaderOf i) = .idle ∧ s.port.exchange = .resetting))
  bound : ∀ i, s.isBound i = true → (s.context i).slot.isSome = true
    ∧ (s.context i).slot = (s.context i).claim.map (·.slot)
  halted : s.port.exchange = .starting ∨ s.port.exchange = .halted → ∀ i, s.stage i = .idle ∧ s.queue i = []
  mark : ∀ i, (s.order i).mark = .reset ∨ (s.compartment i).cause = some .reset → s.port.exchange = .resetting
  resetting : s.port.exchange = .resetting → ∀ i, s.stage i = .idle
    ∨ ((s.stage i = .closing ∨ (s.stage i = .settling ∧ (s.compartment i).noSettle = true))
      ∧ (s.order i).mark = .reset ∧ (s.compartment i).cause.isSome = true)
    ∨ (s.stage i = .bound ∧ (s.context i).phase = .closing)

/-- R22: the spout is ENGAGED, its PERMIT is present and its LEVEL_HIGH absent. -/
def State.mayFeed (s : State) (i : SpoutId) : Prop :=
  (s.positioner i).position = .engaged ∧ s.present i .permit = true ∧ s.present i .levelHigh = false

/-- R22: the context is in an open stage, or BOUND in a phase whose gate is open, its leader in an open stage. -/
def State.compartmentOpen (s : State) (i : SpoutId) : Prop :=
  (s.stage i).isOpen = true ∨ (s.isBound i = true ∧ ((s.context i).phase = .opening ∨ (s.context i).phase = .feeding)
    ∧ (s.stage (leaderOf i)).isOpen = true)

/-- R22, with what it needs: every spout of an open compartment may feed, and so does every spout of a closed one that has no cause
yet and may still be trimmed; the opening and the starve timer run with an open gate alone, and no close, pause or hold does; the
long captures run in their stages alone; a spout that has a position has its inputs taken; a release waits with its context. -/
structure State.GatesLawful (s : State) : Prop where
  gate : ∀ i, (s.gate i).isOpen = true → s.mayFeed i ∧ s.compartmentOpen i
  openStage : ∀ i, (s.stage i).isOpen = true → (s.gate i).isOpen = true ∧ ∀ m ∈ s.members i, s.mayFeed m
  closedStage : ∀ i, (s.stage i).isClosed = true → (s.compartment i).cause = none → ∀ m ∈ s.members i, s.mayFeed m
  opening : ∀ i, (s.gate i).opening.isSome = true ∨ (s.gate i).starve.isSome = true → (s.gate i).isOpen = true
  closing : ∀ i, (s.gate i).close.isSome = true ∨ (s.gate i).retry.isSome = true ∨ (s.gate i).hold.isSome = true →
    (s.gate i).isOpen = false
  failed : ∀ i, (s.gate i).failed = true → s.isFaulted i = true
  started : ∀ i, s.inputsTaken i = false → (s.positioner i).position = .notStarted ∨ s.isFaulted i = true
  blocking : ∀ i, (s.calibration i).capture = .longBlocking → s.stage (s.ownerOf i) = .zeroing
  order : ∀ i, (s.calibration i).capture = .longOrder ↔ s.stage i = .zeroRun
  timeout : ∀ i, (s.calibration i).zeroTimeout.isSome = true → (s.calibration i).capture.isLong = true
  release : ∀ i, .release ∈ (s.positioner i).requests → (s.positioner i).position = .notStarted
    ∧ s.stage (s.ownerOf i) = .releasing ∧ (s.compartment i).releasedAnswered = false

/-- Slots, contexts and gates: one law, since each of the three needs the other two. -/
structure State.WorkLawful (s : State) : Prop where
  memory : s.memory.wf = true
  slots : s.SlotsLawful
  contexts : s.ContextsLawful
  gates : s.GatesLawful

/-- R66, R95, R179, R182: a valid profile and a SET product lie within their ranges, the span of a valid profile within its own, and
every lag between 0 and 5000 ms. -/
structure State.SettingsLawful (s : State) : Prop where
  profile : ∀ i, s.hasProfile i = true → (profileChecks 0 (s.profile i)).all (·.2) = true
  span : ∀ i, s.hasProfile i = true →
    (s.profile i).spanLow ≤ (s.calibration i).span ∧ (s.calibration i).span ≤ (s.profile i).spanHigh
  product : ∀ p : ProductId, s.products[p].set = true → (productChecks 0 s.products[p]).all (·.2) = true
  unset : ∀ p : ProductId, s.products[p].set = false → s.products[p] = {}
  lag : ∀ e : Fin 128, s.preact[e].lag ≤ 5000

/-- The commands of the sensor lines, the field lines and the timers: those that neither the host, the supply nor the port's own
start-up and soft reset give. -/
def fromLines : Instr → Bool
  | .initialTaking _ _ _ | .frame _ _ | .framingError _ | .interCharacterTimeout _ | .silenceTimerExpiry _
  | .goodFrameWatchExpiry _ | .inputChange _ _ _ | .debounceExpiry _ _ | .openingTimerExpiry _ | .closeTimerExpiry _
  | .retryPauseExpiry _ | .closeHoldExpiry _ | .starveTimerExpiry _ | .aerateTimerExpiry _ | .travelTimerExpiry _
  | .indexTimerExpiry _ | .zeroIntervalExpiry _ | .zeroTimeoutExpiry _ | .panelTimerExpiry _ | .characterReceived _ _ => true
  | _ => false

/-! ## Words for the statements: what a posting finds, what it leaves, and what stays as it was -/

/-- The port is in RUNNING and the slot is FREE: a posting in it is accepted and taken at once (R155, R158). -/
def State.takesPosting (s : State) (n : SlotId) : Prop := s.port.exchange = .running ∧ s.slotStateByte n = 0

/-- R155: word 0 of the slot holds state POSTED (1) and the kind. -/
def State.posted (s : State) (n : SlotId) (kind : Nat) : State :=
  s.writeMemory (Config.slotBase n) [1, BitVec.ofNat 8 kind]

/-- R157, R166, R195: result, refusal reason and field index written at offsets 3 to 5, then state DONE (4); one more slot is
counted done, up to 255. -/
def State.answered (s : State) (n : SlotId) (result reason index : Nat) : State :=
  ((s.writeMemory (Config.slotBase n + 3) [BitVec.ofNat 8 result, BitVec.ofNat 8 reason, BitVec.ofNat 8 index]).writeMemory
    (Config.slotBase n) [4]).updatePort fun p => { p with doneCount := min (p.doneCount + 1) 255 }

/-- R162, R195: an accepted order: result none, reason none, field index 0xFF, a place at the tail of the spout's queue, and
state QUEUED (2). -/
def State.joined (s : State) (n : SlotId) (i : SpoutId) : State :=
  ((s.writeMemory (Config.slotBase n + 3) [0, 0, 0xFF]).setQueue i (s.queue i ++ [n])).writeMemory (Config.slotBase n) [2]

/-- The spout's context can serve its queue head, and nothing stands in its queue (R52, R164). -/
def State.rests (s : State) (i : SpoutId) : Prop :=
  s.stage i = .idle ∧ (s.context i).claim = none ∧ s.queue i = []

/-- R156, R172: one more discarded write, up to 65535, and the header field that shows the count. -/
def State.counted (s : State) : State :=
  (s.updatePort fun p => { p with protocolFaults := min (p.protocolFaults + 1) 65535 }).writeMemory 0x000A
    (u16Bytes (min (s.port.protocolFaults + 1) 65535))

/-- Every spout but one is as it was. -/
def SameOtherSpouts (i : SpoutId) (s t : State) : Prop := ∀ j, j ≠ i → t.spout j = s.spout j

/-- Every spout is as it was. -/
def SameSpouts (s t : State) : Prop := ∀ j, t.spout j = s.spout j

/-- The products, the preact table and the queue of commands are as they were. -/
def SameTables (s t : State) : Prop := t.products = s.products ∧ t.preact = s.preact ∧ t.pending = s.pending

/-- Every byte of the exchange memory outside `len` bytes from `a` reads as it did. -/
def SameMemoryOutside (a len : Nat) (s t : State) : Prop :=
  ∀ x, x < a ∨ a + len ≤ x → t.memory.read x = s.memory.read x

/-- The bytes stand in the exchange memory from an address up. -/
def State.holds (s : State) (a : Nat) (bytes : List Byte) : Prop :=
  ∀ (k : Nat) (h : k < bytes.length), s.memory.read (a + k) = bytes[k]

/-- Everything of a spout but its context is as it was. -/
def SameBesidesContext (i : SpoutId) (s t : State) : Prop := t.spout i = { s.spout i with context := t.context i }

/-- The spout's context runs by itself: it leads no TWIN and is not BOUND. -/
def State.single (s : State) (i : SpoutId) : Prop := s.isTwin i = false ∧ s.isBound i = false

/-- The leader runs a TWIN whose follower is BOUND to it, both with a valid profile. -/
def State.pair (s : State) (o : SpoutId) : Prop :=
  o.val % 2 = 0 ∧ s.isTwin o = true ∧ s.isBound o = false ∧ s.isBound (followerOf o) = true ∧ s.hasProfile o = true
    ∧ s.hasProfile (followerOf o) = true

/-- R33: CLOSE is asserted alone, the opening and the starve timer are stopped, and the close timer runs to gate_close_time. -/
def State.gateIsCut (s : State) (i : SpoutId) : Prop :=
  (s.gate i).output = .close ∧ (s.gate i).opening = none ∧ (s.gate i).starve = none
    ∧ (s.gate i).close = some (s.profile i).gateCloseTime

/-- R40, R109: the context is at rest, its gate apart. -/
def State.atRest (s : State) (i : SpoutId) : Prop :=
  s.stage i = .idle ∧ (s.context i).slot = none ∧ s.order i = {} ∧ s.compartment i = {}

/-- R39 step 2, R196: the code, secondary cause, trims used and final that an entry of a slot shows. -/
def State.entryShows (s : State) (n : SlotId) (e code secondary trims final : Nat) : Prop :=
  s.entryCode n e = code ∧ s.slotU8 n (0x40 + 16 * e + 6) = secondary ∧ s.slotU8 n (0x40 + 16 * e + 7) = trims
    ∧ s.slotU32 n (0x40 + 16 * e + 12) = final

/-- R108: the four progress fields of a slot. -/
def State.progressShows (s : State) (n : SlotId) (remaining next last total : Nat) : Prop :=
  s.slotU8 n 0x18 = remaining ∧ s.slotU8 n 0x19 = next ∧ s.slotU8 n 0x1A = last ∧ s.slotU32 n 0x1C = total

/-- R120: an input's change to a level has been wired for its debounce time: the expiry takes it. -/
def State.changeDue (s : State) (i : SpoutId) (n : InputName) (level : Bool) : Prop :=
  (s.line i n).timer.isSome = true ∧ (s.line i n).wired = level ∧ (s.line i n).taken = !level

/-- R120: the input's change to a level is taken. -/
def FieldGroup.taking (g : FieldGroup) (n : InputName) (level : Bool) : FieldGroup :=
  g.setLine n { g.line n with taken := level, timer := none }

/-- R128: LOWER is asserted and the travel timer runs. -/
def State.isLowering (s : State) (i : SpoutId) : Prop :=
  (s.positioner i).position = .lowering ∧ (s.positioner i).drive = .lower ∧ (s.positioner i).travel = some (s.travelTime i)

/-- R124, R133: RAISE is asserted and the travel timer runs. -/
def State.isRaising (s : State) (i : SpoutId) : Prop :=
  (s.positioner i).position = .raising ∧ (s.positioner i).drive = .raise ∧ (s.positioner i).travel = some (s.travelTime i)

/-- A release request raises the spout, which is not at its upper switch yet (R131). -/
def State.willRaise (s : State) (i : SpoutId) : Prop :=
  ((s.positioner i).position = .engaged ∨ (s.positioner i).position = .lowering) ∧ s.present i .spoutRaised = false

/-- R112, R116: the command stops the order that the context runs: a STOP that names its slot, or ALL_STOP while no other context
runs an order of its own. -/
def State.stopsOrder (s : State) (c : Instr) (i : SpoutId) (m : SlotId) : Prop :=
  (s.context i).slot = some m ∧ s.isBound i = false ∧ s.slotStateByte m = 3 ∧ s.port.exchange = .running
    ∧ ((∃ n : SlotId, c = .stop n ∧ s.slotStateByte n = 0 ∧ s.slotU8 n 0x10 = m.val ∧ ∀ j, s.runs j m = true ↔ j = i)
      ∨ (c = .allStop ∧ (∀ j, s.queue j = []) ∧ ∀ j, j ≠ i → (s.context j).slot = none ∨ s.isBound j = true))

/-- R129: the command takes the switch change that ends the spout's lowering: ENGAGED is reported. -/
def State.reportsEngaged (s : State) (c : Instr) (i : SpoutId) : Prop :=
  (s.positioner i).position = .lowering
    ∧ ((c = .debounceExpiry i .spoutLowered ∧ s.changeDue i .spoutLowered true ∧ s.present i .spoutRaised = false)
      ∨ (c = .debounceExpiry i .spoutRaised ∧ s.changeDue i .spoutRaised false ∧ s.present i .spoutLowered = true))

/-- R33, R41 to R44, R62: the command brings an event of the spout that cuts an open compartment, and the cause it gives. -/
def State.cutEvent (s : State) (c : Instr) (i : SpoutId) (code : Code) : Prop :=
  (c = .inputChange i .permit false ∧ code = .permitLost ∧ s.port.linesLive = true
      ∧ (s.line i .permit).initiallyTaken = true ∧ s.present i .permit = true)
    ∨ (c = .inputChange i .levelHigh true ∧ code = .level ∧ s.port.linesLive = true
      ∧ (s.line i .levelHigh).initiallyTaken = true ∧ s.present i .levelHigh = false)
    ∨ (c = .debounceExpiry i .spoutLowered ∧ code = .seatLost ∧ s.changeDue i .spoutLowered false
      ∧ (s.positioner i).position = .engaged)
    ∨ (c = .debounceExpiry i .indexReady ∧ code = .vehicleMoved ∧ s.changeDue i .indexReady false ∧ s.isBound i = false)
    ∨ (c = .openingTimerExpiry i ∧ code = .noOpen ∧ (s.gate i).opening.isSome = true)
    ∨ (c = .starveTimerExpiry i ∧ code = .noFlow ∧ (s.gate i).starve.isSome = true ∧ (s.compartment i).starveCount = 1)

/-- R27, R56: the opening conditions of a spout of the compartment, the leader's INDEX_READY and its being ENGAGED apart. -/
def State.mayOpen (s : State) (i : SpoutId) : Prop :=
  s.present i .permit = true ∧ s.present i .levelHigh = false ∧ s.present i .gateClosed = true

/-- R5, R17, R27: the channel is restarted for a compartment, with its integration OPEN. -/
def State.integratesAfresh (s : State) (i : SpoutId) : Prop :=
  (s.channel i).integrating = true ∧ (s.channel i).delivered = 0 ∧ (s.channel i).remainder = 0
    ∧ (s.channel i).window = [] ∧ (s.channel i).leakTotal = 0 ∧ (s.channel i).leak = false

/-- R108: the four progress fields as the codes of the slot's first entries give them. -/
def State.progressFollows (s : State) (n : SlotId) (count total : Nat) : Prop :=
  let isOpen := fun e => s.entryCode n e == 0 || s.entryCode n e == 21
  let hasFinal := fun e => decide (1 ≤ s.entryCode n e ∧ s.entryCode n e ≤ 17)
  s.progressShows n ((List.range count).countP isOpen) ((List.range count).findIdx isOpen)
    (((List.range count).filter hasFinal).getLast?.getD 0xFF) (min total 4294967295)

/-- R40, R87, R106, R109, R113: the command ends the order that the spout runs by itself, and its context becomes IDLE: an index or
a zero timeout, a STOP in WAIT_INDEX or ZERO_RUN, or the upper switch reached in RELEASING with an end mark. -/
def State.endsOrder (s : State) (c : Instr) (i : SpoutId) (n : SlotId) : Prop :=
  (s.context i).slot = some n ∧ s.single i ∧ s.port.exchange = .running ∧ s.slotStateByte n = 3 ∧ (s.order i).count ≤ 12
    ∧ (s.compartment i).index < 12 ∧ (s.order i).mark ≠ .reset
    ∧ ((c = .indexTimerExpiry i ∧ s.stage i = .waitIndex ∧ (s.order i).indexTimer.isSome = true)
      ∨ (c = .zeroTimeoutExpiry i ∧ s.stage i = .zeroRun ∧ (s.calibration i).zeroTimeout.isSome = true)
      ∨ (c ≠ .allStop ∧ s.stopsOrder c i n ∧ (s.stage i = .waitIndex ∨ s.stage i = .zeroRun)
        ∧ (s.order i).stopTaken = false)
      ∨ (c = .debounceExpiry i .spoutRaised ∧ s.changeDue i .spoutRaised true ∧ (s.positioner i).position = .raising
        ∧ (s.positioner i).engageWaiting = false ∧ s.stage i = .releasing ∧ (s.calibration i).capture = .none
        ∧ (s.order i).mark ≠ .none))

/-- R51, R52, R92, R101, R106, R164: in `t` the queue head `m` of the spout, QUEUED in `s` before `rest`, has been served: a LOAD whose
first entry is to be loaded waits for INDEX_READY, a TWIN for its follower at work, a ZERO runs or is refused BUSY, and a SEED is
done. -/
def State.serves (s t : State) (i : SpoutId) (m : SlotId) (rest : List SlotId) : Prop :=
  (s.slotKind m = 1 → 1 ≤ s.loadCount m → s.slotU8 m 0x44 = 0 → 1 ≤ s.slotU32 m 0x40 → 1 ≤ s.loadLimit m →
      s.present i .indexReady = false →
      t.slotStateByte m = 3 ∧ t.stage i = .waitIndex ∧ (t.context i).slot = some m ∧ t.queue i = rest
        ∧ t.compartment i = { index := 0, effectiveTarget := min (s.slotU32 m 0x40) (s.loadLimit m) }
        ∧ (t.order i).indexTimer = some ((s.profile i).indexTimeout * 1000) ∧ (t.order i).mark = .none
        ∧ (t.order i).total = 0)
    ∧ (s.slotKind m = 2 → i.val % 2 = 0 → 1 ≤ s.loadCount m → s.slotU8 m 0x44 = 0 → 1 ≤ s.slotU32 m 0x40 →
      1 ≤ s.loadLimit m → s.isFaulted (followerOf i) = false → s.stage (followerOf i) ≠ .idle →
      s.isBound (followerOf i) = false →
      t.slotStateByte m = 3 ∧ t.stage i = .waitIndex ∧ (t.context i).slot = some m ∧ t.queue i = rest
        ∧ (t.context (followerOf i)).claim = some { leader := i, slot := m } ∧ (t.order i).indexTimer = none)
    ∧ (s.slotKind m = 3 → s.present i .gateClosed = true →
      t.slotStateByte m = 3 ∧ t.stage i = .zeroRun ∧ (t.context i).slot = some m ∧ t.queue i = rest
        ∧ (t.calibration i).capture = .longOrder ∧ (t.calibration i).captureCount = 0
        ∧ (t.calibration i).zeroTimeout = some (s.profile i).zeroTimeout)
    ∧ (s.slotKind m = 3 → s.present i .gateClosed = false → rest = [] →
      t.slotStateByte m = 4 ∧ t.slotU8 m 3 = 8 ∧ t.slotU8 m 4 = 9 ∧ t.atRest i ∧ t.queue i = [])
    ∧ (s.slotKind m = 7 → rest = [] →
      t.slotStateByte m = 4 ∧ t.slotU8 m 3 = 1 ∧ t.atRest i ∧ t.queue i = []
        ∧ t.preact[preactIndex i (Fin.ofNat 16 (s.slotU8 m 0x10))]
          = { s.preact[preactIndex i (Fin.ofNat 16 (s.slotU8 m 0x10))] with lag := s.slotU16 m 0x12, origin := .seeded })

/-! ## Words for the statements: the records of the exchange memory, field by field at its offset -/

/-- R194: the fields of the live panel of a spout, at an address. -/
def State.panelShows (s : State) (a : Nat) (p : Spout) : Prop :=
  let position := match p.positioner.position with
    | .released => 0 | .lowering => 1 | .engaged => 2 | .raising => 3 | .faulted => 4 | .notStarted => 0xFF
  let cause := match p.positioner.cause with
    | .none => 0 | .travelFault => 1 | .gateFault => 2 | .sensorLost => 3 | .sensorAbsent => 4
  let stage := match p.context.stage with
    | .idle => 0 | .waitIndex => 1 | .engaging => 2 | .zeroing => 3 | .opening => 4 | .coarse => 5 | .fine => 6 | .closing => 7
    | .settling => 8 | .trim => 9 | .releasing => 10 | .zeroRun => 11 | .bound => 12
  let flag := fun (b : Bool) (weight : Nat) => if b then weight else 0
  let x := p.field
  let y := p.context.gate.output
  s.memory.u8 (a + 0x02) = position ∧ s.memory.u8 (a + 0x03) = cause ∧ s.memory.u8 (a + 0x04) = stage
    ∧ s.memory.u8 (a + 0x05) = ((p.context.slot.map Fin.val).getD 0xFF)
    ∧ s.memory.u8 (a + 0x06) = p.context.compartment.index % 256
    ∧ s.memory.u8 (a + 0x07) = flag p.handed.leak 1 + flag p.calibration.zeroLimit 2 + flag (p.positioner.position == .faulted) 4
    ∧ s.memory.u32 (a + 0x08) = p.handed.delivered % 4294967296 ∧ s.memory.u32 (a + 0x0C) = p.handed.rate % 4294967296
    ∧ (s.memory.u16 (a + 0x10) : Int) = p.calibration.zero % 65536 ∧ s.memory.u16 (a + 0x12) = p.calibration.span % 65536
    ∧ s.memory.u16 (a + 0x14) = p.calibration.debt % 65536 ∧ (s.memory.u16 (a + 0x16) : Int) = p.handed.lastRaw % 65536
    ∧ s.memory.u32 (a + 0x18) = p.handed.leakTotal % 4294967296 ∧ s.memory.u16 (a + 0x1C) = p.receiver.linkErrors % 65536
    ∧ s.memory.u16 (a + 0x1E) = flag x.gateClosed.taken 1 + flag x.gateOpen.taken 2 + flag x.spoutRaised.taken 4
      + flag x.spoutLowered.taken 8 + flag x.levelHigh.taken 16 + flag x.indexReady.taken 32 + flag x.permit.taken 64
    ∧ s.memory.u16 (a + 0x20) = flag (y == .openFull) 1 + flag (y == .openFine) 2 + flag (y == .close) 4
      + flag (p.positioner.drive == .lower) 8 + flag (p.positioner.drive == .raise) 16 + flag x.aerate 32

/-- R198: the fields of a profile record, at an address. -/
def State.profileShows (s : State) (a : Nat) (valid : Bool) (p : Profile) : Prop :=
  s.memory.u16 (a + 0x02) = (if valid then 1 else 0) ∧ (s.memory.u16 (a + 0x04) : Int) = p.zeroRef % 65536
    ∧ s.memory.u16 (a + 0x06) = p.zeroLimit % 65536 ∧ s.memory.u16 (a + 0x08) = p.zeroBand % 65536
    ∧ s.memory.u16 (a + 0x0A) = p.creepBand % 65536 ∧ s.memory.u16 (a + 0x0C) = p.spanRef % 65536
    ∧ s.memory.u16 (a + 0x0E) = p.window % 65536 ∧ s.memory.u16 (a + 0x10) = p.zeroStep % 65536
    ∧ s.memory.u16 (a + 0x12) = p.zeroInterval % 65536 ∧ s.memory.u16 (a + 0x14) = p.zeroTimeout % 65536
    ∧ s.memory.u32 (a + 0x16) = p.surgeLimit % 4294967296 ∧ s.memory.u16 (a + 0x1A) = p.surgeCount % 65536
    ∧ s.memory.u32 (a + 0x1C) = p.starveRate % 4294967296 ∧ s.memory.u16 (a + 0x20) = p.starveWindow % 65536
    ∧ s.memory.u16 (a + 0x22) = p.aerationTime % 65536 ∧ s.memory.u32 (a + 0x24) = p.settleBand % 4294967296
    ∧ s.memory.u16 (a + 0x28) = p.settleCount % 65536 ∧ s.memory.u16 (a + 0x2A) = p.gateOpenTime % 65536
    ∧ s.memory.u16 (a + 0x2C) = p.gateCloseTime % 65536 ∧ s.memory.u16 (a + 0x2E) = p.travelTime % 65536
    ∧ s.memory.u16 (a + 0x30) = p.indexTimeout % 65536 ∧ s.memory.u16 (a + 0x32) = p.debounce % 65536
    ∧ s.memory.u16 (a + 0x34) = p.leakThreshold % 65536 ∧ s.memory.u32 (a + 0x36) = p.leakLimit % 4294967296
    ∧ s.memory.u16 (a + 0x3A) = p.learnGain % 65536 ∧ s.memory.u16 (a + 0x3C) = p.learnMaxStep % 65536
    ∧ s.memory.u16 (a + 0x3E) = p.learnMinRate % 65536

/-- R198: the fields of a product record, at an address. -/
def State.productShows (s : State) (a : Nat) (p : Product) : Prop :=
  s.memory.u16 (a + 0x02) = (if p.set then 1 else 0) ∧ s.memory.u16 (a + 0x04) = p.defaultLag % 65536
    ∧ (s.memory.u16 (a + 0x06) : Int) = p.offset % 65536 ∧ s.memory.u32 (a + 0x08) = p.fineBand % 4294967296
    ∧ s.memory.u32 (a + 0x0C) = p.underTol % 4294967296 ∧ s.memory.u32 (a + 0x10) = p.overTol % 4294967296
    ∧ s.memory.u16 (a + 0x14) = p.maxTrims % 65536 ∧ s.memory.u16 (a + 0x16) = p.trimRate % 65536

/-- R198: the fields of the image of a preact entry, at an address. -/
def State.preactShows (s : State) (a : Nat) (v : PreactEntry) : Prop :=
  s.memory.u16 (a + 0x02) = v.lag % 65536
    ∧ s.memory.u8 (a + 0x04) = (match v.origin with | .fromDefault => 0 | .seeded => 1 | .learned => 2)
    ∧ s.memory.u8 (a + 0x05) = (if v.keep then 1 else 0) ∧ s.memory.u16 (a + 0x06) = v.learnCount % 65536
    ∧ (s.memory.u32 (a + 0x08) : Int) = v.lastOvershoot % 4294967296

/-! ## Words for the statements: a spout that faults -/

/-- R134, R147: the command faults a spout that is not FAULTED: 20 ms of silence on a PRESENT link, the travel time over in LOWERING or
RAISING, or a second expiry in one close (R35). -/
def State.faults (s : State) (c : Instr) (i : SpoutId) : Prop :=
  s.isFaulted i = false
    ∧ ((c = .silenceTimerExpiry i ∧ (s.receiver i).link = .present ∧ (s.receiver i).silence.isSome = true)
      ∨ (c = .travelTimerExpiry i ∧ (s.positioner i).travel.isSome = true
        ∧ ((s.positioner i).position = .lowering ∨ (s.positioner i).position = .raising))
      ∨ (c = .closeTimerExpiry i ∧ (s.gate i).close.isSome = true ∧ (s.gate i).secondTry = true))

/-- R109 step 1: the entries of a slot that are PENDING (0) in `s` are NOT_REACHED (21) in `t`, and no other code differs. -/
def State.entriesClosed (s t : State) (n : SlotId) (count : Nat) : Prop :=
  ∀ e ∈ List.range count, t.entryCode n e = if s.entryCode n e = 0 then 21 else s.entryCode n e

/-- R118, R134, R165: in `t` the queue that the spout has in `s` is empty, and each of its orders is DONE (4) with result SPOUT_FAULT
(6), the PENDING entries of a LOAD or TWIN NOT_REACHED. -/
def State.queueReturned (s t : State) (i : SpoutId) : Prop :=
  t.queue i = [] ∧ ∀ q ∈ s.queue i, t.slotStateByte q = 4 ∧ t.slotU8 q 3 = 6
    ∧ (s.slotKind q = 1 ∨ s.slotKind q = 2 → s.entriesClosed t q (s.loadCount q))

end Sys2Proof.Machine
end

