-- ==== Sys2Proof/Certificates/Slice0/Obligations.lean ====
section
/-! DEFINITION. The statements for the provers. Each says in its docstring which rule of spec/ it follows; where a clause rests on
the model's own choice, the log entry is named. -/

open Sys2Proof Sys2Proof.Machine

/-! ## The machine -/

/-- A step takes the command at the front of the queue: it is exec of that command on the state with the queue's rest. With
no command waiting the part idles (the model's choice, log entry 1). -/
def Obligations.StepTakesTheFrontCommand : Prop :=
  (∀ (c : Instr) (rest : List Instr) (s : Machine.State), s.pending = c :: rest →
     step s = exec c { s with pending := rest }) ∧
  (∀ s : Machine.State, s.pending = [] → step s = .next s)

/-- Every command answers a next state in every state: none faults or is refused. The model's choices: a command that does
not concern the state it meets (the expiry of a stopped timer, say) changes nothing (log entry 3), POWER_ON keeps the queue
of commands (log entry 4), and one queue stands for all senders, which no command touches (log entry 23). -/
def Obligations.EveryCommandAnswersANextState : Prop :=
  ∀ (c : Instr) (s : Machine.State), ∃ t, exec c s = .next t ∧ t.pending = s.pending

/-! ## Power-on, start-up, soft reset -/

/-- R173: POWER_ON and HARD_RESET take every block to its reset values, in whatever state. What is no part of the hardware
(the commands still waiting, the count of free values) stays (log entry 4). The reset columns of R19, R20, R66, R80, R100,
R127, R140 and R178, with R126 and R173: the values the spec gives. -/
def Obligations.PowerOnAndHardResetTakeResetValues : Prop :=
  (∀ (c : Instr) (s : Machine.State), c = .powerOn ∨ c = .hardReset →
     exec c s = .next { State.reset with pending := s.pending, freeCount := s.freeCount }) ∧
  (let s := State.reset
   (s.port.exchange = .starting ∧ s.port.doneCount = 0 ∧ s.port.spoutChange = false ∧ s.port.startUp = false
     ∧ s.port.halted = false ∧ s.port.protocolFaults = 0 ∧ s.pending = []) ∧
   (∀ a, s.memory.read a = 0) ∧
   (∀ i, (s.receiver i).link = .searching ∧ (s.receiver i).assembly = [] ∧ (s.receiver i).lastSequence = none
     ∧ (s.receiver i).missingRun = 0 ∧ (s.receiver i).goodRun = 0 ∧ (s.receiver i).linkErrors = 0
     ∧ (s.receiver i).huntCounted = false ∧ (s.receiver i).lastGoodRaw = 0 ∧ (s.receiver i).silence = none) ∧
   (∀ i, (s.channel i).remainder = 0 ∧ (s.channel i).delivered = 0 ∧ (s.channel i).integrating = false
     ∧ (s.channel i).window = [] ∧ (s.channel i).rate = 0 ∧ (s.channel i).surgeRun = 0
     ∧ (s.channel i).windowSum = 0 ∧ (s.channel i).fillCount = 0 ∧ (s.channel i).leakRemainder = 0
     ∧ (s.channel i).leakTotal = 0 ∧ (s.channel i).leak = false) ∧
   (∀ i, (s.calibration i).profileValid = false ∧ (s.calibration i).zero = 0 ∧ (s.calibration i).span = 0
     ∧ (s.calibration i).debt = 8 ∧ (s.calibration i).capture = .none ∧ (s.calibration i).zeroLimit = false) ∧
   (∀ i, s.stage i = .idle ∧ (s.context i).slot = none ∧ (s.context i).claim = none ∧ s.queue i = []) ∧
   (∀ i, let c := s.compartment i
     c.index = 0 ∧ c.effectiveTarget = 0 ∧ c.cause = none ∧ c.secondary = none ∧ c.hold = none ∧ c.closeRetried = false
       ∧ c.stopPending = false ∧ c.levelAfterCut = false ∧ c.trimsUsed = 0 ∧ c.starveCount = 0 ∧ c.settleRun = 0) ∧
   (∀ i, let g := s.gate i
     g.opening = none ∧ g.close = none ∧ g.retry = none ∧ g.hold = none ∧ g.starve = none) ∧
   (∀ i, let o := s.order i
     o.product = 0 ∧ o.limit = 0 ∧ o.count = 0 ∧ o.total = 0 ∧ o.watch = .first ∧ o.indexTimer = none ∧ o.mark = .none) ∧
   (∀ i, (s.positioner i).travel = none ∧ (s.positioner i).engageWaiting = false) ∧
   (∀ i, (s.calibration i).interval = none ∧ (s.calibration i).captureCount = 0 ∧ (s.calibration i).captureSum = 0
     ∧ (s.calibration i).zeroTimeout = none ∧ (s.calibration i).profile = {
         zeroRef := 0, zeroLimit := 0, zeroBand := 0, creepBand := 0, spanRef := 0, window := 0, zeroStep := 0, zeroInterval := 0
         zeroTimeout := 0, surgeLimit := 0, surgeCount := 0, starveRate := 0, starveWindow := 0, aerationTime := 0
         settleBand := 0, settleCount := 0, gateOpenTime := 0, gateCloseTime := 0, travelTime := 0, indexTimeout := 0
         debounce := 0, leakThreshold := 0, leakLimit := 0, learnGain := 0, learnMaxStep := 0, learnMinRate := 0 }) ∧
   (∀ i, (s.positioner i).position = .notStarted ∧ (s.positioner i).cause = .none
     ∧ (s.gate i).output = .none ∧ (s.positioner i).drive = .none ∧ (s.field i).aerate = false
     ∧ (s.field i).aerateTimer = none) ∧
   (∀ i n, s.present i n = false) ∧
   (∀ p : ProductId, s.products[p] = {
     set := false, defaultLag := 0, offset := 0, fineBand := 0, underTol := 0, overTol := 0, maxTrims := 0, trimRate := 0 }) ∧
   (∀ e : Fin 128, s.preact[e].lag = 0 ∧ s.preact[e].origin = .fromDefault ∧ s.preact[e].keep = false
     ∧ s.preact[e].learnCount = 0 ∧ s.preact[e].lastOvershoot = 0))

/-- R173: a passed memory test clears the memory and starts the presence window, with every receiver's 20 ms watch (log
entry 4). A failed one leaves the part HALTED with its halted flag set; that the memory reads 0 then too is the model's
reading (log entry 29). -/
def Obligations.MemoryTestOpensTheWindowOrHalts : Prop :=
  ∀ s : Machine.State, s.port.exchange = .starting → s.port.testing = true →
    (∃ t, exec (.memoryTestComplete true) s = .next t ∧ t.memory = []
      ∧ t.port = { s.port with testing := false, presenceWindow := some 500 }
      ∧ (∀ i, t.spout i = { s.spout i with receiver := { s.receiver i with watch := some 20 } })
      ∧ SameTables s t) ∧
    exec (.memoryTestComplete false) s = .next { s with
      memory := [], port := { s.port with exchange := .halted, testing := false, halted := true } }

/-- R122: the initial taking of an input, while another input of the spout is still to be taken. R23, R122, R138: the last
initial taking of a spout starts it up. CLOSE without a close timer where GATE_CLOSED is absent; RELEASED where SPOUT_RAISED
is present, else a raise under the travel time (log entry 35). -/
def Obligations.InitialTakingAndSpoutStartUp : Prop :=
  (∀ (i : SpoutId) (n : InputName) (level : Bool) (s : Machine.State),
     let g := (s.field i).setLine n { taken := level, wired := level, timer := none, initiallyTaken := true }
     s.port.linesLive = true → (s.line i n).initiallyTaken = false → g.allTaken = false →
     exec (.initialTaking i n level) s = .next (s.updateField i fun _ => g)) ∧
  (∀ (i : SpoutId) (n : InputName) (level : Bool) (s : Machine.State),
     let g := (s.field i).setLine n { taken := level, wired := level, timer := none, initiallyTaken := true }
     s.port.linesLive = true → (s.line i n).initiallyTaken = false → g.allTaken = true →
     (s.positioner i).position = .notStarted → (s.positioner i).requests = [] →
     ∃ t, exec (.initialTaking i n level) s = .next t ∧ t.field i = g
       ∧ (g.gateClosed.taken = true → t.gate i = s.gate i)
       ∧ (g.gateClosed.taken = false → (t.gate i).output = .close ∧ (t.gate i).close = none ∧ (t.gate i).hold = none)
       ∧ (g.spoutRaised.taken = true → (t.positioner i).position = .released ∧ (t.positioner i).drive = .none
           ∧ (t.positioner i).travel = none)
       ∧ (g.spoutRaised.taken = false → (t.positioner i).position = .raising ∧ (t.positioner i).drive = .raise
           ∧ (t.positioner i).travel = some (if s.hasProfile i then (s.profile i).travelTime else 30000))
       ∧ t.stage i = s.stage i ∧ t.channel i = s.channel i ∧ t.calibration i = s.calibration i
       ∧ t.receiver i = s.receiver i ∧ t.queue i = s.queue i
       ∧ SameOtherSpouts i s t ∧ t.port = s.port ∧ SameTables s t)

/-- R149, R174: the presence window expires. Every receiver still SEARCHING becomes ABSENT and its spout FAULTED; the port
enters RUNNING with its start-up flag set and every panel timer started; a new fault sets spout-change. The header, the
eight panels and every image are written (R193, R194, R198). The second clause: what each of the four lists of bytes shows
at which offset of its record (R194, R198), and that a profile or product record of an order is read by the same layout
(R198). -/
def Obligations.PresenceWindowExpiryEntersRunning : Prop :=
  (∀ s : Machine.State, s.memory.wf = true → s.port.exchange = .starting → s.port.presenceWindow.isSome = true →
    s.port.protocolFaults ≤ 65535 →
    ∃ t, exec .presenceWindowExpiry s = .next t ∧ t.port.exchange = .running ∧ t.port.presenceWindow = none
      ∧ t.port.startUp = true
      ∧ (∀ i, (t.receiver i).link = if (s.receiver i).link = .searching then .absent else (s.receiver i).link)
      ∧ (∀ i, (s.receiver i).link = .searching → t.isFaulted i = true)
      ∧ ((∃ i, (s.receiver i).link = .searching ∧ s.isFaulted i = false) → t.port.spoutChange = true)
      ∧ (∀ i, (t.spout i).panelTimer = some 100)
      ∧ t.products = s.products ∧ t.port.protocolFaults = s.port.protocolFaults
      ∧ t.memory.u16 0x0000 = 0x4C08 ∧ t.memory.u16 0x0002 = 1 ∧ t.memory.u16 0x0004 = 32 ∧ t.memory.u16 0x0006 = 8
      ∧ t.memory.u16 0x0008 = 1 ∧ t.memory.u16 0x000A = s.port.protocolFaults
      ∧ (∀ i : SpoutId, t.memory.u16 (0x0010 + 2 * i.val) = (t.receiver i).link.value)
      ∧ (∀ i : SpoutId, t.holds (0x0102 + 64 * i.val) (panelFields (t.spout i)))
      ∧ (∀ i : SpoutId, t.holds (0x0302 + 96 * i.val) (profileFields (t.hasProfile i) (t.profile i)))
      ∧ (∀ p : ProductId, t.holds (0x0602 + 32 * p.val) (productFields t.products[p]))
      ∧ (∀ e : Fin 128, t.holds (0x0802 + 16 * e.val) (preactFields t.preact[e]))) ∧
  (∀ (a : Nat) (s : Machine.State),
     (∀ i : SpoutId, s.holds (a + 2) (panelFields (s.spout i)) → s.panelShows a (s.spout i))
       ∧ (∀ (i : SpoutId) (valid : Bool), s.holds (a + 2) (profileFields valid (s.profile i)) →
           s.profileShows a valid (s.profile i))
       ∧ (∀ p : ProductId, s.holds (a + 2) (productFields s.products[p]) → s.productShows a s.products[p])
       ∧ (∀ e : Fin 128, s.holds (a + 2) (preactFields s.preact[e]) → s.preactShows a s.preact[e])
       ∧ (s.memory.u16 (a + 2) = 1 → s.profileShows a true (s.memory.profileAt a)
           ∧ s.productShows a (s.memory.productAt a)))

/-- R170, R175: SOFT_RESET in RUNNING. The done count is 0, the flags stay (R166, R167). R79: every entry whose keep mark is
clear becomes DEFAULT at its product's L0, or at 0 ms, and a kept entry stays. R98: no capture runs on, the zero interval
timer of a valid profile starts afresh, and the profile, Z, S, the debt and ZERO_LIMIT stay. R125: AERATE is dropped on
every spout. R138: an ENGAGED or LOWERING spout is raised (RELEASED at once where its upper switch is present, R131), any
other keeps its position and its fault cause, and no request waits (R128; log entry 20 for those that wait for the inputs).
-/
def Obligations.SoftResetEntersResetting : Prop :=
  ∀ s : Machine.State, s.port.exchange = .running →
    ∃ t, exec .softReset s = .next t ∧ t.port = { s.port with exchange := .resetting, doneCount := 0 }
      ∧ (∀ e : Fin 128, s.preact[e].keep = false →
          t.preact[e] = { lag := if s.products[preactProduct e].set then s.products[preactProduct e].defaultLag else 0 })
      ∧ (∀ e : Fin 128, s.preact[e].keep = true → t.preact[e] = s.preact[e])
      ∧ (∀ i, (t.field i).aerate = false ∧ (t.field i).aerateTimer = none)
      ∧ (∀ i, t.calibration i = { s.calibration i with
          capture := .none, captureCount := 0, captureSum := 0, zeroTimeout := none
          interval := if s.hasProfile i then some ((s.profile i).zeroInterval * 1000) else (s.calibration i).interval })
      ∧ (∀ i, (t.positioner i).engageWaiting = false ∧ (t.positioner i).requests = [])
      ∧ (∀ i, (s.positioner i).position = .engaged ∨ (s.positioner i).position = .lowering →
          (s.present i .spoutRaised = false → t.isRaising i)
          ∧ (s.present i .spoutRaised = true → (t.positioner i).position = .released ∧ (t.positioner i).drive = .none))
      ∧ (∀ i, (s.positioner i).position ≠ .engaged → (s.positioner i).position ≠ .lowering →
          t.positioner i = { s.positioner i with engageWaiting := false, requests := [] })
      ∧ (∀ i, t.queue i = s.queue i) ∧ t.products = s.products ∧ t.pending = s.pending

/-- R49, R117: a soft reset reaches a context that runs by itself, by its stage. IDLE stays; WAIT_INDEX, ENGAGING, ZEROING,
RELEASING and ZERO_RUN go to IDLE at once; an open stage is cut with cause RESET; in CLOSING the close runs on; in SETTLING
the compartment ends at once. No gate output is touched but by the cut. R98, R108, R117: the last clause: a LOAD met in
WAIT_INDEX, ENGAGING, ZEROING or RELEASING turns its PENDING entries NOT_REACHED (21); that the entry in hand in ZEROING
shows RESET (16), its final as it was, is the model's reading of R98 beside R117 (log entry 38). The second clause: the
entry of a compartment that ends in SETTLING shows RESET (16) and its G, and its slot stays RUNNING. That the result byte
shows RESET (7) while the slot is still RUNNING is the model's choice (R117, R176 against R195; log entry 15). -/
def Obligations.SoftResetReachesEachContext : Prop :=
  (∀ (i : SpoutId) (s : Machine.State), s.port.exchange = .running → s.single i →
     ∃ t, exec .softReset s = .next t
       ∧ (s.stage i = .idle → t.stage i = .idle ∧ t.gate i = s.gate i)
       ∧ (s.stage i = .waitIndex ∨ s.stage i = .engaging ∨ s.stage i = .zeroing ∨ s.stage i = .releasing
           ∨ s.stage i = .zeroRun → t.atRest i ∧ t.gate i = s.gate i)
       ∧ ((s.stage i).isOpen = true → (s.gate i).isOpen = true → s.hasProfile i = true →
           t.stage i = .closing ∧ t.gateIsCut i ∧ (t.compartment i).cause = some ((s.compartment i).cause.getD .reset)
             ∧ (t.order i).mark = .reset ∧ (t.context i).slot = (s.context i).slot)
       ∧ (s.stage i = .closing →
           t.stage i = .closing ∧ t.gate i = s.gate i ∧ (t.compartment i).cause = some ((s.compartment i).cause.getD .reset)
             ∧ (t.order i).mark = .reset ∧ (t.context i).slot = (s.context i).slot)
       ∧ (s.stage i = .settling → t.atRest i ∧ t.gate i = s.gate i ∧ (t.channel i).integrating = false)
       ∧ (t.channel i).delivered = (s.channel i).delivered) ∧
  (∀ (i : SpoutId) (n : SlotId) (s : Machine.State), s.WorkLawful → s.port.exchange = .running → s.single i →
     s.stage i = .settling → (s.context i).slot = some n → (s.compartment i).opened = true →
     (s.compartment i).trimsUsed ≤ 3 → (s.channel i).delivered ≤ 4294967295 →
     ∃ t, exec .softReset s = .next t ∧ t.slotStateByte n = 3 ∧ t.slotU8 n 3 = 7
       ∧ t.entryShows n (s.compartment i).index 16 (((s.compartment i).secondary.map Code.value).getD 0)
           (s.compartment i).trimsUsed (s.channel i).delivered) ∧
  (∀ (i : SpoutId) (n : SlotId) (s : Machine.State), s.WorkLawful → s.port.exchange = .running → s.single i →
     s.stage i = .waitIndex ∨ s.stage i = .engaging ∨ s.stage i = .zeroing ∨ s.stage i = .releasing →
     (s.context i).slot = some n →
     let e := (s.compartment i).index
     ∃ t, exec .softReset s = .next t ∧ t.atRest i ∧ t.slotStateByte n = 3 ∧ t.slotU8 n 3 = 7
       ∧ (s.stage i ≠ .zeroing → s.entriesClosed t n (s.order i).count)
       ∧ (s.stage i = .zeroing → t.slotU32 n (0x40 + 16 * e + 12) = s.slotU32 n (0x40 + 16 * e + 12)
           ∧ ∀ j ∈ List.range (s.order i).count,
             t.entryCode n j = if j = e then 16 else if s.entryCode n j = 0 then 21 else s.entryCode n j)
       ∧ t.progressFollows n (s.order i).count (s.order i).total)

/-- R116: after ALL_STOP in RUNNING every spout queue is empty; where no context holds a slot, nothing else of any spout has
changed, and each order that was queued is DONE WITHDRAWN (4; R118). R170: outside RUNNING neither command written to
CONTROL changes anything. -/
def Obligations.AllStopEmptiesEveryQueue : Prop :=
  (∀ s : Machine.State, s.port.exchange = .running →
     ∃ t, exec .allStop s = .next t ∧ (∀ i, t.queue i = []) ∧ t.port.exchange = .running
       ∧ t.products = s.products ∧ t.pending = s.pending
       ∧ ((∀ i, (s.context i).slot = none) → ∀ i, t.spout i = { s.spout i with queue := [] })) ∧
  (∀ (i : SpoutId) (n : SlotId) (s : Machine.State), s.WorkLawful → s.port.exchange = .running →
     (∀ j, (s.context j).slot = none) → n ∈ s.queue i →
     ∃ t, exec .allStop s = .next t ∧ t.slotStateByte n = 4 ∧ t.slotU8 n 3 = 4) ∧
  (∀ s : Machine.State, s.port.exchange ≠ .running → exec .softReset s = .next s ∧ exec .allStop s = .next s)

/-- R176: the soft reset ends when every context is IDLE, and the port enters RUNNING. Where no slot is POSTED: every QUEUED
and every RUNNING slot is returned DONE RESET (7), each counting once, and no other slot changes its state; the PENDING
entries of a queued LOAD or TWIN become NOT_REACHED (21; R118); a RUNNING ZERO shows two equal zeros (R93, R197; that both
are Z as it stands now is log entry 37); the queues are emptied, every channel takes its reset values (R19), and nothing
else of a spout changes. -/
def Obligations.SoftResetEndReturnsOrders : Prop :=
  (∀ s : Machine.State, s.port.exchange = .resetting → (∀ i, s.stage i = .idle) →
     ∃ t, exec .softResetEnd s = .next t ∧ t.port.exchange = .running) ∧
  (∀ s : Machine.State, s.memory.wf = true → s.port.exchange = .resetting → (∀ i, s.stage i = .idle) →
     s.port.doneCount ≤ 255 → (∀ n, s.slotStateByte n ≠ 1) →
     (∀ n, s.slotStateByte n = 2 → s.slotKind n = 1 ∨ s.slotKind n = 2 → s.loadCount n ≤ 12) →
     ∃ t, exec .softResetEnd s = .next t
       ∧ (∀ i, t.spout i = { s.spout i with queue := [], channel := {} })
       ∧ t.port = { s.port with
           exchange := .running
           doneCount := min (s.port.doneCount
             + ((List.finRange 32).filter fun n => s.slotStateByte n == 2 || s.slotStateByte n == 3).length) 255 }
       ∧ (∀ n, s.slotStateByte n = 2 ∨ s.slotStateByte n = 3 → t.slotStateByte n = 4 ∧ t.slotU8 n 3 = 7)
       ∧ (∀ n, s.slotStateByte n ≠ 2 → s.slotStateByte n ≠ 3 → t.slotStateByte n = s.slotStateByte n)
       ∧ (∀ n, s.slotStateByte n = 2 → s.slotKind n = 1 ∨ s.slotKind n = 2 →
           ∀ e ∈ List.range (s.loadCount n), t.entryCode n e = if s.entryCode n e = 0 then 21 else s.entryCode n e)
       ∧ (∀ n, s.slotStateByte n = 3 → s.slotKind n = 3 → t.slotU16 n 0x10 = t.slotU16 n 0x12)
       ∧ t.memory.u16 0x0008 = 1 ∧ SameTables s t)

/-- R119, R176 step 4: where the soft reset returns no order, what follows it is the backlog pass: every slot then POSTED is
taken, in ascending slot number, each whole before the next. R158: `takePosting react` is what a posting of the slot's kind
does in RUNNING. R158: in RESETTING a posting in a FREE slot is accepted as a write, and the slot stays POSTED. -/
def Obligations.BacklogIsTakenInSlotOrder : Prop :=
  (∀ s : Machine.State, s.port.exchange = .resetting → (∀ i, s.stage i = .idle) →
     (∀ n, s.slotStateByte n ≠ 2 ∧ s.slotStateByte n ≠ 3) →
     exec .softResetEnd s = .next ((List.finRange 32).foldl
       (fun t n => if t.slotStateByte n = 1 then takePosting react n t else t)
       { s with
         port := { s.port with exchange := .running }
         memory := s.memory.writeBytes 0x0008 [1, 0]
         spouts := s.spouts.map fun p => { p with queue := [], channel := {} } })) ∧
  (∀ (n : SlotId) (kind : Byte) (s : Machine.State), s.memory.wf = true → s.takesPosting n →
     exec (.load n) s = .next (takePosting react n (s.posted n 1))
       ∧ exec (.twin n) s = .next (takePosting react n (s.posted n 2))
       ∧ exec (.zero n) s = .next (takePosting react n (s.posted n 3))
       ∧ exec (.reconcile n) s = .next (takePosting react n (s.posted n 4))
       ∧ exec (.profile n) s = .next (takePosting react n (s.posted n 5))
       ∧ exec (.product n) s = .next (takePosting react n (s.posted n 6))
       ∧ exec (.seed n) s = .next (takePosting react n (s.posted n 7))
       ∧ exec (.keep n) s = .next (takePosting react n (s.posted n 8))
       ∧ exec (.clear n) s = .next (takePosting react n (s.posted n 9))
       ∧ exec (.stop n) s = .next (takePosting react n (s.posted n 10))
       ∧ exec (.unknownKindPosting n kind) s = .next (takePosting react n (s.posted n kind.toNat))) ∧
  (∀ (n : SlotId) (kind : Byte) (s : Machine.State), s.port.exchange = .resetting → s.slotStateByte n = 0 →
     exec (.load n) s = .next (s.posted n 1) ∧ exec (.twin n) s = .next (s.posted n 2)
       ∧ exec (.zero n) s = .next (s.posted n 3) ∧ exec (.reconcile n) s = .next (s.posted n 4)
       ∧ exec (.profile n) s = .next (s.posted n 5) ∧ exec (.product n) s = .next (s.posted n 6)
       ∧ exec (.seed n) s = .next (s.posted n 7) ∧ exec (.keep n) s = .next (s.posted n 8)
       ∧ exec (.clear n) s = .next (s.posted n 9) ∧ exec (.stop n) s = .next (s.posted n 10)
       ∧ exec (.unknownKindPosting n kind) s = .next (s.posted n kind.toNat))

/-! ## The exchange port -/

/-- R155: a write to a word other than word 0 of a FREE slot is stored, and so is a write of state FREE and a kind to its
word 0. R155, R156: what is discarded in a slot is counted and changes nothing else: a write to a word other than word 0 of
a slot that is not FREE, a write of a state other than FREE and POSTED to word 0, and a posting of any kind in a slot that
is not FREE. R155: the return of a DONE slot makes it FREE and leaves every other byte of it; a return of a POSTED, QUEUED
or RUNNING slot is discarded. R153, R156: a write to the header, a panel, an image, ATTENTION or an address that is not
decoded is counted in RUNNING and RESETTING, and in STARTING and HALTED it is not. -/
def Obligations.HostWritesFollowOwnership : Prop :=
  (∀ (n : SlotId) (word : Fin 128) (value : Word) (kind : Byte) (s : Machine.State),
     s.port.visible = true → s.slotStateByte n = 0 →
     (word ≠ 0 → exec (.slotWrite n word value) s
       = .next (s.writeMemory (0x1000 + n.val * 256 + 2 * word.val) (u16Bytes value.toNat))) ∧
     exec (.slotWrite n 0 (kind ++ (0 : Byte))) s = .next (s.writeMemory (0x1000 + n.val * 256) [0, kind])) ∧
  (∀ (n : SlotId) (word : Fin 128) (value : Word) (s : Machine.State), s.port.visible = true →
     (word ≠ 0 → s.slotStateByte n ≠ 0 → exec (.slotWrite n word value) s = .next s.counted) ∧
     (2 ≤ value.toNat % 256 → exec (.slotWrite n 0 value) s = .next s.counted) ∧
     (value.toNat % 256 = 1 → s.slotStateByte n ≠ 0 → exec (.slotWrite n 0 value) s = .next s.counted)) ∧
  (∀ (n : SlotId) (kind : Byte) (s : Machine.State), s.port.visible = true → s.slotStateByte n ≠ 0 →
     exec (.load n) s = .next s.counted ∧ exec (.twin n) s = .next s.counted ∧ exec (.zero n) s = .next s.counted
       ∧ exec (.reconcile n) s = .next s.counted ∧ exec (.profile n) s = .next s.counted
       ∧ exec (.product n) s = .next s.counted ∧ exec (.seed n) s = .next s.counted ∧ exec (.keep n) s = .next s.counted
       ∧ exec (.clear n) s = .next s.counted ∧ exec (.stop n) s = .next s.counted
       ∧ exec (.unknownKindPosting n kind) s = .next s.counted) ∧
  (∀ (n : SlotId) (kind : Byte) (s : Machine.State), s.port.visible = true →
     (s.slotStateByte n = 4 → exec (.returnSlot n kind) s = .next (s.writeMemory (0x1000 + n.val * 256) [0])) ∧
     (s.slotStateByte n = 1 ∨ s.slotStateByte n = 2 ∨ s.slotStateByte n = 3 →
       exec (.returnSlot n kind) s = .next s.counted)) ∧
  (∀ (line : BitVec 13) (value : Word) (s : Machine.State),
     discardedByAddress (2 * line.toNat) = true →
     (s.port.visible = true → exec (.discardedWrite line value) s = .next s.counted) ∧
     (s.port.visible = false → exec (.discardedWrite line value) s = .next s))

/-- R168: a host read of ATTENTION returns the count and the flags and clears them; in STARTING it returns 0, in HALTED the
halted flag, and clears nothing. `hostData` is the word the port drives (log entry 4). R169: the ATTENTION line. -/
def Obligations.AttentionReadsAndLine : Prop :=
  (∀ s : Machine.State,
     (s.port.exchange = .running ∨ s.port.exchange = .resetting →
       exec .attentionRead s = .next { s with port := { s.port with
         doneCount := 0, spoutChange := false, startUp := false
         hostData := BitVec.ofNat 16 (s.port.doneCount + (if s.port.spoutChange then 256 else 0)
           + (if s.port.startUp then 512 else 0) + (if s.port.halted then 1024 else 0)) } }) ∧
     (s.port.exchange = .starting →
       exec .attentionRead s = .next { s with port := { s.port with hostData := 0 } }) ∧
     (s.port.exchange = .halted →
       exec .attentionRead s = .next { s with port := { s.port with hostData := if s.port.halted then 1024 else 0 } })) ∧
  (∀ p : Port, attentionLine p = true ↔
     ((p.exchange = .running ∨ p.exchange = .resetting) ∧ (0 < p.doneCount ∨ p.spoutChange = true ∨ p.startUp = true)))

/-! ## Postings -/

/-- R159, R160, R195: what refuses a posting, in the order of the checks: result REFUSED (8), the reason and the field
index, and nothing else. STOP's own refusals stand with STOP. R50, R99: LOAD and TWIN. -/
def Obligations.PostingsAreRefusedInOrder : Prop :=
  (∀ (n : SlotId) (kind : Byte) (s : Machine.State), s.memory.wf = true → s.takesPosting n →
     unknownKind kind.toNat = true →
     exec (.unknownKindPosting n kind) s = .next ((s.posted n kind.toNat).answered n 8 1 1)) ∧
  (∀ (n : SlotId) (s : Machine.State), s.takesPosting n →
     let refused := fun (c : Instr) (kind reason index : Nat) =>
       exec c s = .next ((s.posted n kind).answered n 8 reason index)
     (8 ≤ s.slotSpoutByte n → refused (.load n) 1 2 2 ∧ refused (.twin n) 2 2 2 ∧ refused (.zero n) 3 2 2
       ∧ refused (.reconcile n) 4 2 2 ∧ refused (.profile n) 5 2 2 ∧ refused (.seed n) 7 2 2 ∧ refused (.clear n) 9 2 2)
     ∧ (s.slotSpoutByte n % 2 = 1 → refused (.twin n) 2 2 2)) ∧
  (∀ (n : SlotId) (i : SpoutId) (s : Machine.State), s.takesPosting n → s.slotSpoutByte n = i.val →
     let loads := fun (reason index : Nat) => exec (.load n) s = .next ((s.posted n 1).answered n 8 reason index)
     let twins := fun (reason index : Nat) =>
       i.val % 2 = 0 → exec (.twin n) s = .next ((s.posted n 2).answered n 8 reason index)
     let refused := fun (reason index : Nat) => loads reason index ∧ twins reason index
     let product := s.slotU8 n 0x10
     let count := s.slotU8 n 0x11
     let limit := s.slotU32 n 0x14
     let targetOk := fun e => 1000 ≤ s.slotU32 n (0x40 + 16 * e) ∧ s.slotU32 n (0x40 + 16 * e) ≤ 65000000
     let skipOk := fun e => s.slotU8 n (0x44 + 16 * e) ≤ 1
     (15 < product → refused 3 0x10)
     ∧ (product ≤ 15 → count = 0 ∨ 12 < count → refused 3 0x11)
     ∧ (product ≤ 15 → 1 ≤ count → count ≤ 12 → limit < 1000 ∨ 150000000 < limit → refused 3 0x14)
     ∧ (product ≤ 15 → count ≤ 12 → 1000 ≤ limit → limit ≤ 150000000 → ∀ e ∈ List.range count,
         (∀ e' ∈ List.range e, targetOk e' ∧ skipOk e') →
         (¬ targetOk e → refused 3 (0x40 + 16 * e)) ∧ (targetOk e → ¬ skipOk e → refused 3 (0x44 + 16 * e)))
     ∧ ((∀ c ∈ s.loadChecks n, c.2 = true) →
         (s.hasProfile i = false → refused 4 2)
         ∧ (s.hasProfile i = true → s.hasProfile (followerOf i) = false → twins 4 2)
         ∧ (s.hasProfile i = true → s.products[s.loadProduct n].set = false →
             loads 5 0x10 ∧ (s.hasProfile (followerOf i) = true → twins 5 0x10))
         ∧ (s.hasProfile i = true → s.products[s.loadProduct n].set = true →
             (s.isFaulted i = true → loads 6 2) ∧ (s.isFaulted i = false → 4 ≤ (s.queue i).length → loads 8 0xFF))
         ∧ (s.hasProfile i = true → s.hasProfile (followerOf i) = true → s.products[s.loadProduct n].set = true →
             (s.isFaulted i = true → twins 6 2)
             ∧ (s.isFaulted i = false → s.isFaulted (followerOf i) = true → twins 7 2)
             ∧ (s.isFaulted i = false → s.isFaulted (followerOf i) = false → 4 ≤ (s.queue i).length → twins 8 0xFF)))) ∧
  (∀ (n : SlotId) (i : SpoutId) (s : Machine.State), s.takesPosting n → s.slotSpoutByte n = i.val →
     let refused := fun (c : Instr) (kind reason index : Nat) =>
       exec c s = .next ((s.posted n kind).answered n 8 reason index)
     let zeroes := fun reason index => refused (.zero n) 3 reason index
     let reconciles := fun reason index => refused (.reconcile n) 4 reason index
     let profiles := fun reason index => refused (.profile n) 5 reason index
     let seeds := fun reason index => refused (.seed n) 7 reason index
     (s.hasProfile i = false → zeroes 4 2)
     ∧ (s.hasProfile i = true → s.isFaulted i = true → zeroes 6 2)
     ∧ (s.hasProfile i = true → s.isFaulted i = false → 4 ≤ (s.queue i).length → zeroes 8 0xFF)
     ∧ (s.slotU32 n 0x10 = 0 → reconciles 3 0x10)
     ∧ (1 ≤ s.slotU32 n 0x10 → s.hasProfile i = false → reconciles 4 2)
     ∧ (1 ≤ s.slotU32 n 0x10 → s.hasProfile i = true → s.isFaulted i = true → reconciles 6 2)
     ∧ (1 ≤ s.slotU32 n 0x10 → s.hasProfile i = true → s.isFaulted i = false → 4 ≤ (s.queue i).length → reconciles 8 0xFF)
     ∧ (∀ index ∈ List.range 256,
         firstBad (profileChecks 0x10 (s.memory.profileAt (Config.slotBase n + 0x10))) = some index → profiles 3 index)
     ∧ ((∀ c ∈ profileChecks 0x10 (s.memory.profileAt (Config.slotBase n + 0x10)), c.2 = true) →
         (s.isFaulted i = true → profiles 6 2)
         ∧ (s.isFaulted i = false → 4 ≤ (s.queue i).length → profiles 8 0xFF))
     ∧ (15 < s.slotU8 n 0x10 → seeds 3 0x10)
     ∧ (s.slotU8 n 0x10 ≤ 15 → 5000 < s.slotU16 n 0x12 → seeds 3 0x12)
     ∧ (s.slotU8 n 0x10 ≤ 15 → s.slotU16 n 0x12 ≤ 5000 →
         (s.isFaulted i = true → seeds 6 2) ∧ (s.isFaulted i = false → 4 ≤ (s.queue i).length → seeds 8 0xFF))) ∧
  (∀ (n : SlotId) (s : Machine.State), s.takesPosting n →
     let products := fun reason index => exec (.product n) s = .next ((s.posted n 6).answered n 8 reason index)
     let keeps := fun index => exec (.keep n) s = .next ((s.posted n 8).answered n 8 3 index)
     let checks := (0x10, decide (s.slotU8 n 0x10 ≤ 15))
       :: productChecks 0x20 (s.memory.productAt (Config.slotBase n + 0x20))
     let spoutOk := s.slotU8 n 0x10 ≤ 7 ∨ s.slotU8 n 0x10 = 0xFF
     let productOk := s.slotU8 n 0x11 ≤ 15 ∨ s.slotU8 n 0x11 = 0xFF
     (∀ index ∈ List.range 256, firstBad checks = some index → products 3 index)
     ∧ ((∀ c ∈ checks, c.2 = true) → s.productInUse (s.slotU8 n 0x10) = true → products 9 0x10)
     ∧ (¬ spoutOk → keeps 0x10) ∧ (spoutOk → ¬ productOk → keeps 0x11)
     ∧ (spoutOk → productOk → 1 < s.slotU8 n 0x12 → keeps 0x12))

/-- R162: an accepted ZERO, RECONCILE, PROFILE or SEED for a spout at work joins the tail of the spout's queue, and its slot
becomes QUEUED. R99, R108: so does a LOAD, with every entry PENDING and the progress fields in their starting form; nothing
outside its slot changes in memory. R50: a TWIN whose leader is at work joins the leader's queue, and the follower is not
touched. -/
def Obligations.OrdersJoinTheQueueOfASpoutAtWork : Prop :=
  (∀ (n : SlotId) (i : SpoutId) (s : Machine.State), s.memory.wf = true → s.takesPosting n → s.slotSpoutByte n = i.val →
     s.isFaulted i = false → (s.queue i).length < 4 → s.stage i ≠ .idle →
     (s.hasProfile i = true → exec (.zero n) s = .next ((s.posted n 3).joined n i)) ∧
     (s.hasProfile i = true → 1 ≤ s.slotU32 n 0x10 → exec (.reconcile n) s = .next ((s.posted n 4).joined n i)) ∧
     ((∀ c ∈ profileChecks 0x10 (s.memory.profileAt (Config.slotBase n + 0x10)), c.2 = true) →
       exec (.profile n) s = .next ((s.posted n 5).joined n i)) ∧
     (s.slotU8 n 0x10 ≤ 15 → s.slotU16 n 0x12 ≤ 5000 → exec (.seed n) s = .next ((s.posted n 7).joined n i))) ∧
  (∀ (n : SlotId) (i : SpoutId) (s : Machine.State), s.memory.wf = true → s.takesPosting n → s.slotSpoutByte n = i.val →
     (∀ c ∈ s.loadChecks n, c.2 = true) → s.hasProfile i = true → s.products[s.loadProduct n].set = true →
     s.isFaulted i = false → (s.queue i).length < 4 → s.stage i ≠ .idle →
     ∃ t, exec (.load n) s = .next t ∧ t.slotStateByte n = 2 ∧ t.slotKind n = 1
       ∧ t.queue i = s.queue i ++ [n]
       ∧ (∀ e, e < s.loadCount n → t.entryCode n e = 0 ∧ t.slotU32 n (0x40 + 16 * e + 12) = 0)
       ∧ t.progressShows n (s.loadCount n) 0 0xFF 0
       ∧ t.spout i = { s.spout i with queue := s.queue i ++ [n] }
       ∧ SameOtherSpouts i s t ∧ t.port = s.port ∧ SameTables s t ∧ SameMemoryOutside (0x1000 + n.val * 256) 256 s t) ∧
  (∀ (n : SlotId) (i : SpoutId) (s : Machine.State), s.memory.wf = true → s.takesPosting n → s.slotSpoutByte n = i.val →
     i.val % 2 = 0 → (∀ c ∈ s.loadChecks n, c.2 = true) → s.hasProfile i = true → s.hasProfile (followerOf i) = true →
     s.products[s.loadProduct n].set = true → s.isFaulted i = false → s.isFaulted (followerOf i) = false →
     (s.queue i).length < 4 → s.stage i ≠ .idle →
     ∃ t, exec (.twin n) s = .next t ∧ t.slotStateByte n = 2 ∧ t.slotKind n = 2
       ∧ (∀ e, e < s.loadCount n → t.entryCode n e = 0 ∧ t.slotU32 n (0x40 + 16 * e + 12) = 0)
       ∧ t.progressShows n (s.loadCount n) 0 0xFF 0
       ∧ t.spout i = { s.spout i with queue := s.queue i ++ [n] }
       ∧ SameOtherSpouts i s t ∧ t.port = s.port ∧ SameTables s t ∧ SameMemoryOutside (0x1000 + n.val * 256) 256 s t)

/-- R101, R102, R103, R106: an accepted LOAD whose spout is at rest becomes RUNNING in the handling of its posting. The
entries before the first that is not skip-marked become SKIPPED_MARK (19); that one is handed over with its effective
target, and the progress fields follow (R108). While INDEX_READY is absent the context waits in WAIT_INDEX under the index
timer; where it is present already, the index condition holds on entering WAIT_INDEX (R105), and the spout is engaged. A
LOAD whose every entry is skip-marked ends at once, OK (1). -/
def Obligations.LoadRunsOnASpoutAtRest : Prop :=
  (∀ (n : SlotId) (i : SpoutId) (k : Nat) (s : Machine.State), s.memory.wf = true → s.takesPosting n →
     s.slotSpoutByte n = i.val → (∀ c ∈ s.loadChecks n, c.2 = true) → s.hasProfile i = true →
     s.products[s.loadProduct n].set = true → s.isFaulted i = false → s.rests i → k < s.loadCount n →
     (∀ e ∈ List.range k, s.slotU8 n (0x44 + 16 * e) = 1) → s.slotU8 n (0x44 + 16 * k) = 0 →
     (s.present i .indexReady = true → (s.positioner i).position ≠ .engaged
       ∧ ((s.positioner i).position = .released → s.present i .spoutRaised = true)) →
     ∃ t, exec (.load n) s = .next t ∧ t.slotStateByte n = 3 ∧ (t.context i).slot = some n ∧ t.queue i = []
       ∧ t.compartment i = { index := k, effectiveTarget := min (s.slotU32 n (0x40 + 16 * k)) (s.loadLimit n) }
       ∧ (∀ e ∈ List.range (s.loadCount n), t.entryCode n e = if e < k then 19 else 0)
       ∧ t.progressShows n (s.loadCount n - k) k 0xFF 0
       ∧ (t.order i).mark = .none ∧ (t.order i).total = 0 ∧ (t.order i).watch = .first
       ∧ (t.order i).fineBand = s.products[s.loadProduct n].fineBand
       ∧ (s.present i .indexReady = false →
           t.stage i = .waitIndex ∧ (t.order i).indexTimer = some ((s.profile i).indexTimeout * 1000)
             ∧ t.calibration i = s.calibration i ∧ t.positioner i = s.positioner i)
       ∧ (s.present i .indexReady = true →
           t.stage i = .engaging ∧ (t.order i).indexTimer = none ∧ (t.calibration i).capture = .none
             ∧ ((s.positioner i).position = .released → t.isLowering i)
             ∧ ((s.positioner i).position = .raising → t.positioner i = { s.positioner i with engageWaiting := true }))
       ∧ t.gate i = s.gate i ∧ t.channel i = s.channel i ∧ SameOtherSpouts i s t ∧ t.port = s.port ∧ SameTables s t) ∧
  (∀ (n : SlotId) (i : SpoutId) (s : Machine.State), s.memory.wf = true → s.takesPosting n → s.slotSpoutByte n = i.val →
     (∀ c ∈ s.loadChecks n, c.2 = true) → s.hasProfile i = true → s.products[s.loadProduct n].set = true →
     s.isFaulted i = false → s.rests i → (∀ e ∈ List.range (s.loadCount n), s.slotU8 n (0x44 + 16 * e) = 1) →
     ∃ t, exec (.load n) s = .next t ∧ t.atRest i ∧ t.slotStateByte n = 4 ∧ t.slotU8 n 3 = 1
       ∧ (∀ e ∈ List.range (s.loadCount n), t.entryCode n e = 19)
       ∧ t.progressShows n 0 (s.loadCount n) 0xFF 0 ∧ t.queue i = [] ∧ SameBesidesContext i s t
       ∧ t.gate i = s.gate i ∧ SameOtherSpouts i s t ∧ SameTables s t)

/-- R51, R52, R54, R106: an accepted TWIN whose two spouts are at rest becomes RUNNING; its claim is granted at once, and
the follower is BOUND in phase WAITING while the leader waits for its index. R51, R52: where the follower is at work the
claim waits: the leader stands in WAIT_INDEX without an index timer, and nothing of the follower changes but the claim on
it. R52, R54, R55, R105: when the follower's own order ends, the claim wins over what heads its queue: the follower is BOUND
with its queue as it was, and the leader's index wait begins, or the engaging, where the index condition holds already. -/
def Obligations.TwinBindsAFollowerAtRest : Prop :=
  (∀ (n : SlotId) (i : SpoutId) (s : Machine.State), s.memory.wf = true → s.takesPosting n → s.slotSpoutByte n = i.val →
     i.val % 2 = 0 → (∀ c ∈ s.loadChecks n, c.2 = true) → s.hasProfile i = true → s.hasProfile (followerOf i) = true →
     s.products[s.loadProduct n].set = true → s.isFaulted i = false → s.isFaulted (followerOf i) = false →
     s.rests i → s.stage (followerOf i) = .idle → (s.context (followerOf i)).claim = none →
     s.slotU8 n 0x44 = 0 → s.present i .indexReady = false →
     ∃ t, exec (.twin n) s = .next t ∧ t.slotStateByte n = 3 ∧ t.stage i = .waitIndex ∧ (t.context i).slot = some n
       ∧ (t.compartment i).effectiveTarget = min (s.slotU32 n 0x40) (s.loadLimit n)
       ∧ (t.order i).indexTimer = some ((s.profile i).indexTimeout * 1000)
       ∧ t.stage (followerOf i) = .bound ∧ (t.context (followerOf i)).phase = .waiting
       ∧ (t.context (followerOf i)).slot = some n ∧ t.queue (followerOf i) = s.queue (followerOf i)
       ∧ (∀ j, j ≠ i → j ≠ followerOf i → t.spout j = s.spout j) ∧ t.port = s.port ∧ SameTables s t) ∧
  (∀ (n : SlotId) (i : SpoutId) (s : Machine.State), s.memory.wf = true → s.takesPosting n → s.slotSpoutByte n = i.val →
     i.val % 2 = 0 → (∀ c ∈ s.loadChecks n, c.2 = true) → s.hasProfile i = true → s.hasProfile (followerOf i) = true →
     s.products[s.loadProduct n].set = true → s.isFaulted i = false → s.isFaulted (followerOf i) = false → s.rests i →
     s.stage (followerOf i) ≠ .idle → s.isBound (followerOf i) = false → s.slotU8 n 0x44 = 0 →
     let f := followerOf i
     ∃ t, exec (.twin n) s = .next t ∧ t.slotStateByte n = 3 ∧ t.stage i = .waitIndex ∧ (t.context i).slot = some n
       ∧ t.claimPending i = true ∧ (t.order i).indexTimer = none
       ∧ t.compartment i = { index := 0, effectiveTarget := min (s.slotU32 n 0x40) (s.loadLimit n) }
       ∧ t.spout f = { s.spout f with context := { s.context f with claim := some { leader := i, slot := n } } }
       ∧ t.gate i = s.gate i ∧ t.channel i = s.channel i ∧ t.calibration i = s.calibration i
       ∧ t.positioner i = s.positioner i ∧ (∀ j, j ≠ i → j ≠ f → t.spout j = s.spout j) ∧ t.port = s.port
       ∧ SameTables s t) ∧
  (∀ (c : Instr) (o : SpoutId) (n m : SlotId) (s : Machine.State), s.memory.wf = true → o.val % 2 = 0 →
     s.endsOrder c (followerOf o) m → (s.context (followerOf o)).claim = some { leader := o, slot := n } →
     s.isTwin o = true → s.isBound o = false → s.stage o = .waitIndex → s.hasProfile o = true →
     let f := followerOf o
     let holds := indexCondition (s.order o).watch (s.present o .indexReady)
     (holds = true → (s.positioner o).position = .released ∧ s.present o .spoutRaised = true ∧ s.isFaulted f = false
       ∧ (s.compartment o).engagedReported = false) →
     ∃ t, exec c s = .next t ∧ t.slotStateByte m = 4 ∧ t.stage f = .bound ∧ (t.context f).slot = some n
       ∧ (t.context f).claim = some { leader := o, slot := n } ∧ t.queue f = s.queue f
       ∧ (t.context f).compartment.index = (s.compartment o).index
       ∧ (holds = false →
           t.stage o = .waitIndex ∧ (t.context f).phase = .waiting
             ∧ t.order o = { s.order o with indexTimer := some ((s.profile o).indexTimeout * 1000) })
       ∧ (holds = true →
           t.stage o = .engaging ∧ (t.context f).phase = .engaging ∧ t.isLowering o ∧ (t.order o).indexTimer = none
             ∧ (t.calibration o).capture = .none ∧ (t.calibration f).capture = .none)
       ∧ t.gate o = s.gate o ∧ (∀ j, j ≠ o → j ≠ f → t.spout j = s.spout j))

/-- R92: a ZERO at rest runs its long capture under the zero timeout where GATE_CLOSED is present, and is refused BUSY with
no field index where it is absent. -/
def Obligations.ZeroRunsOrIsBusy : Prop :=
  ∀ (n : SlotId) (i : SpoutId) (s : Machine.State), s.memory.wf = true → s.takesPosting n → s.slotSpoutByte n = i.val →
    s.hasProfile i = true → s.isFaulted i = false → s.rests i →
    (s.present i .gateClosed = true →
      ∃ t, exec (.zero n) s = .next t ∧ t.slotStateByte n = 3 ∧ t.stage i = .zeroRun ∧ (t.context i).slot = some n
        ∧ (t.calibration i).capture = .longOrder ∧ (t.calibration i).captureCount = 0
        ∧ (t.calibration i).zeroTimeout = some (s.profile i).zeroTimeout
        ∧ (t.calibration i).zero = (s.calibration i).zero ∧ (t.calibration i).debt = (s.calibration i).debt
        ∧ t.queue i = [] ∧ t.channel i = s.channel i ∧ t.gate i = s.gate i ∧ t.positioner i = s.positioner i
        ∧ SameOtherSpouts i s t ∧ t.port = s.port ∧ SameTables s t) ∧
    (s.present i .gateClosed = false →
      ∃ t, exec (.zero n) s = .next t ∧ t.slotStateByte n = 4 ∧ t.slotU8 n 3 = 8 ∧ t.slotU8 n 4 = 9 ∧ t.slotU8 n 5 = 0xFF
        ∧ SameSpouts s t ∧ SameTables s t)

/-- R94, R95: a RECONCILE at rest forms q from M and B, corrects the span inside its band, and reports the result, q and the
span in force. -/
def Obligations.ReconcileCorrectsTheSpan : Prop :=
  ∀ (n : SlotId) (i : SpoutId) (s : Machine.State), s.memory.wf = true → s.takesPosting n → s.slotSpoutByte n = i.val →
    s.hasProfile i = true → s.isFaulted i = false → s.rests i → 1 ≤ s.slotU32 n 0x10 → (s.calibration i).Lawful →
    1 ≤ (s.profile i).spanRef →
    let c := s.calibration i
    let q := (s.slotU32 n 0x14 * 1000000 + s.slotU32 n 0x10 / 2) / s.slotU32 n 0x10
    let scaled := (c.span * max 995000 (min q 1005000) + 500000) / 1000000
    let held := max ((9 * c.profile.spanRef + 9) / 10) (min scaled (min (11 * c.profile.spanRef / 10) 65535))
    ∃ t, exec (.reconcile n) s = .next t ∧ t.slotStateByte n = 4
      ∧ (q < 950000 ∨ 1050000 < q → t.slotU8 n 3 = 10 ∧ t.calibration i = c)
      ∧ (950000 ≤ q → q ≤ 1050000 →
          t.calibration i = { c with span := held } ∧ t.slotU8 n 3 = if held = scaled then 1 else 11)
      ∧ t.slotU32 n 0x18 = min q 4294967295 ∧ t.slotU16 n 0x1C = (t.calibration i).span
      ∧ t.channel i = s.channel i ∧ t.context i = s.context i ∧ t.queue i = [] ∧ SameOtherSpouts i s t ∧ SameTables s t

/-- R9, R96, R181, R188: a PROFILE at rest is applied, a short capture that runs is abandoned (R86, R96), and the spout's
image is written under its stamp. R75, R74, R185: a SEED at rest writes the lag of its entry, makes it SEEDED and writes its
image; the keep mark, the learn count and the last overshoot stay. -/
def Obligations.ProfileAndSeedAreApplied : Prop :=
  (∀ (n : SlotId) (i : SpoutId) (s : Machine.State), s.memory.wf = true → s.takesPosting n → s.slotSpoutByte n = i.val →
     s.isFaulted i = false → s.rests i →
     let p := s.memory.profileAt (Config.slotBase n + 0x10)
     (∀ c ∈ profileChecks 0x10 p, c.2 = true) →
     ∃ t, exec (.profile n) s = .next t ∧ t.slotStateByte n = 4 ∧ t.slotU8 n 3 = 1
       ∧ (t.calibration i).profile = p ∧ (t.calibration i).profileValid = true ∧ (t.calibration i).zero = p.zeroRef
       ∧ (t.calibration i).span = p.spanRef ∧ (t.calibration i).debt = 8 ∧ (t.calibration i).zeroLimit = false
       ∧ (t.calibration i).interval = some (p.zeroInterval * 1000)
       ∧ ((s.calibration i).capture = .shortInterval ∨ (s.calibration i).capture = .shortSettle →
           (t.calibration i).capture = .none ∧ (t.calibration i).captureCount = 0 ∧ (t.calibration i).captureSum = 0
             ∧ (t.calibration i).zeroTimeout = none)
       ∧ t.channel i = { s.channel i with window := [], windowSum := 0, fillCount := 0, rate := 0, surgeRun := 0 }
       ∧ t.holds (0x0302 + 96 * i.val) (profileFields true p)
       ∧ t.memory.u16 (0x0300 + 96 * i.val) = (s.memory.u16 (0x0300 + 96 * i.val) + 2) % 65536
       ∧ t.context i = s.context i ∧ t.positioner i = s.positioner i ∧ t.receiver i = s.receiver i
       ∧ t.field i = s.field i ∧ t.queue i = [] ∧ SameOtherSpouts i s t ∧ SameTables s t) ∧
  (∀ (n : SlotId) (i : SpoutId) (p : ProductId) (s : Machine.State), s.memory.wf = true → s.takesPosting n →
     s.slotSpoutByte n = i.val → s.slotU8 n 0x10 = p.val → s.slotU16 n 0x12 ≤ 5000 → s.isFaulted i = false → s.rests i →
     let e := preactIndex i p
     ∃ t, exec (.seed n) s = .next t ∧ t.slotStateByte n = 4 ∧ t.slotU8 n 3 = 1
       ∧ t.preact[e] = { s.preact[e] with lag := s.slotU16 n 0x12, origin := .seeded }
       ∧ t.holds (0x0802 + 16 * e.val) (preactFields t.preact[e])
       ∧ t.memory.u16 (0x0800 + 16 * e.val) = (s.memory.u16 (0x0800 + 16 * e.val) + 2) % 65536
       ∧ (∀ e' : Fin 128, e' ≠ e → t.preact[e'] = s.preact[e'])
       ∧ SameSpouts s t ∧ t.products = s.products ∧ t.pending = s.pending)

/-- R112, R159, R160: a STOP whose target byte lies outside 0..31, or that names its own slot, is refused BAD_TARGET_SLOT.
One whose target is FREE, POSTED or DONE is TOO_LATE (16). R112, R118: a STOP of a QUEUED order removes it from every queue;
it ends WITHDRAWN (4) and the STOP WITHDRAWN_QUEUED (14); the PENDING entries of a LOAD or TWIN become NOT_REACHED (21),
with the progress fields of R118. R93: a STOP of a RUNNING ZERO ends it STOPPED (3) with Z unchanged and its context at
rest; here with an empty queue and no claim (a queue that waits is served as ReleasedSpoutGoesOn says). -/
def Obligations.StopActsByItsTarget : Prop :=
  (∀ (n m : SlotId) (s : Machine.State), s.takesPosting n → s.slotU8 n 0x10 = m.val →
     (m ≠ n → s.slotStateByte m ≠ 2 → s.slotStateByte m ≠ 3 →
       exec (.stop n) s = .next ((s.posted n 10).answered n 16 0 0xFF)) ∧
     (m = n → exec (.stop n) s = .next ((s.posted n 10).answered n 8 10 0x10))) ∧
  (∀ (n : SlotId) (s : Machine.State), s.takesPosting n → 32 ≤ s.slotU8 n 0x10 →
     exec (.stop n) s = .next ((s.posted n 10).answered n 8 10 0x10)) ∧
  (∀ (n m : SlotId) (s : Machine.State), s.memory.wf = true → s.takesPosting n → s.slotU8 n 0x10 = m.val → m ≠ n →
     s.slotStateByte m = 2 → (s.slotKind m = 1 ∨ s.slotKind m = 2 → s.loadCount m ≤ 12) →
     ∃ t, exec (.stop n) s = .next t ∧ t.slotStateByte m = 4 ∧ t.slotU8 m 3 = 4
       ∧ t.slotStateByte n = 4 ∧ t.slotU8 n 3 = 14
       ∧ (∀ i, t.spout i = { s.spout i with queue := (s.queue i).filter (· ≠ m) })
       ∧ (s.slotKind m = 1 ∨ s.slotKind m = 2 → (∀ e ∈ List.range (s.loadCount m), s.entryCode m e = 0) →
           (∀ e ∈ List.range (s.loadCount m), t.entryCode m e = 21) ∧ t.progressShows m (s.loadCount m) 0 0xFF 0)
       ∧ SameTables s t ∧ t.port.doneCount = min (s.port.doneCount + 2) 255) ∧
  (∀ (n m : SlotId) (i : SpoutId) (s : Machine.State), s.memory.wf = true → s.takesPosting n → s.slotU8 n 0x10 = m.val →
     m ≠ n → s.slotStateByte m = 3 → (∀ j, s.runs j m = true ↔ j = i) → s.stage i = .zeroRun → s.queue i = [] →
     (s.context i).claim = none →
     ∃ t, exec (.stop n) s = .next t ∧ t.atRest i ∧ t.slotStateByte m = 4 ∧ t.slotU8 m 3 = 3
       ∧ t.slotU16 m 0x10 = t.slotU16 m 0x12 ∧ t.slotStateByte n = 4 ∧ t.slotU8 n 3 = 15
       ∧ (t.calibration i).capture = .none ∧ (t.calibration i).zeroTimeout = none
       ∧ (t.calibration i).zero = (s.calibration i).zero ∧ (t.calibration i).debt = (s.calibration i).debt
       ∧ t.gate i = s.gate i ∧ t.channel i = s.channel i ∧ SameOtherSpouts i s t ∧ SameTables s t)

/-- R113, R115, R116: a STOP, or an ALL_STOP, of the order that a context runs by itself, by the stage it finds. The end
mark becomes STOPPED, and a STOP is answered STOPPED_RUNNING (15). In WAIT_INDEX the order ends at once, STOPPED (3), its
PENDING entries NOT_REACHED; in ENGAGING and ZEROING the capture is abandoned and the spout is released (R105 for the
watch); an open stage is cut with cause PARTIAL_STOP; in CLOSING and SETTLING stop pending is set; in RELEASING nothing else
happens. R114: a second STOP or ALL_STOP changes no spout. -/
def Obligations.StopActsByTheStage : Prop :=
  (∀ (c : Instr) (i : SpoutId) (m : SlotId) (s : Machine.State), s.memory.wf = true → s.stopsOrder c i m → s.single i →
     (s.order i).mark = .none ∨ (s.order i).mark = .ended → (s.order i).stopTaken = false → s.hasProfile i = true →
     s.stage i ≠ .zeroRun → (s.order i).count ≤ 12 →
     (s.stage i = .waitIndex → s.queue i = [] ∧ (s.context i).claim = none) →
     (s.stage i = .engaging ∨ s.stage i = .zeroing → s.willRaise i) →
     ∃ t, exec c s = .next t
       ∧ (∀ n : SlotId, c = .stop n → t.slotStateByte n = 4 ∧ t.slotU8 n 3 = 15)
       ∧ (s.stage i = .waitIndex →
           t.atRest i ∧ t.slotStateByte m = 4 ∧ t.slotU8 m 3 = 3
             ∧ ∀ e ∈ List.range (s.order i).count, t.entryCode m e = if s.entryCode m e = 0 then 21 else s.entryCode m e)
       ∧ (s.stage i ≠ .waitIndex →
           (t.order i).mark = .stopped ∧ (t.context i).slot = some m ∧ t.slotStateByte m = 3 ∧ t.queue i = s.queue i)
       ∧ (s.stage i = .engaging ∨ s.stage i = .zeroing →
           t.stage i = .releasing ∧ t.isRaising i ∧ (t.calibration i).capture = .none ∧ t.gate i = s.gate i
             ∧ (t.order i).watch = (if s.present i .indexReady then .awaitDrop else .awaitRise))
       ∧ ((s.stage i).isOpen = true → (s.gate i).isOpen = true →
           t.stage i = .closing ∧ t.gateIsCut i
             ∧ (t.compartment i).cause = some ((s.compartment i).cause.getD .partialStop)
             ∧ (t.compartment i).stopPending = (s.compartment i).stopPending ∧ t.positioner i = s.positioner i)
       ∧ (s.stage i = .closing ∨ s.stage i = .settling →
           t.stage i = s.stage i ∧ t.compartment i = { s.compartment i with stopPending := true } ∧ t.gate i = s.gate i
             ∧ t.positioner i = s.positioner i)
       ∧ (s.stage i = .releasing →
           t.stage i = .releasing ∧ t.compartment i = s.compartment i ∧ t.gate i = s.gate i
             ∧ t.positioner i = s.positioner i)
       ∧ t.channel i = s.channel i ∧ SameOtherSpouts i s t ∧ SameTables s t) ∧
  (∀ (c : Instr) (i : SpoutId) (m : SlotId) (s : Machine.State), s.stopsOrder c i m → (s.order i).stopTaken = true →
     s.stage i ≠ .zeroRun → ∃ t, exec c s = .next t ∧ SameSpouts s t ∧ SameTables s t)

/-- R77, R184: a PRODUCT that passes its checks replaces the product whole, and its L0 reaches its DEFAULT entries alone.
R189, R190: the product's image shows it, under a stamp raised twice. R74: an entry that has changed shows in its image.
R76: a KEEP sets or clears the keep mark of every entry it selects and rewrites those images; it touches nothing else of the
table. -/
def Obligations.ProductAndKeepAreApplied : Prop :=
  (∀ (n : SlotId) (p : ProductId) (s : Machine.State), s.memory.wf = true → s.takesPosting n → s.slotU8 n 0x10 = p.val →
     let v := s.memory.productAt (Config.slotBase n + 0x20)
     (∀ c ∈ productChecks 0x20 v, c.2 = true) → s.productInUse p.val = false →
     ∃ t, exec (.product n) s = .next t ∧ t.slotStateByte n = 4 ∧ t.slotU8 n 3 = 1
       ∧ t.products[p] = v ∧ (∀ q : ProductId, q ≠ p → t.products[q] = s.products[q])
       ∧ (∀ e : Fin 128, t.preact[e] = if e.val % 16 = p.val ∧ s.preact[e].origin = .fromDefault
           then { s.preact[e] with lag := v.defaultLag } else s.preact[e])
       ∧ t.holds (0x0602 + 32 * p.val) (productFields v)
       ∧ t.memory.u16 (0x0600 + 32 * p.val) = (s.memory.u16 (0x0600 + 32 * p.val) + 2) % 65536
       ∧ (∀ e : Fin 128, t.preact[e] ≠ s.preact[e] → t.holds (0x0802 + 16 * e.val) (preactFields t.preact[e])
           ∧ t.memory.u16 (0x0800 + 16 * e.val) = (s.memory.u16 (0x0800 + 16 * e.val) + 2) % 65536)
       ∧ SameSpouts s t ∧ t.pending = s.pending) ∧
  (∀ (n : SlotId) (s : Machine.State), s.memory.wf = true → s.takesPosting n →
     let spout := s.slotU8 n 0x10
     let product := s.slotU8 n 0x11
     let action := s.slotU8 n 0x12
     let selects := fun e : Fin 128 => (spout = 0xFF ∨ spout = e.val / 16) ∧ (product = 0xFF ∨ product = e.val % 16)
     spout ≤ 7 ∨ spout = 0xFF → product ≤ 15 ∨ product = 0xFF → action ≤ 1 →
     ∃ t, exec (.keep n) s = .next t ∧ t.slotStateByte n = 4 ∧ t.slotU8 n 3 = 1
       ∧ (∀ e : Fin 128, selects e → t.preact[e] = { s.preact[e] with keep := action == 1 }
           ∧ t.holds (0x0802 + 16 * e.val) (preactFields t.preact[e])
           ∧ t.memory.u16 (0x0800 + 16 * e.val) = (s.memory.u16 (0x0800 + 16 * e.val) + 2) % 65536)
       ∧ (∀ e : Fin 128, ¬ selects e → t.preact[e] = s.preact[e])
       ∧ SameSpouts s t ∧ t.products = s.products ∧ t.pending = s.pending)

/-- R136, R187: CLEAR of a spout that is not FAULTED, and of a FAULTED spout whose context is not at rest, whose link has
not recovered, or whose failed gate is not shut. Neither changes anything but the answer. R97, R136, R137: an accepted
CLEAR, whatever the cause. -/
def Obligations.ClearIsAnswered : Prop :=
  (∀ (n : SlotId) (i : SpoutId) (s : Machine.State), s.takesPosting n → s.slotSpoutByte n = i.val →
     (s.isFaulted i = false → exec (.clear n) s = .next ((s.posted n 9).answered n 12 0 0xFF)) ∧
     (s.isFaulted i = true →
       (s.stage i ≠ .idle ∨ (((s.receiver i).link = .lost ∨ (s.receiver i).link = .absent) ∧ (s.receiver i).goodRun < 100)
         ∨ ((s.gate i).failed = true ∧ s.present i .gateClosed = false)) →
       exec (.clear n) s = .next ((s.posted n 9).answered n 13 0 0xFF))) ∧
  (∀ (n : SlotId) (i : SpoutId) (s : Machine.State), s.memory.wf = true → s.takesPosting n → s.slotSpoutByte n = i.val →
     s.isFaulted i = true → s.stage i = .idle →
     ((s.receiver i).link = .lost ∨ (s.receiver i).link = .absent → 100 ≤ (s.receiver i).goodRun) →
     ((s.gate i).failed = true → s.present i .gateClosed = true) →
     let cause := (s.positioner i).cause
     ∃ t, exec (.clear n) s = .next t ∧ t.slotStateByte n = 4 ∧ t.slotU8 n 3 = 1
       ∧ (t.positioner i).cause = .none ∧ t.port.spoutChange = true
       ∧ (s.inputsTaken i = false → (t.positioner i).position = .notStarted)
       ∧ (s.inputsTaken i = true → s.present i .spoutRaised = true → (t.positioner i).position = .released)
       ∧ (s.inputsTaken i = true → s.present i .spoutRaised = false →
           (t.positioner i).position = .raising ∧ (t.positioner i).drive = .raise)
       ∧ (cause = .sensorLost ∨ cause = .sensorAbsent → (t.receiver i).link = .present ∧ (t.calibration i).debt = 8)
       ∧ (cause = .travelFault ∨ cause = .gateFault → t.receiver i = s.receiver i ∧ t.calibration i = s.calibration i)
       ∧ ((s.gate i).failed = true → (t.gate i).output = .none ∧ (t.gate i).failed = false)
       ∧ ((s.gate i).failed = false → t.gate i = s.gate i)
       ∧ t.channel i = s.channel i ∧ t.queue i = s.queue i ∧ SameOtherSpouts i s t ∧ SameTables s t)

/-! ## The sensor lines -/

/-- R141: a character in HUNTING: the sync begins a frame; any other is discarded, and counts one link error for its hunt. A
character inside a frame, before its sixth, is kept. A framing error or a gap of more than 500 µs inside a frame rejects it
with one link error. A character with a framing error met in HUNTING is discarded like any other, and there is no gap to
pass there. R142, R143: the sixth character. A failed check rejects the frame with one link error; a duplicate frame changes
nothing but the assembly. -/
def Obligations.CharactersAndFramesAreChecked : Prop :=
  (∀ (i : SpoutId) (c : Byte) (s : Machine.State), s.port.linesLive = true → (s.receiver i).assembly = [] →
     (c = 0xA5 → exec (.characterReceived i c) s
       = .next (s.updateReceiver i fun r => { r with assembly := [0xA5], huntCounted := false })) ∧
     (c ≠ 0xA5 → (s.receiver i).huntCounted = false → exec (.characterReceived i c) s
       = .next (s.updateReceiver i fun r => { r with linkErrors := min (r.linkErrors + 1) 65535, huntCounted := true })) ∧
     (c ≠ 0xA5 → (s.receiver i).huntCounted = true → exec (.characterReceived i c) s = .next s)) ∧
  (∀ (i : SpoutId) (c : Byte) (s : Machine.State), s.port.linesLive = true → (s.receiver i).assembly ≠ [] →
     (s.receiver i).assembly.length < 5 →
     exec (.characterReceived i c) s = .next (s.updateReceiver i fun r => { r with assembly := r.assembly ++ [c] })) ∧
  (∀ (i : SpoutId) (c : Instr) (s : Machine.State), c = .framingError i ∨ c = .interCharacterTimeout i →
     s.port.linesLive = true → (s.receiver i).assembly ≠ [] →
     exec c s = .next (s.updateReceiver i fun r =>
       { r with linkErrors := min (r.linkErrors + 1) 65535, assembly := [], huntCounted := true })) ∧
  (∀ (i : SpoutId) (s : Machine.State), s.port.linesLive = true → (s.receiver i).assembly = [] →
     ((s.receiver i).huntCounted = false → exec (.framingError i) s
       = .next (s.updateReceiver i fun r => { r with linkErrors := min (r.linkErrors + 1) 65535, huntCounted := true })) ∧
     ((s.receiver i).huntCounted = true → exec (.framingError i) s = .next s) ∧
     exec (.interCharacterTimeout i) s = .next s) ∧
  (∀ (i : SpoutId) (sequence status low high check : Byte) (s : Machine.State), s.port.linesLive = true →
     (s.receiver i).assembly = [0xA5, sequence, status, low, high] →
     (check ≠ crc8 [0xA5, sequence, status, low, high] → exec (.frame i check) s
       = .next (s.updateReceiver i fun r =>
           { r with linkErrors := min (r.linkErrors + 1) 65535, assembly := [], huntCounted := true })) ∧
     (check = crc8 [0xA5, sequence, status, low, high] → (s.receiver i).lastSequence = some sequence →
       exec (.frame i check) s = .next (s.updateReceiver i fun r => { r with assembly := [] })))

/-- R1, R143 to R145, R147: a frame taken on a PRESENT link whose missing run stays below 5: `gap` substituted samples at
the last good raw value, then its own, which is substituted too where the fault flag is set. Each runs through the spout's
blocks in turn. R6 to R11, R13: what one own sample does to an idle spout that no capture runs on, and what the port is
handed with it. R16, R167: LEAK rising with it sets the spout-change flag; nothing else of the port changes. -/
def Obligations.FrameDeliversItsSamples : Prop :=
  (∀ (i : SpoutId) (last sequence status low high : Byte) (s : Machine.State), s.port.linesLive = true →
     (s.receiver i).assembly = [0xA5, sequence, status, low, high] → (s.receiver i).link = .present →
     (s.receiver i).lastSequence = some last →
     let r := s.receiver i
     let gap := (sequence - last - 1).toNat
     let faulty := status.getLsbD 1
     let raw := signed16 (low.toNat + 256 * high.toNat)
     let substitute : Sample := { raw := r.lastGoodRaw, overRange := false, substituted := true }
     let own : Sample := if faulty then substitute else { raw := raw, overRange := status.getLsbD 0, substituted := false }
     let missing := if faulty then r.missingRun + gap + 1 else 0
     gap ≤ 4 → r.missingRun + gap ≤ 4 → missing ≤ 4 →
     exec (.frame i (crc8 [0xA5, sequence, status, low, high])) s = .next
       ((List.replicate gap substitute ++ [own]).foldl (fun t x => deliverSample react i x t)
         (s.updateReceiver i fun _ => { r with
           assembly := [], lastSequence := some sequence, lastGoodRaw := if faulty then r.lastGoodRaw else raw
           goodRun := if gap = 0 ∧ faulty = false then min (r.goodRun + 1) 65535 else 0
           missingRun := missing, silence := some 20 }))) ∧
  (∀ (i : SpoutId) (last status low high : Byte) (s : Machine.State), s.port.linesLive = true →
     (s.receiver i).assembly = [0xA5, last + 1, status, low, high] → (s.receiver i).link = .present →
     (s.receiver i).lastSequence = some last → status.getLsbD 1 = false → (s.receiver i).missingRun ≤ 4 →
     s.stage i = .idle → (s.gate i).starve = none → (s.calibration i).capture = .none →
     let raw := signed16 (low.toNat + 256 * high.toNat)
     let x : Sample := { raw := raw, overRange := status.getLsbD 0, substituted := false }
     let c := (s.channel i).process x (s.sampleSettings i)
     ∃ t, exec (.frame i (crc8 [0xA5, last + 1, status, low, high])) s = .next t
       ∧ t.receiver i = { s.receiver i with
           assembly := [], lastSequence := some (last + 1), lastGoodRaw := raw
           goodRun := min ((s.receiver i).goodRun + 1) 65535, missingRun := 0, silence := some 20 }
       ∧ t.channel i = c
       ∧ t.handed i = { delivered := c.delivered, rate := c.rate, leakTotal := c.leakTotal, leak := c.leak, lastRaw := raw }
       ∧ t.context i = s.context i ∧ t.calibration i = s.calibration i ∧ t.positioner i = s.positioner i
       ∧ t.field i = s.field i ∧ t.queue i = s.queue i ∧ SameOtherSpouts i s t ∧ SameTables s t ∧ t.memory = s.memory
       ∧ t.port = { s.port with spoutChange := s.port.spoutChange || (c.leak && !(s.channel i).leak) })

/-- R143, R146: a frame in sequence while the link is LOST or ABSENT delivers nothing; it is counted toward recovery and
restarts the 20 ms watch. Outside PRESENT, 20 ms without a frame return the good-frame run to 0 and restart the watch. R149:
a frame in sequence in SEARCHING counts toward the run of 16; the sixteenth makes the link PRESENT, ends the watch, starts
the silence timer and delivers its sample, the first of the spout; here to an idle spout that no capture runs on. That a
link found PRESENT in STARTING writes nothing in the memory yet, which R174 writes whole later, is the model's reading (R172
against R174; log entry 11). -/
def Obligations.RecoveryAndPresence : Prop :=
  (∀ (i : SpoutId) (last status low high check : Byte) (s : Machine.State), s.port.linesLive = true →
     (s.receiver i).assembly = [0xA5, last + 1, status, low, high] → check = crc8 [0xA5, last + 1, status, low, high] →
     (s.receiver i).link = .lost ∨ (s.receiver i).link = .absent → (s.receiver i).lastSequence = some last →
     status.getLsbD 1 = false →
     ∃ t, exec (.frame i check) s = .next t
       ∧ t.spout i = { s.spout i with receiver := { s.receiver i with
           assembly := [], lastSequence := some (last + 1), lastGoodRaw := signed16 (low.toNat + 256 * high.toNat)
           goodRun := min ((s.receiver i).goodRun + 1) 65535, watch := some 20 } }
       ∧ SameOtherSpouts i s t ∧ SameTables s t ∧ t.memory = s.memory ∧ t.port = s.port) ∧
  (∀ (i : SpoutId) (s : Machine.State), (s.receiver i).watch.isSome = true →
     exec (.goodFrameWatchExpiry i) s = .next (s.updateReceiver i fun r => { r with goodRun := 0, watch := some 20 })) ∧
  (∀ (i : SpoutId) (sequence status low high : Byte) (s : Machine.State), s.memory.wf = true → s.port.linesLive = true →
     (s.receiver i).assembly = [0xA5, sequence, status, low, high] → (s.receiver i).link = .searching →
     (s.receiver i).lastSequence = none ∨ (s.receiver i).lastSequence = some (sequence - 1) → status.getLsbD 1 = false →
     let r := s.receiver i
     let raw := signed16 (low.toNat + 256 * high.toNat)
     let x : Sample := { raw := raw, overRange := status.getLsbD 0, substituted := false }
     (r.goodRun + 1 < 16 → exec (.frame i (crc8 [0xA5, sequence, status, low, high])) s = .next (s.updateReceiver i fun _ =>
       { r with assembly := [], lastSequence := some sequence, lastGoodRaw := raw, goodRun := r.goodRun + 1
                watch := some 20 }))
     ∧ (16 ≤ r.goodRun + 1 → s.stage i = .idle → (s.gate i).starve = none → (s.calibration i).capture = .none →
       ∃ t, exec (.frame i (crc8 [0xA5, sequence, status, low, high])) s = .next t
         ∧ t.receiver i = { r with
             link := .present, assembly := [], lastSequence := some sequence, lastGoodRaw := raw
             goodRun := min (r.goodRun + 1) 65535, missingRun := 0, silence := some 20, watch := none }
         ∧ t.channel i = (s.channel i).process x (s.sampleSettings i) ∧ (t.handed i).lastRaw = raw
         ∧ t.context i = s.context i ∧ t.positioner i = s.positioner i ∧ t.field i = s.field i
         ∧ (s.port.visible = true → t.memory.u16 (0x0010 + 2 * i.val) = 1)
         ∧ (s.port.visible = false → t.memory = s.memory) ∧ SameOtherSpouts i s t ∧ SameTables s t))

/-- R10, R134, R135, R144, R145, R147, R148: a PRESENT link is LOST by 20 ms of silence, by a frame whose gap passes 4, and
by one whose missing samples bring the missing run to 5. The spout faults: SENSOR_LOST if it was not FAULTED, and in place
of a TRAVEL_FAULT or GATE_FAULT. The channel's window is restarted; its delivered mass and its remainder stay. R26, R28,
R40, R46, R93, R107: what a sensor loss does to a spout that works by itself, here by silence: an open stage is cut with
cause SENSOR_LOST and will not settle, a close runs on, SETTLING ends at once with G as its final; in WAIT_INDEX, ENGAGING,
ZEROING, RELEASING and ZERO_RUN the order ends SPOUT_FAULT (6) at once, with the context at rest. The channel's integration
is over from an open stage on, and the spout's queue is returned: it is empty, and each order that waited in it is DONE
SPOUT_FAULT (6), the PENDING entries of a LOAD or TWIN NOT_REACHED (21; R118, R134, R165). -/
def Obligations.PresentLinkIsLost : Prop :=
  (∀ (i : SpoutId) (c : Instr) (s : Machine.State), (s.receiver i).link = .present →
     ((c = .silenceTimerExpiry i ∧ (s.receiver i).silence.isSome = true) ∨
       ∃ last sequence status low high, c = .frame i (crc8 [0xA5, sequence, status, low, high])
         ∧ s.port.linesLive = true ∧ (s.receiver i).assembly = [0xA5, sequence, status, low, high]
         ∧ (s.receiver i).lastSequence = some last ∧ (sequence - last - 1).toNat ≤ 254
         ∧ (5 ≤ (sequence - last - 1).toNat ∨ 5 ≤ (s.receiver i).missingRun + (sequence - last - 1).toNat
           ∨ (status.getLsbD 1 = true ∧ 4 ≤ (s.receiver i).missingRun + (sequence - last - 1).toNat))) →
     ∃ t, exec c s = .next t ∧ (t.receiver i).link = .lost ∧ (t.receiver i).silence = none
       ∧ (t.receiver i).missingRun = 0 ∧ (t.receiver i).watch = some 20 ∧ t.isFaulted i = true
       ∧ (s.isFaulted i = false → (t.positioner i).cause = .sensorLost ∧ t.port.spoutChange = true)
       ∧ (s.isFaulted i = true → (s.positioner i).cause = .travelFault ∨ (s.positioner i).cause = .gateFault →
           (t.positioner i).cause = .sensorLost ∧ t.port.spoutChange = true)
       ∧ (s.isFaulted i = true → (s.positioner i).cause ≠ .travelFault → (s.positioner i).cause ≠ .gateFault →
           (t.positioner i).cause = (s.positioner i).cause)
       ∧ (t.channel i).window = [] ∧ (t.channel i).rate = 0 ∧ (t.channel i).surgeRun = 0
       ∧ (t.channel i).delivered = (s.channel i).delivered ∧ (t.channel i).remainder = (s.channel i).remainder
       ∧ (s.isFaulted i = false → s.port.exchange ≠ .resetting → t.queue i = [])
       ∧ t.products = s.products ∧ t.pending = s.pending ∧ t.port.exchange = s.port.exchange) ∧
  (∀ (i : SpoutId) (n : SlotId) (s : Machine.State), s.memory.wf = true → s.port.exchange = .running → s.single i →
     (s.context i).slot = some n → (s.context i).claim = none → s.isFaulted i = false →
     (∀ q ∈ s.queue i, q ≠ n ∧ (s.slotKind q = 1 ∨ s.slotKind q = 2 → s.loadCount q ≤ 12)) →
     (s.receiver i).link = .present → (s.receiver i).silence.isSome = true → (s.order i).mark ≠ .reset →
     (s.compartment i).index < (s.order i).count ∨ s.stage i = .zeroRun → (s.order i).count ≤ 12 →
     let x := s.compartment i
     let cause := x.cause.getD .sensorLost
     let secondary := if x.cause ≠ none ∧ x.secondary = none then some .sensorLost else x.secondary
     let ended := fun t : Machine.State => t.atRest i ∧ t.slotStateByte n = 4 ∧ t.slotU8 n 3 = 6
     ∃ t, exec (.silenceTimerExpiry i) s = .next t ∧ t.isFaulted i = true ∧ (t.positioner i).cause = .sensorLost
       ∧ (t.positioner i).drive = .none ∧ (t.calibration i).capture = .none
       ∧ s.queueReturned t i
       ∧ (t.channel i).delivered = (s.channel i).delivered
       ∧ ((s.stage i).isOpen = true → (s.gate i).isOpen = true → s.hasProfile i = true →
           t.stage i = .closing ∧ t.gateIsCut i ∧ (t.channel i).integrating = false
             ∧ t.compartment i = { x with cause := some cause, closeAwaited := true, noSettle := true }
             ∧ (t.order i).mark = .spoutFault ∧ (t.context i).slot = some n)
       ∧ (s.stage i = .closing →
           t.stage i = .closing ∧ t.gate i = s.gate i ∧ (t.channel i).integrating = false
             ∧ t.compartment i = { x with cause := some cause, secondary := secondary, noSettle := true }
             ∧ (t.order i).mark = .spoutFault ∧ (t.context i).slot = some n)
       ∧ (s.stage i = .settling → x.opened = true → x.trimsUsed ≤ 3 → (s.channel i).delivered ≤ 4294967295 →
           x.cause ≠ some .reset → x.cause ≠ some .pending →
           ended t ∧ t.entryShows n x.index cause.value ((secondary.map Code.value).getD 0) x.trimsUsed
               (s.channel i).delivered
             ∧ (t.channel i).integrating = false ∧ t.gate i = s.gate i)
       ∧ (s.stage i = .engaging ∨ s.stage i = .zeroing → x.cause = none → x.opened = false →
           ended t ∧ t.entryCode n x.index = 11 ∧ t.slotU32 n (0x40 + 16 * x.index + 12) = 0 ∧ t.gate i = s.gate i)
       ∧ (s.stage i = .waitIndex ∨ s.stage i = .releasing →
           ended t ∧ t.gate i = s.gate i
             ∧ ∀ e ∈ List.range (s.order i).count, t.entryCode n e = if s.entryCode n e = 0 then 21 else s.entryCode n e)
       ∧ (s.stage i = .zeroRun →
           ended t ∧ t.slotU16 n 0x10 = t.slotU16 n 0x12 ∧ (t.calibration i).zero = (s.calibration i).zero
             ∧ (t.calibration i).debt = (s.calibration i).debt ∧ (t.calibration i).zeroTimeout = none ∧ t.gate i = s.gate i)
       ∧ SameOtherSpouts i s t ∧ SameTables s t)

/-! ## The field lines -/

/-- R120: a wired level that comes to differ starts the debounce timer, one that returns stops it, and while the timer runs
a level that still differs changes nothing. An input that has not had its initial taking is seen alone (R122; log entry 28).
R120, R121: with a debounce of 0, and for PERMIT falling and LEVEL_HIGH rising, the change is taken at once, as an expiry
takes it; the two cut a single spout in an open stage (R33, R41, R42). -/
def Obligations.InputChangesAreDebouncedOrTakenAtOnce : Prop :=
  (∀ (i : SpoutId) (n : InputName) (level : Bool) (s : Machine.State), s.port.linesLive = true →
     let l := s.line i n
     let debounce := if s.hasProfile i then (s.profile i).debounce else 20
     (l.initiallyTaken = false →
       exec (.inputChange i n level) s = .next (s.updateField i fun g => g.setLine n { l with wired := level })) ∧
     (l.initiallyTaken = true → level = l.taken → ∃ t, exec (.inputChange i n level) s = .next t
       ∧ t.spout i = { s.spout i with field := (s.field i).setLine n { l with wired := level, timer := none } }
       ∧ SameOtherSpouts i s t ∧ t.memory = s.memory ∧ t.port = s.port ∧ SameTables s t) ∧
     (l.initiallyTaken = true → level ≠ l.taken → l.timer = none → debounce ≠ 0 →
       ¬ (n = .permit ∧ level = false) → ¬ (n = .levelHigh ∧ level = true) → ∃ t, exec (.inputChange i n level) s = .next t
       ∧ t.spout i = { s.spout i with field := (s.field i).setLine n { l with wired := level, timer := some debounce } }
       ∧ SameOtherSpouts i s t ∧ t.memory = s.memory ∧ t.port = s.port ∧ SameTables s t)) ∧
  (∀ (i : SpoutId) (n : InputName) (level : Bool) (s : Machine.State), s.port.linesLive = true →
     let l := s.line i n
     let debounce := if s.hasProfile i then (s.profile i).debounce else 20
     let atOnce := (n = .permit ∧ level = false) ∨ (n = .levelHigh ∧ level = true) ∨ debounce = 0
     l.initiallyTaken = true → level ≠ l.taken →
     (¬ atOnce → l.timer.isSome = true →
       exec (.inputChange i n level) s = .next (s.updateField i fun g => g.setLine n { l with wired := level }))
     ∧ (atOnce → exec (.inputChange i n level) s
         = exec (.debounceExpiry i n) (s.updateField i fun g => g.setLine n { l with wired := level, timer := some 0 }))) ∧
  (∀ (i : SpoutId) (n : InputName) (s : Machine.State), n = .permit ∨ n = .levelHigh →
     let level := n == .levelHigh
     let code := if n = .permit then Code.permitLost else Code.level
     s.port.linesLive = true → (s.line i n).initiallyTaken = true → (s.line i n).taken = !level →
     (s.stage i).isOpen = true → s.isTwin i = false → (s.gate i).isOpen = true → s.hasProfile i = true →
     ∃ t, exec (.inputChange i n level) s = .next t ∧ t.present i n = level ∧ t.stage i = .closing
       ∧ (t.gate i).output = .close ∧ (t.gate i).opening = none ∧ (t.gate i).starve = none
       ∧ (t.gate i).close = some (s.profile i).gateCloseTime
       ∧ (t.compartment i).cause = some (((s.compartment i).cause).getD code)
       ∧ t.channel i = s.channel i ∧ t.positioner i = s.positioner i ∧ t.order i = s.order i
       ∧ SameOtherSpouts i s t ∧ t.port = s.port ∧ SameTables s t)

/-- R120: a debounce timer expires with the wired level still differing: the change is taken, on its own line alone. R123: a
change that no consumer waits for does nothing else. R29, R38: GATE_OPEN taken present, and GATE_CLOSED taken absent, verify
an opening of a single spout, which enters COARSE or FINE, or stays in TRIM, with its starve timer. R25: GATE_CLOSED taken
absent while neither open output is asserted and no close runs: CLOSE is asserted again under the close timer, and no stage
changes; before a valid profile it has no timer. -/
def Obligations.DebounceExpiryTakesTheChange : Prop :=
  (∀ (i : SpoutId) (n : InputName) (level : Bool) (s : Machine.State), s.changeDue i n level →
     ∃ t, exec (.debounceExpiry i n) s = .next t ∧ t.present i n = level
       ∧ t.field i = (s.field i).taking n level ∧ (∀ j, j ≠ i → t.field j = s.field j)
       ∧ (∀ j, t.receiver j = s.receiver j) ∧ t.products = s.products ∧ t.pending = s.pending
       ∧ t.port.exchange = s.port.exchange) ∧
  (∀ (i : SpoutId) (n : InputName) (level : Bool) (s : Machine.State), s.changeDue i n level →
     (n = .levelHigh ∧ level = false) ∨ (n = .permit ∧ level = true) ∨ (n = .gateOpen ∧ level = false)
       ∨ (n = .gateOpen ∧ (s.gate i).output ≠ .openFull) →
     exec (.debounceExpiry i n) s = .next (s.updateField i fun g => g.taking n level)) ∧
  (∀ (i : SpoutId) (s : Machine.State), s.isTwin i = false →
     (s.gate i).opening.isSome = true →
     (s.changeDue i .gateOpen true → s.stage i = .opening → (s.gate i).output = .openFull →
       ∃ t, exec (.debounceExpiry i .gateOpen) s = .next t ∧ t.stage i = .coarse
         ∧ t.gate i = { s.gate i with opening := none, starve := some (s.profile i).starveWindow }
         ∧ (t.compartment i).starveCount = 0 ∧ t.channel i = s.channel i ∧ t.order i = s.order i
         ∧ SameOtherSpouts i s t ∧ t.port = s.port ∧ SameTables s t)
     ∧ (s.changeDue i .gateClosed false → s.stage i = .opening ∨ s.stage i = .trim → (s.gate i).output = .openFine →
       ∃ t, exec (.debounceExpiry i .gateClosed) s = .next t
         ∧ t.stage i = (if s.stage i = .opening then .fine else .trim)
         ∧ t.gate i = { s.gate i with opening := none, starve := some (s.profile i).starveWindow }
         ∧ (t.compartment i).starveCount = 0 ∧ t.channel i = s.channel i ∧ t.order i = s.order i
         ∧ SameOtherSpouts i s t ∧ t.port = s.port ∧ SameTables s t)) ∧
  (∀ (i : SpoutId) (s : Machine.State), s.changeDue i .gateClosed false → s.inputsTaken i = true → s.isBound i = false →
     (s.gate i).isOpen = false → (s.gate i).failed = false → (s.gate i).close = none → (s.gate i).retry = none →
     exec (.debounceExpiry i .gateClosed) s = .next ((s.updateField i fun g => g.taking .gateClosed false).updateGate i
       fun g => { g with
         output := .close, hold := none, secondTry := false
         close := if s.hasProfile i then some (s.profile i).gateCloseTime else none }))

/-- R129: a LOWERING spout whose lower switch comes while its upper one is absent is ENGAGED, and its output drops. R131: a
RAISING spout whose upper switch comes is RELEASED; an engage that waits lowers it again (R128). R130: an ENGAGED spout that
loses its lower switch is raised at once. R132: a RELEASED spout that loses its upper switch is raised again, its context
untouched. Here what the reports do to a context is left to the statements on contexts. That a seat lost by a spout of a
TWIN in ENGAGING, once it has reported ENGAGED, changes nothing of the context there is the model's reading (log entry 22).
-/
def Obligations.SpoutSwitchesMoveThePositioner : Prop :=
  (∀ (c : Instr) (i : SpoutId) (s : Machine.State), s.reportsEngaged c i → s.stage i ≠ .engaging → s.isBound i = false →
     ∃ t, exec c s = .next t
       ∧ t.positioner i = { s.positioner i with position := .engaged, drive := .none, travel := none }
       ∧ t.context i = s.context i ∧ t.channel i = s.channel i ∧ t.calibration i = s.calibration i
       ∧ SameOtherSpouts i s t ∧ t.port = s.port ∧ SameTables s t) ∧
  (∀ (i : SpoutId) (s : Machine.State), s.changeDue i .spoutRaised true → (s.positioner i).position = .raising →
     ((s.positioner i).engageWaiting = false → s.stage i ≠ .releasing → s.isBound i = false →
       ∃ t, exec (.debounceExpiry i .spoutRaised) s = .next t
         ∧ t.positioner i = { s.positioner i with position := .released, drive := .none, travel := none }
         ∧ t.context i = s.context i ∧ t.channel i = s.channel i ∧ SameOtherSpouts i s t ∧ t.port = s.port ∧ SameTables s t)
     ∧ ((s.positioner i).engageWaiting = true →
       ∃ t, exec (.debounceExpiry i .spoutRaised) s = .next t
         ∧ t.isLowering i ∧ (t.positioner i).engageWaiting = false
         ∧ t.context i = s.context i ∧ t.channel i = s.channel i ∧ SameOtherSpouts i s t ∧ t.port = s.port
         ∧ SameTables s t)) ∧
  (∀ (i : SpoutId) (s : Machine.State), s.changeDue i .spoutLowered false → (s.positioner i).position = .engaged →
     s.stage i = .idle ∨ s.stage i = .waitIndex ∨ s.stage i = .engaging ∨ s.stage i = .releasing ∨ s.stage i = .zeroRun
       ∨ (s.isBound i = true ∧ (s.stage (leaderOf i) = .waitIndex ∨ s.stage (leaderOf i) = .engaging
         ∨ s.stage (leaderOf i) = .releasing)) →
     (s.positioner i).engageWaiting = false → s.present i .spoutRaised = false →
     ∃ t, exec (.debounceExpiry i .spoutLowered) s = .next t ∧ t.isRaising i
       ∧ t.context i = s.context i ∧ t.channel i = s.channel i ∧ SameOtherSpouts i s t ∧ t.port = s.port ∧ SameTables s t) ∧
  (∀ (i : SpoutId) (s : Machine.State), s.changeDue i .spoutRaised false → (s.positioner i).position = .released →
     ∃ t, exec (.debounceExpiry i .spoutRaised) s = .next t
       ∧ t.spout i = { s.spout i with
           field := (s.field i).taking .spoutRaised false
           positioner := { s.positioner i with position := .raising, drive := .raise, travel := some (s.travelTime i) } }
       ∧ SameOtherSpouts i s t ∧ t.port = s.port ∧ SameTables s t)

/-- R105: INDEX_READY taken in RELEASING, or in WAIT_INDEX where the index condition does not hold then, changes the index
watch alone. R106: where it holds, the index timer stops, a short capture is abandoned (R86), and the spout is engaged: a
RELEASED one is lowered (R128), at a RAISING one the engage waits. R55: for a TWIN both spouts are. -/
def Obligations.IndexReadyEngagesAWaitingSpout : Prop :=
  (∀ (i : SpoutId) (level : Bool) (s : Machine.State), s.changeDue i .indexReady level →
     let watch := (s.order i).watch
     let next := if level then (if watch = .awaitRise then IndexWatch.risen else watch)
       else if watch = .awaitDrop ∨ watch = .risen then .awaitRise else watch
     s.stage i = .releasing
       ∨ (s.stage i = .waitIndex ∧ ((next ≠ .risen ∧ ¬ (next = .first ∧ level = true)) ∨ s.claimPending i = true)) →
     exec (.debounceExpiry i .indexReady) s = .next
       ((s.updateField i fun g => g.taking .indexReady level).updateOrder i fun o => { o with watch := next })) ∧
  (∀ (i : SpoutId) (s : Machine.State), s.changeDue i .indexReady true → s.stage i = .waitIndex → s.isTwin i = false →
     (s.order i).watch ≠ .awaitDrop →
     ∃ t, exec (.debounceExpiry i .indexReady) s = .next t
       ∧ ((s.positioner i).position = .released → s.present i .spoutRaised = true ∨ s.present i .spoutLowered = false →
           t.stage i = .engaging ∧ t.isLowering i ∧ (t.order i).indexTimer = none ∧ (t.calibration i).capture = .none
             ∧ t.compartment i = s.compartment i ∧ t.gate i = s.gate i ∧ t.channel i = s.channel i
             ∧ SameOtherSpouts i s t ∧ t.port = s.port ∧ SameTables s t)
       ∧ ((s.positioner i).position = .raising →
           t.stage i = .engaging ∧ t.positioner i = { s.positioner i with engageWaiting := true }
             ∧ (t.order i).indexTimer = none ∧ SameOtherSpouts i s t ∧ t.port = s.port ∧ SameTables s t)) ∧
  (∀ (o : SpoutId) (s : Machine.State), s.changeDue o .indexReady true → s.pair o → s.stage o = .waitIndex →
     (s.order o).watch ≠ .awaitDrop →
     (∀ m, m = o ∨ m = followerOf o → (s.positioner m).position = .released ∧ s.present m .spoutRaised = true) →
     ∃ t, exec (.debounceExpiry o .indexReady) s = .next t ∧ t.stage o = .engaging
       ∧ t.stage (followerOf o) = .bound ∧ (t.context (followerOf o)).phase = .engaging
       ∧ (∀ m, m = o ∨ m = followerOf o → t.isLowering m ∧ (t.calibration m).capture = .none ∧ t.gate m = s.gate m
           ∧ t.channel m = s.channel m)
       ∧ (t.order o).indexTimer = none ∧ (∀ j, j ≠ o → j ≠ followerOf o → t.spout j = s.spout j)
       ∧ t.port = s.port ∧ SameTables s t)

/-! ## Compartments -/

/-- R27: compartment start of a single spout, on the ENGAGED report in ENGAGING. The effective target is written into the
entry, and the compartment's fields are cleared. Where every opening condition holds, the channel starts afresh, the gate
opens in full or, at or below the fine band, in fine feed, and the context is in OPENING under the opening timer, or in
COARSE at once where a full opening is verified already (R29). With a zero debt of 8 the context zeroes first (R91). A
condition that fails ends the compartment with its code and a final of 0 g, unlearned; the spout is released (R105 for the
watch). Where GATE_CLOSED alone is absent the gate is closed with cause NO_OPEN. The last clause: a blocking capture that
succeeds resumes at the opening conditions (R84, R91). -/
def Obligations.EngagedStartsTheCompartment : Prop :=
  (∀ (c : Instr) (i : SpoutId) (n : SlotId) (s : Machine.State), s.memory.wf = true → s.reportsEngaged c i →
     s.stage i = .engaging → s.single i → (s.context i).slot = some n → (s.compartment i).index < 12 →
     (s.compartment i).effectiveTarget ≤ 65000000 → (s.order i).mark ≠ .reset →
     let x := s.compartment i
     let full := (s.order i).fineBand < x.effectiveTarget
     ∃ t, exec c s = .next t
       ∧ t.slotU32 n (0x40 + 16 * x.index + 8) = x.effectiveTarget ∧ (t.context i).slot = some n
       ∧ ((s.calibration i).debt ≠ 8 → s.mayOpen i → s.present i .indexReady = true →
           (t.gate i).output = (if full then .openFull else .openFine)
             ∧ (full → s.present i .gateOpen = true → t.stage i = .coarse ∧ (t.gate i).opening = none
                 ∧ (t.gate i).starve = some (s.profile i).starveWindow)
             ∧ (¬ (full ∧ s.present i .gateOpen = true) →
                 t.stage i = .opening ∧ (t.gate i).opening = some (s.profile i).gateOpenTime)
             ∧ (t.gate i).close = none ∧ (t.gate i).retry = none ∧ (t.gate i).hold = none ∧ t.integratesAfresh i
             ∧ t.compartment i = { index := x.index, effectiveTarget := x.effectiveTarget, opened := true }
             ∧ t.order i = s.order i ∧ (t.positioner i).position = .engaged)
       ∧ ((s.calibration i).debt = 8 →
           t.stage i = .zeroing ∧ (t.calibration i).capture = .longBlocking ∧ (t.calibration i).captureCount = 0
             ∧ (t.calibration i).zeroTimeout = some (s.profile i).zeroTimeout
             ∧ t.compartment i = { index := x.index, effectiveTarget := x.effectiveTarget }
             ∧ t.gate i = s.gate i ∧ t.channel i = s.channel i ∧ t.order i = s.order i)
       ∧ ((s.calibration i).debt ≠ 8 → (s.order i).mark = .none →
           let fails := fun (code : Nat) (mark : EndMark) =>
             t.stage i = .releasing ∧ t.isRaising i ∧ t.entryShows n x.index code 0 0 0 ∧ (t.order i).mark = mark
               ∧ (t.order i).total = (s.order i).total
               ∧ (t.order i).watch = (if s.present i .indexReady then .awaitDrop else .awaitRise) ∧ t.gate i = s.gate i
           (s.present i .permit = false → fails 6 .ended)
             ∧ (s.present i .permit = true → s.present i .indexReady = false → fails 8 .ended)
             ∧ (s.present i .permit = true → s.present i .indexReady = true → s.present i .levelHigh = true → fails 4 .none))
       ∧ ((s.calibration i).debt ≠ 8 → s.present i .permit = true → s.present i .indexReady = true →
           s.present i .levelHigh = false → s.present i .gateClosed = false →
           t.stage i = .closing ∧ (t.gate i).output = .close ∧ (t.gate i).opening = none ∧ (t.gate i).starve = none
             ∧ (t.gate i).close = (if s.hasProfile i then some (s.profile i).gateCloseTime else none)
             ∧ (t.compartment i).cause = some .noOpen ∧ (t.compartment i).opened = false
             ∧ (t.compartment i).noSettle = true ∧ (t.channel i).integrating = (s.channel i).integrating)
       ∧ SameOtherSpouts i s t ∧ SameTables s t) ∧
  (∀ (i : SpoutId) (x : Sample) (s : Machine.State), s.stage i = .zeroing → s.single i →
     (s.calibration i).capture = .longBlocking → (s.calibration i).captureCount = 1023 →
     (x.raw - (s.calibration i).zero).natAbs ≤ (s.profile i).zeroBand → s.mayOpen i → s.present i .indexReady = true →
     (s.positioner i).position = .engaged → (s.gate i).starve = none →
     let t := deliverSample react i x s
     (t.stage i = .opening ∨ t.stage i = .coarse) ∧ (t.gate i).isOpen = true ∧ t.integratesAfresh i
       ∧ (t.calibration i).capture = .none ∧ (t.calibration i).debt = 0 ∧ SameOtherSpouts i s t ∧ SameTables s t)

/-- R26, R28, R39, R104: what ends a single spout's compartment before its opening. INDEX_READY taken absent in ENGAGING or
ZEROING gives VEHICLE_MOVED (8), a lost seat in ZEROING SEAT_LOST (7), an unstable zero ZERO_UNSTABLE (17; R91). The capture
is abandoned, the entry shows the code and 0 g, the end mark is ENDED, and the spout is released. A sensor loss, a failed
travel or a failed close ends the order SPOUT_FAULT at once, without a release: here a failed travel in ENGAGING (13), with
an empty queue and no claim. -/
def Obligations.CompartmentEndsBeforeItsOpening : Prop :=
  (∀ (c : Instr) (i : SpoutId) (n : SlotId) (code : Nat) (s : Machine.State), s.memory.wf = true → s.single i →
     (s.context i).slot = some n → (s.compartment i).index < 12 → (s.compartment i).cause = none →
     (s.compartment i).secondary = none → (s.compartment i).opened = false → (s.compartment i).trimsUsed = 0 →
     (s.order i).mark = .none → s.willRaise i → (s.positioner i).engageWaiting = false →
     (c = .debounceExpiry i .indexReady ∧ code = 8 ∧ s.changeDue i .indexReady false
         ∧ (s.stage i = .engaging ∨ s.stage i = .zeroing))
       ∨ (c = .debounceExpiry i .spoutLowered ∧ code = 7 ∧ s.changeDue i .spoutLowered false ∧ s.stage i = .zeroing
         ∧ (s.positioner i).position = .engaged)
       ∨ (c = .zeroTimeoutExpiry i ∧ code = 17 ∧ s.stage i = .zeroing ∧ (s.calibration i).zeroTimeout.isSome = true) →
     ∃ t, exec c s = .next t ∧ t.stage i = .releasing ∧ t.isRaising i ∧ (t.calibration i).capture = .none
       ∧ (t.calibration i).zeroTimeout = none ∧ t.entryShows n (s.compartment i).index code 0 0 0
       ∧ (t.order i).mark = .ended ∧ (t.order i).total = (s.order i).total ∧ t.gate i = s.gate i
       ∧ t.channel i = { s.channel i with integrating := false } ∧ SameOtherSpouts i s t ∧ SameTables s t) ∧
  (∀ (i : SpoutId) (n : SlotId) (s : Machine.State), s.memory.wf = true → s.single i → (s.context i).slot = some n →
     (s.compartment i).index < (s.order i).count → (s.order i).count ≤ 12 → (s.compartment i).cause = none →
     (s.compartment i).opened = false → (s.order i).mark = .none → s.stage i = .engaging →
     (s.positioner i).position = .lowering → (s.positioner i).travel.isSome = true → s.queue i = [] →
     (s.context i).claim = none →
     ∃ t, exec (.travelTimerExpiry i) s = .next t ∧ t.atRest i ∧ t.isFaulted i = true
       ∧ (t.positioner i).cause = .travelFault ∧ t.entryCode n (s.compartment i).index = 13
       ∧ t.slotU32 n (0x40 + 16 * (s.compartment i).index + 12) = 0 ∧ t.slotStateByte n = 4 ∧ t.slotU8 n 3 = 6
       ∧ t.gate i = s.gate i ∧ SameOtherSpouts i s t ∧ SameTables s t)

/-- R55 to R57: a twin's compartment. The first ENGAGED report is kept; on the second, where no spout owes a zero and both
spouts meet the opening conditions, both channels start afresh and both gates open under their own opening timers. R56: a
spout whose debt is 8 zeroes first; a GATE_CLOSED that is absent closes that gate alone, with cause NO_OPEN. R57: each
opening is verified for its own gate; the leader enters COARSE at the second. -/
def Obligations.TwinCompartmentOpensOnBothSpouts : Prop :=
  (∀ (c : Instr) (o m : SpoutId) (n : SlotId) (s : Machine.State), s.memory.wf = true → s.pair o →
     m = o ∨ m = followerOf o → s.reportsEngaged c m → s.stage o = .engaging →
     (s.context (followerOf o)).phase = .engaging → (s.context o).slot = some n → (s.compartment o).index < 12 →
     (s.compartment o).effectiveTarget ≤ 65000000 →
     let f := followerOf o
     let other := if m = o then f else o
     let x := s.compartment o
     let full := (s.order o).fineBand < x.effectiveTarget
     let allOpen := s.mayOpen o ∧ s.mayOpen f ∧ s.present o .indexReady = true ∧ (s.positioner other).position = .engaged
     ∃ t, exec c s = .next t
       ∧ ((s.compartment other).engagedReported = false →
           (t.positioner m).position = .engaged ∧ t.stage o = .engaging
             ∧ (t.context f).phase = .engaging ∧ (t.compartment m).engagedReported = true
             ∧ t.gate o = s.gate o ∧ t.gate f = s.gate f ∧ t.channel o = s.channel o ∧ t.channel f = s.channel f)
       ∧ ((s.compartment other).engagedReported = true → (s.calibration o).debt ≠ 8 → (s.calibration f).debt ≠ 8 →
           allOpen → (full → s.present o .gateOpen = false ∧ s.present f .gateOpen = false) →
           t.stage o = .opening ∧ t.stage f = .bound ∧ (t.context f).phase = .opening
             ∧ t.slotU32 n (0x40 + 16 * x.index + 8) = x.effectiveTarget ∧ t.order o = s.order o
             ∧ t.compartment o = { index := x.index, effectiveTarget := x.effectiveTarget, opened := true }
             ∧ (t.context f).closeRecord = none
             ∧ ∀ j, j = o ∨ j = f → (t.gate j).output = (if full then .openFull else .openFine)
                 ∧ (t.gate j).opening = some (s.profile j).gateOpenTime ∧ (t.gate j).close = none ∧ t.integratesAfresh j)
       ∧ ((s.compartment other).engagedReported = true → (s.calibration o).debt = 8 ∨ (s.calibration f).debt = 8 →
           t.stage o = .zeroing ∧ ((t.context f).phase = .zeroing ↔ (s.calibration f).debt = 8)
             ∧ (∀ j, j = o ∨ j = f → (s.calibration j).debt = 8 → (t.calibration j).capture = .longBlocking
                 ∧ (t.calibration j).zeroTimeout = some (s.profile j).zeroTimeout)
             ∧ t.gate o = s.gate o ∧ t.gate f = s.gate f)
       ∧ ((s.compartment other).engagedReported = true → (s.calibration o).debt ≠ 8 → (s.calibration f).debt ≠ 8 →
           (∀ j, j = o ∨ j = f → s.present j .permit = true ∧ s.present j .levelHigh = false) →
           s.present o .indexReady = true → (s.positioner other).position = .engaged →
           s.present o .gateClosed = false ∨ s.present f .gateClosed = false →
           t.stage o = .closing ∧ (t.compartment o).cause = some .noOpen ∧ (t.compartment o).opened = false
             ∧ (∀ j, j = o ∨ j = f → (s.present j .gateClosed = false → t.gateIsCut j)
                 ∧ (s.present j .gateClosed = true → t.gate j = s.gate j))
             ∧ (s.present f .gateClosed = false → (t.context f).phase = .closing))
       ∧ (∀ j, j ≠ o → j ≠ f → t.spout j = s.spout j) ∧ t.port = s.port ∧ SameTables s t) ∧
  (∀ (o m : SpoutId) (s : Machine.State), s.pair o → m = o ∨ m = followerOf o → s.stage o = .opening →
     s.changeDue m .gateOpen true → (s.gate m).output = .openFull → (s.gate o).output = .openFull →
     (s.gate m).opening.isSome = true →
     let f := followerOf o
     let other := if m = o then f else o
     ∃ t, exec (.debounceExpiry m .gateOpen) s = .next t
       ∧ t.gate m = { s.gate m with opening := none, starve := some (s.profile m).starveWindow }
       ∧ (t.compartment m).starveCount = 0 ∧ (m = f → (t.context f).phase = .feeding)
       ∧ t.stage o = (if (s.gate other).opening = none then .coarse else .opening)
       ∧ t.gate other = s.gate other ∧ t.channel o = s.channel o ∧ t.channel f = s.channel f
       ∧ (∀ j, j ≠ o → j ≠ f → t.spout j = s.spout j) ∧ t.port = s.port ∧ SameTables s t)

/-- R24, R34: GATE_CLOSED taken present while CLOSE is asserted ends the close of a single spout: the close timer stops, the
500 ms close hold starts, the settle run is 0, and the context settles. In the retry pause the pause stops and CLOSE stays
dropped. R27, R46: a compartment that does not settle ends there instead; R49: so does one that a soft reset ends: its entry
shows RESET (16) and its G as the final, the entries still PENDING become NOT_REACHED (R117), and the context is at rest
while the slot stays RUNNING (3); that the result byte shows RESET (7) then is the model's choice (log entry 15). -/
def Obligations.GateClosedEndsTheClose : Prop :=
  (∀ (i : SpoutId) (s : Machine.State), s.changeDue i .gateClosed true → s.stage i = .closing → s.isTwin i = false →
    (s.gate i).failed = false → (s.gate i).output = .close ∨ (s.gate i).retry.isSome = true →
    let gate := if (s.gate i).retry.isSome then { s.gate i with retry := none }
      else { s.gate i with close := none, hold := some 500 }
    ((s.order i).mark ≠ .reset → (s.compartment i).noSettle = false →
      ∃ t, exec (.debounceExpiry i .gateClosed) s = .next t ∧ t.stage i = .settling ∧ t.gate i = gate
        ∧ t.compartment i = { s.compartment i with settleRun := 0, settleDone := false, closeAwaited := false }
        ∧ t.order i = s.order i ∧ t.channel i = s.channel i ∧ t.positioner i = s.positioner i
        ∧ SameOtherSpouts i s t ∧ t.port = s.port ∧ SameTables s t) ∧
    ((s.order i).mark = .reset ∨ (s.compartment i).noSettle = true →
      exec (.debounceExpiry i .gateClosed) s = .next (finishCompartment react i false
        (((s.updateField i fun g => g.taking .gateClosed true).updateGate i fun _ => gate).updateCompartment i
          fun x => { x with closeAwaited := false })))) ∧
  (∀ (i : SpoutId) (n : SlotId) (s : Machine.State), s.memory.wf = true → s.changeDue i .gateClosed true →
     s.stage i = .closing → s.single i → (s.gate i).failed = false → (s.gate i).output = .close ∨ (s.gate i).retry.isSome = true →
     (s.order i).mark = .reset → (s.context i).slot = some n → s.slotStateByte n = 3 →
     (s.compartment i).index < (s.order i).count → (s.order i).count ≤ 12 → (s.compartment i).opened = true →
     (s.compartment i).trimsUsed ≤ 3 → (s.channel i).delivered ≤ 4294967295 →
     let x := s.compartment i
     let g := (s.channel i).delivered
     ∃ t, exec (.debounceExpiry i .gateClosed) s = .next t ∧ t.atRest i ∧ t.slotStateByte n = 3 ∧ t.slotU8 n 3 = 7
       ∧ t.entryShows n x.index 16 ((x.secondary.map Code.value).getD 0) x.trimsUsed g
       ∧ (∀ e ∈ List.range (s.order i).count, e ≠ x.index →
           t.entryCode n e = if s.entryCode n e = 0 then 21 else s.entryCode n e)
       ∧ t.progressFollows n (s.order i).count ((s.order i).total + g)
       ∧ t.channel i = { s.channel i with integrating := false } ∧ t.positioner i = s.positioner i
       ∧ SameOtherSpouts i s t ∧ SameTables s t)

/-- R29, R32, R33, R41 to R44: an event that forbids metering cuts a single spout in an open stage, and sets the cause if
there is none. R41 to R44, R47: in CLOSING and SETTLING it is recorded as the cause if there is none, else, but for LEVEL,
as the secondary cause if that is empty; LEVEL sets level after cut; the close and the settle run on. R130: a spout that has
lost its seat is raised. -/
def Obligations.EventsCutAnOpenStage : Prop :=
  ∀ (i : SpoutId) (c : Instr) (code : Code) (s : Machine.State), s.cutEvent c i code → s.isTwin i = false →
    ((s.stage i).isOpen = true → (s.gate i).isOpen = true → s.hasProfile i = true →
      ∃ t, exec c s = .next t ∧ t.stage i = .closing ∧ t.gateIsCut i
        ∧ (t.compartment i).cause = some ((s.compartment i).cause.getD code)
        ∧ (t.compartment i).secondary = (s.compartment i).secondary ∧ (t.compartment i).hold = (s.compartment i).hold
        ∧ t.channel i = s.channel i ∧ t.order i = s.order i ∧ t.calibration i = s.calibration i
        ∧ (code ≠ .seatLost → t.positioner i = s.positioner i)
        ∧ (code = .seatLost → s.present i .spoutRaised = false → t.isRaising i)
        ∧ (code = .noOpen ∨ code = .noFlow → t.field i = s.field i)
        ∧ SameOtherSpouts i s t ∧ t.port = s.port ∧ SameTables s t) ∧
    (s.stage i = .closing ∨ s.stage i = .settling → (s.gate i).isOpen = false →
      code = .permitLost ∨ code = .seatLost ∨ code = .vehicleMoved ∨ code = .level →
      ∃ t, exec c s = .next t ∧ t.stage i = s.stage i ∧ t.gate i = s.gate i
        ∧ t.compartment i = { s.compartment i with
            cause := some ((s.compartment i).cause.getD code)
            secondary := if (s.compartment i).cause ≠ none ∧ (s.compartment i).secondary = none ∧ code ≠ .level
              then some code else (s.compartment i).secondary
            levelAfterCut := (s.compartment i).levelAfterCut || code == .level }
        ∧ t.channel i = s.channel i ∧ t.order i = s.order i ∧ t.calibration i = s.calibration i
        ∧ SameOtherSpouts i s t ∧ t.port = s.port ∧ SameTables s t)

/-! ## The timers -/

/-- R32, R125: the first expiry of the starve timer asserts AERATE for the aeration time, sets the count to 1 and restarts
the timer. R125: the AERATE timer's expiry drops AERATE, on its own spout alone. R34: the first expiry of a close drops
CLOSE for the 200 ms retry pause and sets close retried, in whatever stage the close runs (R25; that a re-close sets it too
is the model's reading, log entry 33); the pause's expiry reasserts CLOSE with a fresh close timer. R24, R35: the close
hold's expiry drops CLOSE, unless a failed close holds it. It changes no stage. -/
def Obligations.StarveAndGateTimersExpire : Prop :=
  (∀ (i : SpoutId) (s : Machine.State), (s.gate i).starve.isSome = true → (s.compartment i).starveCount = 0 →
     ∃ t, exec (.starveTimerExpiry i) s = .next t
       ∧ t.field i = { s.field i with aerate := true, aerateTimer := some (s.profile i).aerationTime }
       ∧ t.gate i = { s.gate i with starve := some (s.profile i).starveWindow }
       ∧ t.compartment i = { s.compartment i with starveCount := 1 }
       ∧ t.stage i = s.stage i ∧ t.channel i = s.channel i ∧ t.order i = s.order i ∧ t.positioner i = s.positioner i
       ∧ SameOtherSpouts i s t ∧ t.memory = s.memory ∧ t.port = s.port ∧ SameTables s t) ∧
  (∀ (i : SpoutId) (s : Machine.State), (s.field i).aerateTimer.isSome = true →
     exec (.aerateTimerExpiry i) s = .next (s.updateField i fun g => { g with aerate := false, aerateTimer := none })) ∧
  (∀ (i : SpoutId) (s : Machine.State),
     ((s.gate i).close.isSome = true → (s.gate i).secondTry = false →
       exec (.closeTimerExpiry i) s = .next ((s.updateGate i fun g =>
         { g with output := .none, close := none, retry := some 200, secondTry := true }).updateCompartment i fun c =>
           { c with closeRetried := true })) ∧
     ((s.gate i).retry.isSome = true → s.hasProfile i = true →
       exec (.retryPauseExpiry i) s = .next (s.updateGate i fun g =>
         { g with output := .close, retry := none, close := some (s.profile i).gateCloseTime }))) ∧
  (∀ (i : SpoutId) (s : Machine.State), (s.gate i).hold.isSome = true →
     ((s.gate i).failed = false →
       exec (.closeHoldExpiry i) s = .next (s.updateGate i fun g => { g with hold := none, output := .none })) ∧
     ((s.gate i).failed = true → exec (.closeHoldExpiry i) s = .next (s.updateGate i fun g => { g with hold := none })))

/-- R25, R35, R134: a second expiry in one close is GATE_FAULT; here of a re-close of an idle spout that nothing waits on.
The spout is FAULTED, CLOSE stays asserted, and the queued orders are returned. R133, R134: the travel timer expires in
LOWERING or RAISING: the output drops and the spout is FAULTED with TRAVEL_FAULT. R35: a second expiry in CLOSING ends a
single spout's compartment with its G as the final and GATE_FAULT as its cause or secondary cause, unlearned; the order ends
SPOUT_FAULT; here with an empty queue and no claim. R134, R165: whatever faults an idle spout in RUNNING (a sensor loss, a
failed travel, a failed re-close), each order in its queue is DONE SPOUT_FAULT (6), the PENDING entries of a LOAD or TWIN
NOT_REACHED (21; R118), and the queue is empty. -/
def Obligations.CloseFailureAndTravelExpiryFaultTheSpout : Prop :=
  (∀ (i : SpoutId) (s : Machine.State), (s.gate i).close.isSome = true → (s.gate i).secondTry = true →
     (s.gate i).output = .close → s.isFaulted i = false → s.stage i = .idle → (s.context i).claim = none →
     s.port.exchange = .running → s.port.doneCount ≤ 255 →
     ∃ t, exec (.closeTimerExpiry i) s = .next t ∧ (t.positioner i).position = .faulted
       ∧ (t.positioner i).cause = .gateFault ∧ (t.positioner i).drive = .none ∧ (t.gate i).output = .close
       ∧ (t.gate i).close = none ∧ (t.gate i).failed = true ∧ t.queue i = [] ∧ t.stage i = .idle
       ∧ t.port.spoutChange = true ∧ t.port.doneCount = min (s.port.doneCount + (s.queue i).length) 255
       ∧ SameOtherSpouts i s t ∧ SameTables s t) ∧
  (∀ (i : SpoutId) (s : Machine.State), (s.positioner i).travel.isSome = true →
     (s.positioner i).position = .lowering ∨ (s.positioner i).position = .raising →
     ∃ t, exec (.travelTimerExpiry i) s = .next t ∧ (t.positioner i).position = .faulted
       ∧ (t.positioner i).cause = .travelFault ∧ (t.positioner i).drive = .none ∧ (t.positioner i).travel = none
       ∧ (s.port.exchange ≠ .resetting → t.queue i = [])
       ∧ t.port.spoutChange = true ∧ t.port.exchange = s.port.exchange ∧ t.products = s.products ∧ t.pending = s.pending
       ∧ ∀ j, t.receiver j = s.receiver j ∧ t.field j = s.field j) ∧
  (∀ (i : SpoutId) (n : SlotId) (s : Machine.State), s.memory.wf = true → (s.gate i).close.isSome = true →
     (s.gate i).secondTry = true → (s.gate i).output = .close → s.isFaulted i = false → s.stage i = .closing → s.single i →
     (s.context i).slot = some n → (s.compartment i).index < (s.order i).count → (s.order i).count ≤ 12 →
     (s.compartment i).opened = true → (s.compartment i).trimsUsed ≤ 3 →
     (s.channel i).delivered ≤ 4294967295 → (s.order i).mark ≠ .reset → (s.compartment i).cause ≠ some .reset →
     (s.compartment i).cause ≠ some .pending → s.queue i = [] → (s.context i).claim = none →
     let x := s.compartment i
     let cause := x.cause.getD .gateFault
     let secondary := if x.cause ≠ none ∧ x.secondary = none then some .gateFault else x.secondary
     ∃ t, exec (.closeTimerExpiry i) s = .next t ∧ t.atRest i ∧ t.isFaulted i = true
       ∧ (t.positioner i).cause = .gateFault ∧ (t.gate i).output = .close ∧ (t.gate i).failed = true
       ∧ (t.gate i).close = none ∧ (t.channel i).integrating = false ∧ (t.channel i).delivered = (s.channel i).delivered
       ∧ t.entryShows n x.index cause.value ((secondary.map Code.value).getD 0) x.trimsUsed (s.channel i).delivered
       ∧ t.slotStateByte n = 4 ∧ t.slotU8 n 3 = 6 ∧ SameOtherSpouts i s t ∧ SameTables s t) ∧
  (∀ (c : Instr) (i : SpoutId) (s : Machine.State), s.memory.wf = true → s.faults c i → s.stage i = .idle →
     (s.context i).claim = none → s.port.exchange = .running →
     (∀ q ∈ s.queue i, s.slotKind q = 1 ∨ s.slotKind q = 2 → s.loadCount q ≤ 12) →
     ∃ t, exec c s = .next t ∧ t.isFaulted i = true ∧ s.queueReturned t i
       ∧ t.context i = { s.context i with gate := t.gate i, compartment := t.compartment i }
       ∧ SameOtherSpouts i s t ∧ SameTables s t)

/-- R106, R109: the index timer of a LOAD expires in WAIT_INDEX. The entry in hand becomes INDEX_TIMEOUT, the order ends
ENDED (result 5), and the context is at rest; here with an empty queue and no claim. R89: at each zero interval a short
capture starts where it can, else the debt rises by one, to at most 8; the timer restarts either way. R87, R92: the zero
timeout of a running ZERO expires: ZERO_UNSTABLE (result 9) with Z and the debt unchanged, and the context at rest; here
with an empty queue and no claim. -/
def Obligations.IndexAndZeroTimersExpire : Prop :=
  (∀ (n : SlotId) (i : SpoutId) (s : Machine.State), s.memory.wf = true → s.stage i = .waitIndex →
     (s.order i).indexTimer.isSome = true → (s.context i).slot = some n → s.isTwin i = false → (s.order i).mark = .none →
     (s.compartment i).index < (s.order i).count → (s.order i).count ≤ 12 → s.queue i = [] → (s.context i).claim = none →
     ∃ t, exec (.indexTimerExpiry i) s = .next t ∧ t.stage i = .idle ∧ (t.context i).slot = none
       ∧ t.entryCode n (s.compartment i).index = 18 ∧ t.slotStateByte n = 4 ∧ t.slotU8 n 3 = 5
       ∧ (∀ e, e < (s.order i).count → e ≠ (s.compartment i).index → s.entryCode n e ≠ 0 → t.entryCode n e = s.entryCode n e)
       ∧ t.gate i = s.gate i ∧ t.channel i = s.channel i ∧ t.positioner i = s.positioner i
       ∧ SameOtherSpouts i s t ∧ SameTables s t) ∧
  (∀ (i : SpoutId) (s : Machine.State), (s.calibration i).interval.isSome = true →
     let c := s.calibration i
     let able := (s.stage i = .idle ∨ s.stage i = .waitIndex ∨ s.stage i = .releasing
         ∨ (s.stage i = .bound ∧ ((s.context i).phase = .waiting ∨ (s.context i).phase = .releasing)))
       ∧ s.present i .gateClosed = true ∧ s.isFaulted i = false ∧ c.capture = .none
     ∃ t, exec (.zeroIntervalExpiry i) s = .next t
       ∧ (able → t.calibration i = { c with
           capture := .shortInterval, captureCount := 0, captureSum := 0, interval := some (c.profile.zeroInterval * 1000) })
       ∧ (¬ able → t.calibration i = { c with
           debt := min (c.debt + 1) 8, interval := some (c.profile.zeroInterval * 1000) })
       ∧ t.context i = s.context i ∧ t.channel i = s.channel i ∧ t.positioner i = s.positioner i
       ∧ SameOtherSpouts i s t ∧ t.memory = s.memory ∧ t.port = s.port ∧ SameTables s t) ∧
  (∀ (n : SlotId) (i : SpoutId) (s : Machine.State), s.memory.wf = true → s.stage i = .zeroRun →
     (s.calibration i).zeroTimeout.isSome = true → (s.context i).slot = some n → s.isTwin i = false → s.queue i = [] →
     (s.context i).claim = none →
     ∃ t, exec (.zeroTimeoutExpiry i) s = .next t ∧ t.stage i = .idle ∧ (t.context i).slot = none
       ∧ (t.calibration i).capture = .none ∧ (t.calibration i).zeroTimeout = none
       ∧ (t.calibration i).zero = (s.calibration i).zero ∧ (t.calibration i).debt = (s.calibration i).debt
       ∧ t.slotStateByte n = 4 ∧ t.slotU8 n 3 = 9 ∧ t.slotU16 n 0x10 = t.slotU16 n 0x12
       ∧ t.gate i = s.gate i ∧ t.channel i = s.channel i ∧ SameOtherSpouts i s t ∧ SameTables s t)

/-- R18, R171, R194: the panel timer's expiry rewrites the spout's panel under its stamp and restarts the timer. Of the
channel the panel shows what was handed with the last sample (log entry 10). -/
def Obligations.PanelTimerExpiryRefreshesThePanel : Prop :=
  ∀ (i : SpoutId) (s : Machine.State), s.memory.wf = true → (s.spout i).panelTimer.isSome = true → s.port.visible = true →
    ∃ t, exec (.panelTimerExpiry i) s = .next t ∧ t.spout i = { s.spout i with panelTimer := some 100 }
      ∧ t.memory.u16 (0x0100 + i.val * 64) = (s.memory.u16 (0x0100 + i.val * 64) + 2) % 65536
      ∧ (∀ (k : Nat) (h : k < (panelFields (s.spout i)).length),
          t.memory.read (0x0100 + i.val * 64 + 2 + k) = (panelFields (s.spout i))[k])
      ∧ t.panelShows (0x0100 + i.val * 64) (s.spout i)
      ∧ SameMemoryOutside (0x0100 + i.val * 64) 34 s t ∧ SameOtherSpouts i s t ∧ t.port = s.port ∧ SameTables s t

/-! ## Metering, learning, calibration -/

/-- R6: for each sample met while integration is OPEN, the whole grams of remainder and increment join the accumulator,
which saturates, and the remainder keeps the rest; while it is CLOSED neither changes; the accumulator never decreases. R3,
R7, R8: the sample's increment enters the window, which holds the last W, and the rate is their mean. R11: the surge run
under a valid profile; a window restart and a reset clear it. R15, R16: the leak monitor, while it is active. R13: what the
exchange port is handed. R2, R4, R14: the settings that a sample of a spout meets: Z and S as they stand, D and W of its
valid profile, or 0 and 16 without one, when no surge test and no leak monitor is applied; the stages in which the monitor
is active, while GATE_CLOSED is present; before any profile Z and S are 0. That a leak sample which leaves the accumulator
above a limit lowered below it sets LEAK, whether or not it adds a gram, is the model's reading (log entry 32). -/
def Obligations.SampleUpdatesTheChannel : Prop :=
  (∀ (c : Channel) (x : Sample) (g : SampleSettings),
     let mg := increment (x.raw - g.zero) g.creepBand g.span
     let c' := c.process x g
     (c.integrating = true →
       c'.delivered = min (c.delivered + (c.remainder + mg) / 1000) 4294967295
       ∧ c'.remainder = (c.remainder + mg) % 1000) ∧
     (c.integrating = false → c'.delivered = c.delivered ∧ c'.remainder = c.remainder) ∧
     (c.delivered ≤ 4294967295 → c.delivered ≤ c'.delivered)) ∧
  (∀ (c : Channel) (x : Sample) (g : SampleSettings), c.Lawful → c.window.length ≤ g.windowSize → 0 < g.windowSize →
     let net := x.raw - g.zero
     let mg := if net ≤ g.creepBand then 0 else (net.toNat * g.span + 512) / 1024
     let c' := c.process x g
     c'.window = (c.window ++ [mg]).drop (c.window.length + 1 - g.windowSize) ∧ c'.rate = c'.window.sum / c'.window.length) ∧
  (∀ (c : Channel) (x : Sample) (g : SampleSettings) (p : Profile), g.profile = some p →
     let c' := c.process x g
     (p.surgeLimit < c'.rate ∨ x.overRange = true → c'.surgeRun = min (c.surgeRun + 1) 1000)
       ∧ (¬ (p.surgeLimit < c'.rate ∨ x.overRange = true) → c'.surgeRun = 0)
       ∧ c.restartWindow.surgeRun = 0 ∧ c.reset.surgeRun = 0) ∧
  (∀ (c : Channel) (x : Sample) (g : SampleSettings), g.profile = none → (c.process x g).surgeRun = c.surgeRun) ∧
  (∀ (c : Channel) (x : Sample) (g : SampleSettings),
     let net := x.raw - g.zero
     let mg := (net.toNat * g.span + 512) / 1024
     let c' := c.process x g
     let same := c'.leakTotal = c.leakTotal ∧ c'.leakRemainder = c.leakRemainder ∧ c'.leak = c.leak
     (g.profile = none ∨ g.leakActive = false → same) ∧
     (∀ p, g.profile = some p → g.leakActive = true →
       (net ≤ p.leakThreshold → same)
       ∧ (p.leakThreshold < net →
           c'.leakTotal = min (c.leakTotal + (c.leakRemainder + mg) / 1000) 4294967295
             ∧ c'.leakRemainder = (c.leakRemainder + mg) % 1000
             ∧ (c'.leak = true ↔ c.leak = true ∨ p.leakLimit < c'.leakTotal)))) ∧
  (∀ (p : Spout) (x : Sample) (g : SampleSettings),
     let c := p.channel.process x g
     p.sample x g = { p with
       channel := c
       handed := { delivered := c.delivered, rate := c.rate, leakTotal := c.leakTotal, leak := c.leak, lastRaw := x.raw } }) ∧
  (∀ (i : SpoutId) (s : Machine.State),
     let c := s.calibration i
     let g := s.sampleSettings i
     let stands := s.stage i = .idle ∨ s.stage i = .waitIndex ∨ s.stage i = .engaging ∨ s.stage i = .zeroing
       ∨ s.stage i = .releasing ∨ s.stage i = .zeroRun
     g.zero = c.zero ∧ g.span = c.span
       ∧ (c.profileValid = true → g.creepBand = c.profile.creepBand ∧ g.windowSize = c.profile.window
           ∧ g.profile = some c.profile ∧ (g.leakActive = true ↔ stands ∧ s.present i .gateClosed = true))
       ∧ (c.profileValid = false → g.creepBand = 0 ∧ g.windowSize = 16 ∧ g.profile = none ∧ g.leakActive = false)) ∧
  (∀ i : SpoutId, (State.reset.sampleSettings i).zero = 0 ∧ (State.reset.sampleSettings i).span = 0)

/-- R31, R33: a sample met in FINE by a single spout. Where G and the prediction reach the effective target the gate is cut
and the hold values recorded; elsewhere nothing changes. R30: in COARSE the same evaluation follows, on the same sample,
where G reaches the fine band, the gate then being in fine feed; elsewhere nothing changes. R38: in TRIM the prediction
takes the rate at the cut, or the product's trim rate if that is 0, and the hold values stay. R32, R45: what a delivered
sample does before it is evaluated: with a surge report the compartment is cut SURGE (first, log entry 9), and at or above
starve_rate the starve timer starts afresh. -/
def Obligations.FeedIsSwitchedAndCutByPrediction : Prop :=
  (∀ (i : SpoutId) (s : Machine.State), s.stage i = .fine → s.isTwin i = false → s.hasProfile i = true →
     (s.gate i).isOpen = true →
     let rate := (s.channel i).rate
     let lag := s.preact[preactIndex i (s.order i).product].lag
     let reached := (((s.channel i).delivered : Int) + max 0 (((rate * lag / 1000 : Nat) : Int) + (s.order i).offset))
     let t := evaluateFeed i s
     ((s.compartment i).effectiveTarget ≤ reached →
       t.stage i = .closing ∧ (t.gate i).output = .close ∧ (t.gate i).opening = none ∧ (t.gate i).starve = none
         ∧ (t.gate i).close = some (s.profile i).gateCloseTime
         ∧ t.compartment i = { s.compartment i with
             closeAwaited := true
             hold := some { deliveredAtCut := (s.channel i).delivered, rateAtCut := rate, lagUsed := lag } }
         ∧ t.channel i = s.channel i ∧ SameOtherSpouts i s t ∧ t.port = s.port ∧ SameTables s t) ∧
     (reached < (s.compartment i).effectiveTarget → t = s)) ∧
  (∀ (i : SpoutId) (s : Machine.State), s.stage i = .coarse → s.isTwin i = false → s.hasProfile i = true →
     let g := (s.channel i).delivered
     let rate := (s.channel i).rate
     let lag := s.preact[preactIndex i (s.order i).product].lag
     let reached := ((g : Int) + max 0 (((rate * lag / 1000 : Nat) : Int) + (s.order i).offset))
     let t := evaluateFeed i s
     (g + (s.order i).fineBand < (s.compartment i).effectiveTarget → t = s)
     ∧ ((s.compartment i).effectiveTarget ≤ g + (s.order i).fineBand →
         (reached < (s.compartment i).effectiveTarget →
           t.stage i = .fine ∧ t.gate i = { s.gate i with output := .openFine } ∧ t.compartment i = s.compartment i)
         ∧ ((s.compartment i).effectiveTarget ≤ reached →
             t.stage i = .closing ∧ t.gateIsCut i ∧ (t.compartment i).cause = (s.compartment i).cause
               ∧ (t.compartment i).hold = some { deliveredAtCut := g, rateAtCut := rate, lagUsed := lag })
         ∧ t.channel i = s.channel i ∧ t.order i = s.order i ∧ SameOtherSpouts i s t ∧ t.port = s.port ∧ SameTables s t)) ∧
  (∀ (i : SpoutId) (s : Machine.State), s.stage i = .trim → s.isTwin i = false → s.hasProfile i = true →
     (s.gate i).isOpen = true →
     let atCut := ((s.compartment i).hold.map HoldValues.rateAtCut).getD 0
     let rate := if atCut = 0 then (s.order i).trimRate else atCut
     let lag := s.preact[preactIndex i (s.order i).product].lag
     let reached := (((s.channel i).delivered : Int) + max 0 (((rate * lag / 1000 : Nat) : Int) + (s.order i).offset))
     let t := evaluateFeed i s
     (reached < (s.compartment i).effectiveTarget → t = s)
     ∧ ((s.compartment i).effectiveTarget ≤ reached →
         t.stage i = .closing ∧ t.gateIsCut i
           ∧ t.compartment i = { s.compartment i with closeAwaited := true }
           ∧ t.channel i = s.channel i ∧ SameOtherSpouts i s t ∧ t.port = s.port ∧ SameTables s t)) ∧
  (∀ (i : SpoutId) (x : Sample) (s : Machine.State), s.isBound i = false → (s.stage i).isOpen = true →
     (s.calibration i).capture = .none →
     let p := s.profile i
     let u := channelSample i x s
     let surges := s.hasProfile i = true ∧ p.surgeCount ≤ (u.channel i).surgeRun
     (surges → s.isTwin i = false → (s.gate i).isOpen = true →
       let t := deliverSample react i x s
       t.stage i = .closing ∧ t.gateIsCut i ∧ (t.compartment i).cause = some ((s.compartment i).cause.getD .surge)
         ∧ t.channel i = u.channel i ∧ SameOtherSpouts i s t ∧ SameTables s t)
     ∧ (¬ surges → deliverSample react i x s = evaluateFeed i
         (if (s.gate i).starve.isSome = true ∧ p.starveRate ≤ (u.channel i).rate then
           (u.updateGate i fun g => { g with starve := some p.starveWindow }).updateCompartment i fun c =>
             { c with starveCount := 0 }
         else u)))

/-- R58 to R60: a twin's evaluation, on the sum of both channels' G. In COARSE, at the switch the follower is closed with
its close record and the leader goes to fine feed, and the combined cut is evaluated on the same sample; in FINE it is
evaluated on each sample. In a compartment opened in fine feed the follower's gate is still open in FINE: the first sample
after both verifications closes it, with its close record, and the leader, in FINE already, goes on alone or is cut on the
same sample. The cut counts the follower's residual: what its rate at the close and its lag still promise, and 0 g once it
has settled. R61: a trim's cut has no residual. R58: a sample of the follower is evaluated like one of the leader; where it
is also the last of the follower's settle run, the settle end comes first (the model's choice, log entry 36). -/
def Obligations.TwinFeedIsSwitchedAndCutOnTheCombinedMass : Prop :=
  (∀ (o : SpoutId) (s : Machine.State), s.pair o → s.stage o = .coarse → (s.gate o).isOpen = true →
     (s.gate (followerOf o)).isOpen = true →
     let f := followerOf o
     let target := (s.compartment o).effectiveTarget
     let combined := (s.channel o).delivered + (s.channel f).delivered
     let rate := (s.channel o).rate
     let lag := s.preact[preactIndex o (s.order o).product].lag
     let lagF := s.preact[preactIndex f (s.order o).product].lag
     let residual : Nat := (max 0 ((((s.channel f).rate * lagF / 1000 : Nat) : Int) + (s.order o).offset)).toNat
     let reached := ((combined + residual : Nat) : Int) + max 0 (((rate * lag / 1000 : Nat) : Int) + (s.order o).offset)
     let t := evaluateFeed o s
     (combined + (s.order o).fineBand < target → t = s)
     ∧ (target ≤ combined + (s.order o).fineBand →
         t.gateIsCut f ∧ t.stage f = .bound ∧ (t.context f).phase = .closing
           ∧ (t.context f).closeRecord = some { rate := (s.channel f).rate, delivered := (s.channel f).delivered }
           ∧ (reached < target → t.stage o = .fine ∧ t.gate o = { s.gate o with output := .openFine }
               ∧ t.compartment o = s.compartment o)
           ∧ (target ≤ reached → t.stage o = .closing ∧ t.gateIsCut o
               ∧ (t.compartment o).cause = (s.compartment o).cause
               ∧ (t.compartment o).hold
                 = some { deliveredAtCut := combined + residual, rateAtCut := rate, lagUsed := lag })
           ∧ t.channel o = s.channel o ∧ t.channel f = s.channel f
           ∧ (∀ j, j ≠ o → j ≠ f → t.spout j = s.spout j) ∧ t.port = s.port ∧ SameTables s t)) ∧
  (∀ (o : SpoutId) (s : Machine.State), s.pair o → s.stage o = .fine → (s.gate o).isOpen = true →
     (s.gate (followerOf o)).isOpen = false →
     let f := followerOf o
     let target := (s.compartment o).effectiveTarget
     let combined := (s.channel o).delivered + (s.channel f).delivered
     let rate := (s.channel o).rate
     let lag := s.preact[preactIndex o (s.order o).product].lag
     let lagF := s.preact[preactIndex f (s.order o).product].lag
     let closing := (s.context f).phase = .closing ∨ (s.context f).phase = .settling
     let t := evaluateFeed o s
     ∀ residual : Nat,
       (¬ closing ∨ (s.context f).closeRecord = none → residual = 0) →
       (∀ r, closing → (s.context f).closeRecord = some r → (residual : Int)
         = max 0 (((r.rate * lagF / 1000 : Nat) : Int) + (s.order o).offset - ((s.channel f).delivered - r.delivered))) →
       let reached := ((combined + residual : Nat) : Int) + max 0 (((rate * lag / 1000 : Nat) : Int) + (s.order o).offset)
       (reached < target → t = s)
       ∧ (target ≤ reached → t.stage o = .closing ∧ t.gateIsCut o
           ∧ (t.compartment o).cause = (s.compartment o).cause
           ∧ (t.compartment o).hold = some { deliveredAtCut := combined + residual, rateAtCut := rate, lagUsed := lag }
           ∧ t.spout f = s.spout f ∧ t.channel o = s.channel o ∧ t.port = s.port ∧ SameTables s t)) ∧
  (∀ (o : SpoutId) (s : Machine.State), s.pair o → s.stage o = .trim → (s.gate o).isOpen = true →
     (s.gate (followerOf o)).isOpen = false →
     let f := followerOf o
     let atCut := ((s.compartment o).hold.map HoldValues.rateAtCut).getD 0
     let rate := if atCut = 0 then (s.order o).trimRate else atCut
     let lag := s.preact[preactIndex o (s.order o).product].lag
     let reached := (((s.channel o).delivered + (s.channel f).delivered : Nat) : Int)
       + max 0 (((rate * lag / 1000 : Nat) : Int) + (s.order o).offset)
     let t := evaluateFeed o s
     (reached < (s.compartment o).effectiveTarget → t = s)
     ∧ ((s.compartment o).effectiveTarget ≤ reached → t.stage o = .closing ∧ t.gateIsCut o
         ∧ (t.compartment o).hold = (s.compartment o).hold ∧ t.spout f = s.spout f ∧ SameTables s t)) ∧
  (∀ (o : SpoutId) (x : Sample) (s : Machine.State), s.pair o → s.stage o = .coarse ∨ s.stage o = .fine ∨ s.stage o = .trim →
     (s.calibration (followerOf o)).capture = .none →
     let f := followerOf o
     let p := s.profile f
     let u := channelSample f x s
     let run := if (u.channel f).rate ≤ p.settleBand then (s.compartment f).settleRun + 1 else 0
     let counted := u.updateCompartment f fun c => { c with settleRun := run, settleDone := decide (p.settleCount ≤ run) }
     ((s.context f).phase ≠ .settling → ((s.gate f).isOpen = true → (u.channel f).surgeRun < p.surgeCount) →
       deliverSample react f x s = evaluateFeed o
         (if (s.gate f).starve.isSome = true ∧ p.starveRate ≤ (u.channel f).rate then
           (u.updateGate f fun g => { g with starve := some p.starveWindow }).updateCompartment f fun c =>
             { c with starveCount := 0 }
         else u))
     ∧ ((s.context f).phase = .settling → (s.gate f).isOpen = false → (s.gate f).starve = none →
       (s.compartment f).settleDone = false →
       (run < p.settleCount → deliverSample react f x s = evaluateFeed o counted)
       ∧ (p.settleCount ≤ run → deliverSample react f x s = evaluateFeed o (setPhase f .settled counted)))) ∧
  (∀ (o : SpoutId) (s : Machine.State), s.pair o → s.stage o = .fine → (s.gate o).isOpen = true →
     (s.gate (followerOf o)).isOpen = true →
     (s.compartment o).effectiveTarget
       ≤ (s.channel o).delivered + (s.channel (followerOf o)).delivered + (s.order o).fineBand →
     let f := followerOf o
     let target := (s.compartment o).effectiveTarget
     let combined := (s.channel o).delivered + (s.channel f).delivered
     let rate := (s.channel o).rate
     let lag := s.preact[preactIndex o (s.order o).product].lag
     let lagF := s.preact[preactIndex f (s.order o).product].lag
     let residual : Nat := (max 0 ((((s.channel f).rate * lagF / 1000 : Nat) : Int) + (s.order o).offset)).toNat
     let reached := ((combined + residual : Nat) : Int) + max 0 (((rate * lag / 1000 : Nat) : Int) + (s.order o).offset)
     let t := evaluateFeed o s
     t.gateIsCut f ∧ t.stage f = .bound ∧ (t.context f).phase = .closing
       ∧ (t.context f).closeRecord = some { rate := (s.channel f).rate, delivered := (s.channel f).delivered }
       ∧ (reached < target → t.stage o = .fine ∧ t.gate o = s.gate o ∧ t.compartment o = s.compartment o)
       ∧ (target ≤ reached → t.stage o = .closing ∧ t.gateIsCut o ∧ (t.compartment o).cause = (s.compartment o).cause
           ∧ (t.compartment o).hold = some { deliveredAtCut := combined + residual, rateAtCut := rate, lagUsed := lag })
       ∧ t.channel o = s.channel o ∧ t.channel f = s.channel f
       ∧ (∀ j, j ≠ o → j ≠ f → t.spout j = s.spout j) ∧ t.port = s.port ∧ SameTables s t)

/-- R36: in SETTLING each sample whose rate is at or below settle_band raises the settle run of a single spout, any other
returns it to 0, and nothing else happens until the run reaches settle_count, which ends the settle. R37, R38: a compartment
without a cause, without stop pending or level after cut, short of its target by more than under_tol and with a trim left,
is trimmed: trims used rises, the window restarts, and the gate opens in fine feed; the hold values and G stay. Any other
ends with the settled mass (`finishCompartment`, the next statement). R61: for a twin the settle ends at the later of the
two runs, on the combined mass; a trim is the leader's alone. That the sample which ends the settle is not the first of the
capture started then (R90) is the model's reading (log entry 34). -/
def Obligations.SettleEndTrimsOrEnds : Prop :=
  (∀ (i : SpoutId) (x : Sample) (s : Machine.State), s.single i → s.stage i = .settling →
     (s.compartment i).noSettle = false → (s.compartment i).settleDone = false → (s.calibration i).capture = .none →
     let p := s.profile i
     let u := channelSample i x s
     let run := if (u.channel i).rate ≤ p.settleBand then (s.compartment i).settleRun + 1 else 0
     let counted := u.updateCompartment i fun c => { c with settleRun := run, settleDone := decide (p.settleCount ≤ run) }
     (run < p.settleCount → deliverSample react i x s = counted)
     ∧ (p.settleCount ≤ run → deliverSample react i x s = settleEnd react i counted)) ∧
  (∀ (o : SpoutId) (s : Machine.State), s.single o ∨ s.pair o → s.stage o = .settling → s.hasProfile o = true →
     let c := s.compartment o
     let settled := if s.isTwin o then (s.channel o).delivered + (s.channel (followerOf o)).delivered
       else (s.channel o).delivered
     let due := c.cause = none ∧ c.stopPending = false ∧ c.levelAfterCut = false
       ∧ settled + (s.order o).underTol < c.effectiveTarget ∧ c.trimsUsed < (s.order o).maxTrims
     let t := settleEnd react o s
     (¬ due → t = finishCompartment react o true s)
     ∧ (due → t.stage o = .trim ∧ (t.compartment o).trimsUsed = c.trimsUsed + 1 ∧ (t.compartment o).hold = c.hold
         ∧ (t.gate o).output = .openFine ∧ (t.gate o).close = none ∧ (t.gate o).retry = none ∧ (t.gate o).hold = none
         ∧ (s.present o .gateClosed = true → (t.gate o).opening = some (s.profile o).gateOpenTime)
         ∧ (s.present o .gateClosed = false →
             (t.gate o).opening = none ∧ (t.gate o).starve = some (s.profile o).starveWindow)
         ∧ (t.channel o).window = [] ∧ (t.channel o).rate = 0 ∧ (t.channel o).surgeRun = 0
         ∧ (t.channel o).delivered = (s.channel o).delivered ∧ (t.channel o).integrating = (s.channel o).integrating
         ∧ t.order o = s.order o ∧ SameOtherSpouts o s t ∧ t.port = s.port ∧ SameTables s t)) ∧
  (∀ (o m : SpoutId) (x : Sample) (s : Machine.State), s.pair o → m = o ∨ m = followerOf o → s.stage o = .settling →
     (s.compartment o).noSettle = false → (s.calibration m).capture = .none → (s.gate m).starve = none →
     (s.gate m).isOpen = false → (s.compartment m).settleDone = false →
     (m = followerOf o → (s.context m).phase = .settling) →
     let other := if m = o then followerOf o else o
     let p := s.profile m
     let u := channelSample m x s
     let run := if (u.channel m).rate ≤ p.settleBand then (s.compartment m).settleRun + 1 else 0
     let counted := u.updateCompartment m fun c => { c with settleRun := run, settleDone := decide (p.settleCount ≤ run) }
     let reported := if m = o then counted else setPhase m .settled counted
     (run < p.settleCount → deliverSample react m x s = counted)
     ∧ (p.settleCount ≤ run → (s.compartment other).settleDone = false → deliverSample react m x s = reported)
     ∧ (p.settleCount ≤ run → (s.compartment other).settleDone = true →
         deliverSample react m x s = settleEnd react o reported))

/-- R39, R104, R105: a single spout's compartment ends. Integration is CLOSED; the entry shows the code, the secondary
cause, the trims used and the final, and no other byte of the slot but the progress fields, and none of another slot, is
written with them; the final joins the delivered total, and the progress fields follow (R108); the code sets the end mark;
an opened compartment hands its cut record to the learning unit (R68), one that was not opened has a final of 0 g and hands
none; the spout is released, and a settled one with a zero debt is measured (R90). A FAULTED spout's order ends at once
instead, the entries still PENDING NOT_REACHED (21), the targets, skip marks and other entries as they were; here with an
empty queue and no claim. R48: the code of a compartment that no soft reset ends. -/
def Obligations.CompartmentEndRecordsAndReleases : Prop :=
  (∀ (i : SpoutId) (n : SlotId) (settled : Bool) (s : Machine.State), s.memory.wf = true → s.single i →
     (s.context i).slot = some n → (s.compartment i).index < (s.order i).count → (s.order i).count ≤ 12 →
     (s.compartment i).trimsUsed ≤ 3 → (s.channel i).delivered ≤ 4294967295 → (s.compartment i).cause ≠ some .reset →
     let c := s.compartment i
     let o := s.order i
     let p := s.profile i
     let final := if c.opened then (s.channel i).delivered else 0
     let code := compartmentCode o c final
     let record : CutRecord :=
       { spout := i, product := o.product, slot := n, effectiveTarget := c.effectiveTarget, final := final, code := code
         hold := c.hold, closeRetried := c.closeRetried, stopPending := c.stopPending, levelAfterCut := c.levelAfterCut
         trimsUsed := c.trimsUsed, settled := settled, offset := o.offset, gain := p.learnGain, maxStep := p.learnMaxStep
         minRate := p.learnMinRate }
     let t := finishCompartment react i settled s
     (o.mark ≠ .reset → s.willRaise i →
       t.stage i = .releasing ∧ t.isRaising i ∧ (t.context i).slot = some n
         ∧ t.entryShows n c.index code.value ((c.secondary.map Code.value).getD 0) c.trimsUsed final
         ∧ (∀ k ∈ List.range 256, ¬ (0x18 ≤ k ∧ k < 0x20) → ¬ (0x45 + 16 * c.index ≤ k ∧ k < 0x48 + 16 * c.index) →
             ¬ (0x4C + 16 * c.index ≤ k ∧ k < 0x50 + 16 * c.index) → t.slotU8 n k = s.slotU8 n k)
         ∧ (∀ m : SlotId, m ≠ n → ∀ k ∈ List.range 256, t.slotU8 m k = s.slotU8 m k)
         ∧ (t.order i).total = o.total + final ∧ t.progressFollows n o.count (o.total + final)
         ∧ (o.mark = .none →
             (code = .ok ∨ code = .under ∨ code = .over ∨ code = .level → (t.order i).mark = .none)
             ∧ (code = .partialStop → (t.order i).mark = .stopped)
             ∧ (code = .noOpen ∨ code = .permitLost ∨ code = .seatLost ∨ code = .vehicleMoved ∨ code = .surge
                 ∨ code = .noFlow ∨ code = .zeroUnstable → (t.order i).mark = .ended)
             ∧ (code = .sensorLost ∨ code = .travelFault ∨ code = .gateFault → (t.order i).mark = .spoutFault))
         ∧ (t.order i).watch = (if s.present i .indexReady then .awaitDrop else .awaitRise)
         ∧ (c.opened = true → t.preact = (learnRecord record s).preact) ∧ (c.opened = false → t.preact = s.preact)
         ∧ t.channel i = { s.channel i with integrating := false } ∧ t.gate i = s.gate i
         ∧ (settled = true → 0 < (s.calibration i).debt →
             (t.calibration i).capture = .shortSettle ∧ (t.calibration i).captureCount = 0)
         ∧ (settled = false ∨ (s.calibration i).debt = 0 → t.calibration i = s.calibration i)
         ∧ SameOtherSpouts i s t ∧ t.port = s.port ∧ t.products = s.products ∧ t.pending = s.pending)
     ∧ (o.mark = .spoutFault → s.isFaulted i = true → s.queue i = [] → (s.context i).claim = none →
       c.cause ≠ some .pending →
       t.atRest i ∧ t.entryShows n c.index code.value ((c.secondary.map Code.value).getD 0) c.trimsUsed final
         ∧ t.slotStateByte n = 4 ∧ t.slotU8 n 3 = 6 ∧ t.progressFollows n o.count (o.total + final)
         ∧ (∀ e ∈ List.range o.count, e ≠ c.index →
             t.entryCode n e = if s.entryCode n e = 0 then 21 else s.entryCode n e)
         ∧ (∀ k ∈ List.range 256, 0x40 ≤ k → k % 16 ≠ 5 → ¬ (0x46 + 16 * c.index ≤ k ∧ k < 0x48 + 16 * c.index) →
             ¬ (0x4C + 16 * c.index ≤ k ∧ k < 0x50 + 16 * c.index) → t.slotU8 n k = s.slotU8 n k)
         ∧ (∀ m : SlotId, m ≠ n → ∀ k ∈ List.range 256, t.slotU8 m k = s.slotU8 m k)
         ∧ t.channel i = { s.channel i with integrating := false } ∧ t.gate i = s.gate i ∧ t.positioner i = s.positioner i
         ∧ SameOtherSpouts i s t ∧ t.products = s.products ∧ t.pending = s.pending)) ∧
  (∀ (o : OrderState) (c : Compartment) (final : Nat), o.mark ≠ .reset →
     (∀ code, c.cause = some code → compartmentCode o c final = code) ∧
     (c.cause = none →
       let d := (final : Int) - c.effectiveTarget
       (-(o.underTol : Int) ≤ d → d ≤ o.overTol → compartmentCode o c final = .ok)
         ∧ (d < -(o.underTol : Int) → compartmentCode o c final = .under)
         ∧ ((o.overTol : Int) < d → compartmentCode o c final = .over)))

/-- R40, R102, R104, R109, R110: a single spout in RELEASING reaches its upper switch. While a capture runs the release
waits for its end. Else, with an end mark the order ends by it; with none the context steps on: the skip-marked entries that
follow become SKIPPED_MARK (19). An entry to load is handed over with its effective target (R103); the context waits in
WAIT_INDEX for a fresh rise of INDEX_READY under the index timer (R105, R106), and a rise seen already engages the spout at
once. Where the limit allows nothing more, that entry and all after it become SKIPPED_LIMIT (20). With no entry left the
order ends OK (1), or EXCEPTIONS (2) if any code is neither OK nor SKIPPED_MARK. That the whole compartment record is fresh
at a hand-over is the model's choice (R102 against R27; log entry 17). These clauses have an empty queue and no claim. R40,
R82, R86: the sample that ends a capture, by its last or by one out of band, ends the wait of a spout already RELEASED. R52,
R164: a command that ends an order of a spout with a waiting queue and no claim on it serves the queue head in the same
action. -/
def Obligations.ReleasedSpoutGoesOn : Prop :=
  (∀ (i : SpoutId) (n : SlotId) (s : Machine.State), s.memory.wf = true → s.changeDue i .spoutRaised true →
     (s.positioner i).position = .raising → (s.positioner i).engageWaiting = false → s.stage i = .releasing → s.single i →
     (s.context i).slot = some n → s.queue i = [] → (s.context i).claim = none → (s.order i).count ≤ 12 →
     (s.order i).entries.length = (s.order i).count →
     let o := s.order i
     let later := o.entries.drop ((s.compartment i).index + 1)
     let codes := (List.range o.count).map (s.entryCode n)
     ∃ t, exec (.debounceExpiry i .spoutRaised) s = .next t
       ∧ (o.watch = .awaitDrop ∨ o.watch = .awaitRise ∨ later = [] ∨ o.mark ≠ .none ∨ (s.calibration i).capture ≠ .none →
           (t.positioner i).position = .released ∧ t.calibration i = s.calibration i)
       ∧ ((s.calibration i).capture = .none → (s.calibration i).captureCount = 0 → (s.calibration i).captureSum = 0 →
           (s.calibration i).zeroTimeout = none → t.calibration i = s.calibration i)
       ∧ ((s.calibration i).capture ≠ .none →
           t.context i = { s.context i with compartment := { s.compartment i with releasedAnswered := true } })
       ∧ ((s.calibration i).capture = .none → o.mark ≠ .none → o.mark ≠ .reset →
           t.atRest i ∧ t.slotStateByte n = 4
             ∧ (o.mark = .ended → t.slotU8 n 3 = 5) ∧ (o.mark = .stopped → t.slotU8 n 3 = 3)
             ∧ (o.mark = .spoutFault → t.slotU8 n 3 = 6)
             ∧ ∀ e ∈ List.range o.count, t.entryCode n e = if s.entryCode n e = 0 then 21 else s.entryCode n e)
       ∧ ((s.calibration i).capture = .none → o.mark = .none →
           (∀ x ∈ later.take 1, x.skip = false → 0 < x.target → o.total < o.limit →
             o.watch = .awaitDrop ∨ o.watch = .awaitRise →
             t.stage i = .waitIndex ∧ (t.context i).slot = some n
               ∧ t.compartment i
                 = { index := (s.compartment i).index + 1, effectiveTarget := min x.target (o.limit - o.total) }
               ∧ t.order i = { o with indexTimer := some ((s.profile i).indexTimeout * 1000) })
           ∧ (later = [] → (∀ code ∈ codes, code ≠ 0) →
               t.atRest i ∧ t.slotStateByte n = 4
                 ∧ t.slotU8 n 3 = (if ∀ code ∈ codes, code = 1 ∨ code = 19 then 1 else 2)))
       ∧ t.gate i = s.gate i ∧ t.channel i = s.channel i
       ∧ SameOtherSpouts i s t ∧ SameTables s t) ∧
  (∀ (i : SpoutId) (n : SlotId) (k : Nat) (s : Machine.State), s.memory.wf = true → s.changeDue i .spoutRaised true →
     (s.positioner i).position = .raising → (s.positioner i).engageWaiting = false → s.stage i = .releasing → s.single i →
     (s.context i).slot = some n → s.queue i = [] → (s.context i).claim = none → (s.order i).count ≤ 12 →
     (s.order i).entries.length = (s.order i).count → (s.compartment i).index < (s.order i).count →
     (s.calibration i).capture = .none → (s.order i).mark = .none →
     let o := s.order i
     let later := o.entries.drop ((s.compartment i).index + 1)
     let e := (s.compartment i).index + 1 + k
     let done := (List.range ((s.compartment i).index + 1)).map (s.entryCode n)
     let passed := fun t : Machine.State =>
       ∀ j ∈ List.range o.count, t.entryCode n j
         = if (s.compartment i).index < j ∧ j < e then 19 else s.entryCode n j
     k ≤ later.length → (∀ x ∈ later.take k, x.skip = true) →
     ∃ t, exec (.debounceExpiry i .spoutRaised) s = .next t
       ∧ (∀ x ∈ (later.drop k).take 1, x.skip = false → 0 < x.target → o.total < o.limit →
           t.compartment i = { index := e, effectiveTarget := min x.target (o.limit - o.total) } ∧ passed t
             ∧ (o.watch = .awaitDrop ∨ o.watch = .awaitRise →
                 t.stage i = .waitIndex ∧ (t.order i).indexTimer = some ((s.profile i).indexTimeout * 1000)
                   ∧ (t.positioner i).position = .released)
             ∧ (o.watch = .risen →
                 t.stage i = .engaging ∧ t.isLowering i ∧ (t.order i).indexTimer = none))
       ∧ (∀ x ∈ (later.drop k).take 1, x.skip = false → o.limit ≤ o.total →
           (∀ j ∈ List.range o.count, s.entryCode n j ≠ 0 ∨ (s.compartment i).index < j) →
           t.atRest i ∧ t.slotStateByte n = 4 ∧ t.slotU8 n 3 = 2
             ∧ ∀ j ∈ List.range o.count, t.entryCode n j
               = if (s.compartment i).index < j then (if j < e then 19 else 20) else s.entryCode n j)
       ∧ (k = later.length → (∀ j ∈ List.range o.count, s.entryCode n j ≠ 0 ∨ (s.compartment i).index < j) →
           t.atRest i ∧ t.slotStateByte n = 4 ∧ passed t
             ∧ t.slotU8 n 3 = (if ∀ code ∈ done, code = 1 ∨ code = 19 then 1 else 2))
       ∧ t.gate i = s.gate i ∧ t.channel i = s.channel i ∧ SameOtherSpouts i s t ∧ SameTables s t) ∧
  (∀ (i : SpoutId) (n : SlotId) (x : Sample) (s : Machine.State), s.memory.wf = true → s.stage i = .releasing →
     s.single i → (s.context i).slot = some n → s.queue i = [] → (s.context i).claim = none → (s.order i).count ≤ 12 →
     (s.compartment i).releasedAnswered = true → (s.gate i).starve = none →
     (s.calibration i).capture = .shortSettle ∨ (s.calibration i).capture = .shortInterval →
     let c := s.calibration i
     let goesOn := (x.raw - c.zero).natAbs ≤ c.profile.zeroBand ∧ s.present i .gateClosed = true ∧ c.captureCount + 1 < 64
     let t := deliverSample react i x s
     (goesOn → t.context i = s.context i ∧ (t.calibration i).captureCount = c.captureCount + 1
         ∧ t.positioner i = s.positioner i ∧ t.gate i = s.gate i)
       ∧ (¬ goesOn → (s.order i).mark ≠ .none → (s.order i).mark ≠ .reset →
           t.gate i = s.gate i ∧ t.atRest i
             ∧ t.slotStateByte n = 4 ∧ (t.calibration i).capture = .none ∧ t.positioner i = s.positioner i
             ∧ ((s.order i).mark = .ended → t.slotU8 n 3 = 5) ∧ ((s.order i).mark = .stopped → t.slotU8 n 3 = 3)
             ∧ ((s.order i).mark = .spoutFault → t.slotU8 n 3 = 6))
       ∧ (∀ y ∈ ((s.order i).entries.drop ((s.compartment i).index + 1)).take 1, ¬ goesOn → (s.order i).mark = .none →
           y.skip = false → 0 < y.target → (s.order i).total < (s.order i).limit →
           (s.order i).watch = .awaitDrop ∨ (s.order i).watch = .awaitRise →
             t.stage i = .waitIndex ∧ (t.context i).slot = some n ∧ (t.calibration i).capture = .none
               ∧ t.positioner i = s.positioner i ∧ (t.compartment i).index = (s.compartment i).index + 1)
       ∧ ((s.positioner i).position ≠ .engaged →
           ((s.positioner i).position = .released → s.present i .spoutRaised = true) → t.gate i = s.gate i)
       ∧ SameOtherSpouts i s t ∧ SameTables s t) ∧
  (∀ (c : Instr) (i : SpoutId) (n m : SlotId) (s : Machine.State), s.memory.wf = true → s.endsOrder c i n →
     (s.context i).claim = none → (s.queue i).head? = some m → s.slotStateByte m = 2 → n ∉ s.queue i →
     ∃ t, exec c s = .next t ∧ t.slotStateByte n = 4 ∧ s.serves t i m (s.queue i).tail
       ∧ ((∀ q ∈ s.queue i, s.slotKind q ≠ 2) → SameOtherSpouts i s t))

/-- R57, R62: an event that cuts an open compartment, on either spout of a pair whose leader is in an open stage, cuts the
leader with its cause and closes the follower's gate if it is open. R63: so does a sensor loss, here by silence: that
channel is frozen, the compartment does not settle, and it ends once every gate of the pair that was closing has closed,
here the last one; which closes it waits for is kept by the model's mark closeAwaited, so that a re-close begun later is not
waited for (the model's reading, log entry 22). R64, R113, R115: a STOP or ALL_STOP of a TWIN by its leader's stage: an open
stage is cut on both spouts with cause PARTIAL_STOP; in CLOSING and SETTLING stop pending is set; in ENGAGING and ZEROING
both spouts are released; in WAIT_INDEX the order ends STOPPED and the binding with it, here with an empty queue on each.
R52, R65: a binding that ends so with a queue waiting on one of the two spouts serves its head, a next TWIN binding the
follower again. R53: a claim still pending is withdrawn, and the TWIN ends with its entries NOT_REACHED: SPOUT_FAULT (6)
where either spout is lost, STOPPED (3) at a STOP or an ALL_STOP. -/
def Obligations.TwinInterlocksFaultsAndStops : Prop :=
  (∀ (c : Instr) (o m : SpoutId) (code : Code) (s : Machine.State), s.pair o → m = o ∨ m = followerOf o →
     s.cutEvent c m code → (s.stage o).isOpen = true → (s.gate o).isOpen = true →
     let f := followerOf o
     ∃ t, exec c s = .next t ∧ t.stage o = .closing ∧ t.stage f = .bound ∧ t.gateIsCut o
       ∧ (t.compartment o).cause = some ((s.compartment o).cause.getD code)
       ∧ ((s.gate f).isOpen = true → t.gateIsCut f ∧ (t.context f).phase = .closing)
       ∧ ((s.gate f).isOpen = false → t.context f = s.context f)
       ∧ t.channel o = s.channel o ∧ t.channel f = s.channel f ∧ t.order o = s.order o
       ∧ (∀ j, j ≠ o → j ≠ f → t.spout j = s.spout j) ∧ t.port = s.port ∧ SameTables s t) ∧
  (∀ (o m : SpoutId) (s : Machine.State), s.pair o → m = o ∨ m = followerOf o → (s.stage o).isOpen = true →
     (s.gate o).isOpen = true → (s.order o).mark ≠ .reset → s.isFaulted m = false → (s.receiver m).link = .present →
     (s.receiver m).silence.isSome = true → (s.context o).claim = none →
     let f := followerOf o
     ∃ t, exec (.silenceTimerExpiry m) s = .next t ∧ t.stage o = .closing ∧ t.stage f = .bound ∧ t.gateIsCut o
       ∧ (t.compartment o).cause = some ((s.compartment o).cause.getD .sensorLost) ∧ (t.compartment o).noSettle = true
       ∧ (t.order o).mark = .spoutFault ∧ t.isFaulted m = true ∧ (t.channel m).integrating = false
       ∧ (t.channel m).delivered = (s.channel m).delivered ∧ t.channel (if m = o then f else o) = s.channel (if m = o then f else o)
       ∧ ((s.gate f).isOpen = true → t.gateIsCut f ∧ (t.context f).phase = .closing)) ∧
  (∀ (o m : SpoutId) (s : Machine.State), s.pair o → m = o ∨ m = followerOf o → s.stage o = .closing →
     (s.compartment o).noSettle = true → (s.order o).mark ≠ .reset → s.changeDue m .gateClosed true →
     (s.gate m).output = .close → (s.gate m).retry = none → (s.gate m).failed = false →
     (m = followerOf o → (s.context m).phase = .closing ∧ s.isFaulted m = true) →
     let f := followerOf o
     let other := if m = o then f else o
     let closed := ((s.updateField m fun g => g.taking .gateClosed true).updateGate m fun g =>
       { g with close := none, hold := some 500 }).updateCompartment m fun x => { x with closeAwaited := false }
     let u := if m = o then closed else setPhase f .settled closed
     exec (.debounceExpiry m .gateClosed) s
       = .next (if (s.compartment other).closeAwaited then u else finishCompartment react o false u)) ∧
  (∀ (c : Instr) (o : SpoutId) (n : SlotId) (s : Machine.State), s.memory.wf = true → s.stopsOrder c o n → s.pair o →
     (s.order o).mark = .none → (s.order o).stopTaken = false → s.stage o ≠ .zeroRun →
     let f := followerOf o
     (s.stage o = .engaging ∨ s.stage o = .zeroing → s.willRaise o ∧ s.willRaise f) →
     (s.stage o = .waitIndex →
       (s.order o).count ≤ 12 ∧ s.queue o = [] ∧ s.queue f = [] ∧ (s.context o).claim = none) →
     ∃ t, exec c s = .next t
       ∧ ((s.stage o).isOpen = true → (s.gate o).isOpen = true →
           t.stage o = .closing ∧ t.gateIsCut o ∧ (t.order o).mark = .stopped
             ∧ (t.compartment o).cause = some ((s.compartment o).cause.getD .partialStop)
             ∧ ((s.gate f).isOpen = true → t.gateIsCut f ∧ (t.context f).phase = .closing))
       ∧ (s.stage o = .closing ∨ s.stage o = .settling →
           t.compartment o = { s.compartment o with stopPending := true } ∧ t.stage o = s.stage o
             ∧ (t.order o).mark = .stopped ∧ t.gate o = s.gate o ∧ t.spout f = s.spout f)
       ∧ (s.stage o = .engaging ∨ s.stage o = .zeroing →
           t.stage o = .releasing ∧ (t.context f).phase = .releasing ∧ (t.order o).mark = .stopped
             ∧ ∀ j, j = o ∨ j = f → t.isRaising j ∧ (t.calibration j).capture = .none ∧ t.gate j = s.gate j)
       ∧ (s.stage o = .waitIndex →
           t.atRest o ∧ t.atRest f ∧ (t.context f).claim = none ∧ t.slotStateByte n = 4 ∧ t.slotU8 n 3 = 3)
       ∧ SameTables s t) ∧
  (∀ (c : Instr) (o : SpoutId) (n m : SlotId) (s : Machine.State), s.memory.wf = true → c ≠ .allStop →
     s.stopsOrder c o n → s.pair o → (s.order o).mark = .none → (s.order o).stopTaken = false → s.stage o = .waitIndex →
     (s.order o).count ≤ 12 → (s.context o).claim = none → s.slotStateByte m = 2 →
     (∀ q ∈ s.queue o ++ s.queue (followerOf o), q ≠ n) → (∀ q ∈ s.queue (followerOf o), s.slotKind q ≠ 2) →
     let f := followerOf o
     let noTwin := ∀ q ∈ s.queue o, s.slotKind q ≠ 2
     ∃ t, exec c s = .next t ∧ t.slotStateByte n = 4 ∧ t.slotU8 n 3 = 3
       ∧ (noTwin → (t.context f).claim = none
         ∧ (s.queue o = [] → (s.queue f).head? = some m → t.atRest o ∧ s.serves t f m (s.queue f).tail)
         ∧ (s.queue f = [] → (s.queue o).head? = some m → t.atRest f ∧ s.serves t o m (s.queue o).tail))
       ∧ (s.slotKind m = 2 → s.queue f = [] → (s.queue o).head? = some m → 1 ≤ s.loadCount m → s.slotU8 m 0x44 = 0 →
           1 ≤ s.slotU32 m 0x40 → 1 ≤ s.loadLimit m → s.isFaulted f = false → s.present o .indexReady = false →
           t.slotStateByte m = 3 ∧ t.stage o = .waitIndex ∧ (t.context o).slot = some m ∧ t.stage f = .bound
             ∧ (t.context f).slot = some m ∧ t.queue o = (s.queue o).tail)
       ∧ (∀ j, j ≠ o → j ≠ f → t.spout j = s.spout j)) ∧
  (∀ (c : Instr) (o : SpoutId) (n : SlotId) (s : Machine.State), s.WorkLawful → s.port.exchange = .running →
     s.claimPending o = true → (s.context o).slot = some n → s.stage o = .waitIndex → s.queue o = [] →
     (s.order o).mark = .none → s.stage (followerOf o) ≠ .idle →
     let f := followerOf o
     let lost := (c = .silenceTimerExpiry o ∧ s.isFaulted o = false ∧ (s.receiver o).link = .present)
       ∨ (c = .silenceTimerExpiry f ∧ s.isFaulted f = false ∧ (s.receiver f).link = .present)
     let stopped := (s.order o).stopTaken = false ∧ (c = .allStop ∨ (c ≠ .allStop ∧ s.stopsOrder c o n))
     (∀ m, m = o ∨ m = f → (s.receiver m).link = .present → (s.receiver m).silence.isSome = true) →
     lost ∨ stopped →
     ∃ t, exec c s = .next t ∧ t.atRest o ∧ (t.context f).claim = none ∧ t.slotStateByte n = 4
       ∧ (lost → t.slotU8 n 3 = 6) ∧ (stopped → t.slotU8 n 3 = 3)
       ∧ (∀ e ∈ List.range (s.order o).count, t.entryCode n e = if s.entryCode n e = 0 then 21 else s.entryCode n e)
       ∧ t.gate o = s.gate o ∧ (t.channel f).delivered = (s.channel f).delivered)

/-- R64, R117, R175: a soft reset reaches a pair. Before the opening, or in RELEASING, both contexts are at rest at once,
unless a close of a faulted follower still runs; the PENDING entries become NOT_REACHED (21), but the one in hand in ZEROING
shows RESET (16; R98 beside R117, log entry 38). In an open stage every open gate of the pair is cut with cause RESET; a
follower that settles or has settled is at rest at once, its channel frozen, and one whose close runs stays. A leader in
SETTLING waits there, counting nothing, with its channel frozen, while the follower's close runs; where the follower's does
not run either, the compartment ends RESET (16), with the sum of both channels' G, and both are at rest. A leader in CLOSING
whose own close does not run is moved to SETTLING and acts as one found there (the model's choice, log entry 39). Later a
close that is taken freezes its channel, and the second ends the compartment. R53: a TWIN whose claim is still pending ends
at once, its claim withdrawn. That the result byte shows RESET (7) while the slot is still RUNNING (3) is the model's choice
(R117, R176 against R195; log entry 15). -/
def Obligations.TwinUnderSoftReset : Prop :=
  (∀ (o : SpoutId) (n : SlotId) (s : Machine.State), s.WorkLawful → s.port.exchange = .running → s.pair o →
     (s.context o).slot = some n →
     let f := followerOf o
     let phase := (s.context f).phase
     let freed := fun t : Machine.State => t.atRest f ∧ (t.context f).claim = none ∧ (t.channel f).integrating = false
     ∃ t, exec .softReset s = .next t ∧ t.slotStateByte n = 3
       ∧ (t.channel o).delivered = (s.channel o).delivered ∧ (t.channel f).delivered = (s.channel f).delivered
       ∧ (s.stage o = .waitIndex ∨ s.stage o = .engaging ∨ s.stage o = .zeroing ∨ s.stage o = .releasing →
           t.atRest o ∧ t.slotU8 n 3 = 7 ∧ (phase ≠ .closing → freed t)
             ∧ (∀ e ∈ List.range (s.order o).count, t.entryCode n e
               = if s.stage o = .zeroing ∧ e = (s.compartment o).index then 16
                 else if s.entryCode n e = 0 then 21 else s.entryCode n e)
             ∧ (phase = .closing → t.stage f = .bound ∧ (t.context f).phase = .closing))
       ∧ ((s.stage o).isOpen = true →
           t.stage o = .closing ∧ t.gateIsCut o ∧ (t.order o).mark = .reset
             ∧ (t.compartment o).cause = some ((s.compartment o).cause.getD .reset)
             ∧ ((s.gate f).isOpen = true → t.gateIsCut f ∧ t.stage f = .bound ∧ (t.context f).phase = .closing)
             ∧ ((s.gate f).isOpen = false → phase = .closing → t.stage f = .bound ∧ t.gate f = s.gate f)
             ∧ ((s.gate f).isOpen = false → phase = .settling ∨ phase = .settled → freed t))
       ∧ (s.stage o = .closing → (s.compartment o).closeAwaited = true →
           t.stage o = .closing ∧ t.gate o = s.gate o ∧ (t.order o).mark = .reset
             ∧ (t.compartment o).cause = some ((s.compartment o).cause.getD .reset)
             ∧ (phase = .closing → t.stage f = .bound ∧ t.gate f = s.gate f)
             ∧ (phase = .settling ∨ phase = .settled → freed t))
       ∧ (s.stage o = .settling ∨ (s.stage o = .closing ∧ (s.compartment o).closeAwaited = false) → phase = .closing →
           t.stage o = .settling ∧ t.gate o = s.gate o ∧ (t.compartment o).noSettle = true ∧ (t.channel o).integrating = false
             ∧ t.stage f = .bound ∧ t.gate f = s.gate f ∧ (t.order o).mark = .reset)
       ∧ (s.stage o = .settling ∨ (s.stage o = .closing ∧ (s.compartment o).closeAwaited = false) → phase ≠ .closing →
           (s.compartment o).opened = true →
           (s.compartment o).trimsUsed ≤ 3 → (s.channel o).delivered + (s.channel f).delivered ≤ 4294967295 →
           t.atRest o ∧ freed t ∧ (t.channel o).integrating = false ∧ t.slotU8 n 3 = 7
             ∧ t.entryShows n (s.compartment o).index 16 (((s.compartment o).secondary.map Code.value).getD 0)
               (s.compartment o).trimsUsed ((s.channel o).delivered + (s.channel f).delivered))) ∧
  (∀ (o m : SpoutId) (s : Machine.State), s.isTwin o = true → o.val % 2 = 0 → s.isBound o = false →
     (s.order o).mark = .reset → m = o ∨ m = followerOf o → s.changeDue m .gateClosed true → (s.gate m).output = .close →
     (s.gate m).retry = none → (s.gate m).failed = false →
     let f := followerOf o
     let closed := ((s.updateField m fun g => g.taking .gateClosed true).updateGate m fun g =>
       { g with close := none, hold := some 500 }).updateCompartment m fun x => { x with closeAwaited := false }
     let frozen := closed.updateChannel m fun x => { x with integrating := false }
     (m = o → s.stage o = .closing →
       let u := setStage o .settling (frozen.updateCompartment o fun x => { x with noSettle := true })
       exec (.debounceExpiry o .gateClosed) s
         = .next (if s.isBound f then u else finishCompartment react o false u))
     ∧ (m = f → s.isBound f = true → (s.context f).phase = .closing →
       let u := leaveBound f frozen
       exec (.debounceExpiry f .gateClosed) s
         = .next (if s.stage o = .settling then finishCompartment react o false u else u))) ∧
  (∀ (o : SpoutId) (x : Sample) (s : Machine.State), s.isBound o = false → s.stage o = .settling →
     (s.compartment o).noSettle = true → (s.calibration o).capture = .none → (s.gate o).starve = none →
     deliverSample react o x s = channelSample o x s) ∧
  (∀ (o : SpoutId) (n : SlotId) (s : Machine.State), s.WorkLawful → s.port.exchange = .running → s.claimPending o = true →
     (s.context o).slot = some n → s.stage o = .waitIndex →
     ∃ t, exec .softReset s = .next t ∧ t.atRest o ∧ (t.context (followerOf o)).claim = none
       ∧ t.slotStateByte n = 3 ∧ t.slotU8 n 3 = 7 ∧ t.queue o = s.queue o ∧ t.gate o = s.gate o
       ∧ (∀ e ∈ List.range (s.order o).count, t.entryCode n e = if s.entryCode n e = 0 then 21 else s.entryCode n e))

/-- R70, R71, R72: a qualifying cut record rewrites its entry and the entry's image, and no other entry. R69: what makes a
record with hold values qualify, and a record that does not, or that has no hold values, changes nothing. -/
def Obligations.QualifyingRecordIsLearned : Prop :=
  (∀ (r : CutRecord) (v : HoldValues) (s : Machine.State), r.hold = some v → r.qualifies v = true →
     let e := preactIndex r.spout r.product
     let inFlight := (r.final : Int) - v.deliveredAtCut
     let ideal : Int := if inFlight - r.offset ≤ 0 then 0 else (inFlight - r.offset) * 1000 / v.rateAtCut
     let step := max (-(r.maxStep : Int)) (min r.maxStep (Int.tdiv ((ideal - v.lagUsed) * r.gain) 16))
     let t := learnRecord r s
     (t.preact[e].lag : Int) = max 0 (min 5000 (v.lagUsed + step)) ∧ t.preact[e].origin = .learned
       ∧ t.preact[e].learnCount = min (s.preact[e].learnCount + 1) 65535
       ∧ t.preact[e].lastOvershoot = max (-2147483647) (min 2147483647 ((r.final : Int) - r.effectiveTarget))
       ∧ t.preact[e].keep = s.preact[e].keep ∧ (∀ e' : Fin 128, e' ≠ e → t.preact[e'] = s.preact[e'])
       ∧ SameSpouts s t ∧ SameMemoryOutside (0x0800 + e.val * 16) 12 s t
       ∧ t = writePreactImage e { s with preact := t.preact }) ∧
  (∀ (r : CutRecord) (v : HoldValues), r.qualifies v = true ↔
     (r.trimsUsed = 0 ∧ (r.code = .ok ∨ r.code = .under ∨ r.code = .over ∨ (r.code = .level ∧ r.levelAfterCut = true))
       ∧ r.minRate ≤ v.rateAtCut ∧ r.closeRetried = false ∧ r.stopPending = false ∧ r.settled = true)) ∧
  (∀ (r : CutRecord) (v : HoldValues) (s : Machine.State), r.hold = some v → r.qualifies v = false → learnRecord r s = s) ∧
  (∀ (r : CutRecord) (s : Machine.State), r.hold = none → learnRecord r s = s)

/-- R82, R86, R87: what one sample makes of the capture in progress: in band it is added, and the one that brings the count
to 64 or 1024 completes the capture; out of band, or with the gate not shut, it ends a short capture and restarts a long
one. A sample of an idle spout does just that to a short capture. R83, R90: a short capture completes: Z moves toward the
average by at most zero_step, inside the zero range; a post-settle one lowers the debt by one. R84: a long capture
completes: Z becomes the average, inside the zero range, and the debt is paid. R85, R167: ZERO_LIMIT rising sets the
spout-change flag. R92, R197: the capture of a running ZERO succeeds: the order ends OK (1) with Z before, Z after and
ZERO_LIMIT written, and the context at rest; here with an empty queue and no claim. -/
def Obligations.CapturesSetTheZero : Prop :=
  (∀ c : Calibration, c.Lawful →
     let average := Int.fdiv (c.captureSum + 32) 64
     let stepped := c.zero + max (-(c.profile.zeroStep : Int)) (min c.profile.zeroStep (average - c.zero))
     let held := max c.profile.zeroLow (min c.profile.zeroHigh stepped)
     let c' := c.completeShort
     c'.zero = held ∧ (c'.zeroLimit = true ↔ held ≠ stepped) ∧ c'.capture = .none
       ∧ c'.debt = (if c.capture = .shortSettle then c.debt - 1 else c.debt) ∧ c'.span = c.span ∧ c'.profile = c.profile) ∧
  (∀ c : Calibration, c.Lawful →
     let average := Int.fdiv (c.captureSum + 512) 1024
     let held := max c.profile.zeroLow (min c.profile.zeroHigh average)
     let c' := c.completeLong
     c'.zero = held ∧ (c'.zeroLimit = true ↔ held ≠ average) ∧ c'.debt = 0 ∧ c'.zeroTimeout = none
       ∧ c'.capture = .none ∧ c'.span = c.span ∧ c'.profile = c.profile) ∧
  (∀ (raw zero : Int) (shut : Bool) (c : Calibration),
     let inside := (raw - zero).natAbs ≤ c.profile.zeroBand ∧ shut = true
     let short := c.capture = .shortInterval ∨ c.capture = .shortSettle
     let long := c.capture = .longBlocking ∨ c.capture = .longOrder
     let gathered := { c with captureCount := c.captureCount + 1, captureSum := c.captureSum + raw }
     (c.capture = .none → c.captureSample raw zero shut = (c, .goesOn))
     ∧ (inside → (short → c.captureCount + 1 < 64) → (long → c.captureCount + 1 < 1024) → short ∨ long →
         c.captureSample raw zero shut = (gathered, .goesOn))
     ∧ (inside → short → c.captureCount = 63 → c.captureSample raw zero shut = (gathered.completeShort, .shortEnded))
     ∧ (inside → long → c.captureCount = 1023 →
         c.captureSample raw zero shut = (gathered.completeLong, .longCompleted c.capture))
     ∧ (¬ inside → short → c.captureSample raw zero shut
         = ({ c with capture := .none, captureCount := 0, captureSum := 0, zeroTimeout := none }, .shortEnded))
     ∧ (¬ inside → long → c.captureSample raw zero shut = ({ c with captureCount := 0, captureSum := 0 }, .goesOn))) ∧
  (∀ (i : SpoutId) (x : Sample) (s : Machine.State), s.stage i = .idle → (s.gate i).starve = none →
     (s.calibration i).capture = .shortInterval ∨ (s.calibration i).capture = .shortSettle →
     let c := s.calibration i
     let u := channelSample i x s
     let c' := (c.captureSample x.raw c.zero (s.present i .gateClosed)).1
     let raised := c'.zeroLimit = true ∧ c.zeroLimit = false
     let t := deliverSample react i x s
     t.calibration i = c' ∧ t.channel i = u.channel i ∧ t.context i = s.context i ∧ t.memory = s.memory
       ∧ (raised → t.port = { s.port with spoutChange := true }) ∧ (¬ raised → t.port = u.port)
       ∧ SameOtherSpouts i s t ∧ SameTables s t) ∧
  (∀ (i : SpoutId) (n : SlotId) (x : Sample) (s : Machine.State), s.memory.wf = true → s.stage i = .zeroRun → s.single i →
     (s.context i).slot = some n → s.queue i = [] → (s.context i).claim = none → s.hasProfile i = true →
     (s.calibration i).Lawful → (s.gate i).starve = none → (s.calibration i).capture = .longOrder →
     (s.calibration i).captureCount = 1023 →
     (x.raw - (s.calibration i).zero).natAbs ≤ (s.profile i).zeroBand → s.present i .gateClosed = true →
     let c := s.calibration i
     let average := Int.fdiv (c.captureSum + x.raw + 512) 1024
     let held := max c.profile.zeroLow (min c.profile.zeroHigh average)
     let t := deliverSample react i x s
     t.atRest i ∧ t.slotStateByte n = 4 ∧ t.slotU8 n 3 = 1 ∧ (t.calibration i).zero = held ∧ (t.calibration i).debt = 0
       ∧ (t.calibration i).capture = .none ∧ (t.calibration i).zeroTimeout = none
       ∧ signed16 (t.slotU16 n 0x10) = c.zero ∧ signed16 (t.slotU16 n 0x12) = held
       ∧ t.slotU8 n 0x14 = (if held = average then 0 else 1)
       ∧ (held ≠ average → c.zeroLimit = false → t.port.spoutChange = true)
       ∧ t.gate i = s.gate i ∧ t.positioner i = s.positioner i ∧ SameOtherSpouts i s t ∧ SameTables s t)

/-! ## What every step keeps -/

/-- The part right after power-on obeys every law of Safety.lean. -/
def Obligations.ResetIsLawful : Prop :=
  State.reset.Lawful ∧ State.reset.WorkLawful ∧ State.reset.SettingsLawful

/-- The exchange memory keeps the canonical form of its byte list, which is the model's own representation (log entry 26).
R154, R156, R166, R173: the port's counts, its window and its halted bit. -/
def Obligations.StepKeepsMemoryAndPortLawful : Prop :=
  (∀ s t : Machine.State, s.memory.wf = true → step s = .next t → t.memory.wf = true) ∧
  (∀ s t : Machine.State, s.port.Lawful → step s = .next t → t.port.Lawful)

/-- R140, R141, R147: every receiver. R124, R127, R133: every positioner asserts LOWER in LOWERING alone and RAISE in
RAISING alone, and an engage waits in RAISING alone. -/
def Obligations.StepKeepsReceiversAndPositionersLawful : Prop :=
  (∀ s t : Machine.State, (∀ i, (s.receiver i).Lawful) → step s = .next t → ∀ i, (t.receiver i).Lawful) ∧
  (∀ s t : Machine.State, (∀ i, (s.positioner i).Lawful) → step s = .next t → ∀ i, (t.positioner i).Lawful)

/-- R6, R7, R11, R15: every channel, and R4, R7: its window holds at most W increments. R81, R82, R87: every calibration:
the debt lies between 0 and 8, the zero of a valid profile in its zero range, the span in its span range. -/
def Obligations.StepKeepsChannelsAndCalibrationsLawful : Prop :=
  (∀ s t : Machine.State, (∀ i, (s.channel i).Lawful) → step s = .next t → ∀ i, (t.channel i).Lawful) ∧
  (∀ s t : Machine.State, (∀ i, (s.channel i).Lawful ∧ s.WindowLawful i) → step s = .next t → ∀ i, t.WindowLawful i) ∧
  (∀ s t : Machine.State, (∀ i, (s.calibration i).Lawful) → step s = .next t → ∀ i, (t.calibration i).Lawful)

/-- R66, R72: the counts of every preact entry. -/
def Obligations.StepKeepsTheTableLawful : Prop :=
  ∀ s t : Machine.State, (∀ e : Fin 128, (s.preact[e]).Lawful) → step s = .next t → ∀ e : Fin 128, (t.preact[e]).Lawful

/-- R22, R52, R54, R100, R163: a QUEUED slot stands in one queue, once, and no other slot in any; a context holds its slot
while it is not IDLE; only an odd spout is ever BOUND, holding the slot of its leader's TWIN; an open output is asserted
only of an ENGAGED spout with PERMIT present and LEVEL_HIGH absent, in an open compartment. -/
def Obligations.StepKeepsSlotsContextsAndGatesLawful : Prop :=
  ∀ s t : Machine.State, s.Lawful → s.WorkLawful → step s = .next t → t.WorkLawful

/-- R66, R95, R179, R182: a valid profile and a SET product stay within their ranges, the span of a valid profile within its
own, and every lag between 0 and 5000 ms. -/
def Obligations.StepKeepsSettingsLawful : Prop :=
  ∀ s t : Machine.State, s.WorkLawful → s.SettingsLawful → step s = .next t → t.SettingsLawful

/-- R173: HALTED is left by POWER_ON and HARD_RESET alone. -/
def Obligations.HaltedUntilReset : Prop :=
  ∀ (c : Instr) (s t : Machine.State), c ≠ .powerOn → c ≠ .hardReset → s.port.exchange = .halted →
    exec c s = .next t → t.port.exchange = .halted

/-- The sensor lines, the field lines and the timers leave alone the products (R178, R184), the exchange state and the count
of discarded writes (R154, R156), and a FAULTED spout stays FAULTED (R135, R137). -/
def Obligations.LinesAndTimersLeaveTheProducts : Prop :=
  ∀ (c : Instr) (s t : Machine.State), fromLines c = true → exec c s = .next t →
    t.products = s.products ∧ t.port.exchange = s.port.exchange ∧ t.port.protocolFaults = s.port.protocolFaults
      ∧ t.pending = s.pending ∧ ∀ i, s.isFaulted i = true → t.isFaulted i = true
end

