-- ==== Sys2Proof/Laws/State.lean ====
section
/-! SUPPORT. Reading one block of the state after an update of one block: one lemma for each pair, so that no proof unfolds a
record update. `_self` reads the updated spout, `_ne` another spout. -/

namespace Sys2Proof.Machine

theorem State.spout_updateSpout (s : State) (i j : SpoutId) (f : Spout → Spout) :
    (s.updateSpout i f).spout j = if j = i then f (s.spout i) else s.spout j := by
  by_cases h : j = i
  · subst h; simp [State.spout, State.updateSpout]
  · have : (i : Nat) ≠ j := fun e => h (Fin.ext e.symm)
    simp [State.spout, State.updateSpout, this, h]

@[simp] theorem State.spout_updateSpout_self (s : State) (i : SpoutId) (f : Spout → Spout) :
    (s.updateSpout i f).spout i = f (s.spout i) := by simp [State.spout_updateSpout]

@[simp] theorem State.spout_updateSpout_ne (s : State) {i j : SpoutId} (h : j ≠ i) (f : Spout → Spout) :
    (s.updateSpout i f).spout j = s.spout j := by simp [State.spout_updateSpout, h]

/-- A projection that an update of the spout's record leaves alone reads the same on every spout. -/
theorem State.spout_updateSpout_proj {α : Type} (g : Spout → α) (f : Spout → Spout) (h : ∀ p, g (f p) = g p)
    (s : State) (i j : SpoutId) : g ((s.updateSpout i f).spout j) = g (s.spout j) := by
  rw [State.spout_updateSpout]; split
  · next e => rw [h, e]
  · rfl

/-! ## After `updateReceiver` -/

@[simp] theorem State.port_updateReceiver (s : State) (i : SpoutId) (f : Receiver → Receiver) : (s.updateReceiver i f).port = s.port := rfl
@[simp] theorem State.memory_updateReceiver (s : State) (i : SpoutId) (f : Receiver → Receiver) : (s.updateReceiver i f).memory = s.memory := rfl
@[simp] theorem State.products_updateReceiver (s : State) (i : SpoutId) (f : Receiver → Receiver) : (s.updateReceiver i f).products = s.products := rfl
@[simp] theorem State.preact_updateReceiver (s : State) (i : SpoutId) (f : Receiver → Receiver) : (s.updateReceiver i f).preact = s.preact := rfl
@[simp] theorem State.freeCount_updateReceiver (s : State) (i : SpoutId) (f : Receiver → Receiver) : (s.updateReceiver i f).freeCount = s.freeCount := rfl
@[simp] theorem State.pending_updateReceiver (s : State) (i : SpoutId) (f : Receiver → Receiver) : (s.updateReceiver i f).pending = s.pending := rfl
@[simp] theorem State.receiver_updateReceiver_self (s : State) (i : SpoutId) (f : Receiver → Receiver) : (s.updateReceiver i f).receiver i = f (s.receiver i) := by
  simp [State.updateReceiver, State.receiver]
@[simp] theorem State.receiver_updateReceiver_ne (s : State) {i j : SpoutId} (h : j ≠ i) (f : Receiver → Receiver) : (s.updateReceiver i f).receiver j = s.receiver j := by
  simp [State.updateReceiver, State.receiver, h]
@[simp] theorem State.handed_updateReceiver (s : State) (i j : SpoutId) (f : Receiver → Receiver) : (s.updateReceiver i f).handed j = s.handed j :=
  State.spout_updateSpout_proj Spout.handed (fun p => { p with receiver := f p.receiver }) (fun _ => rfl) s i j
@[simp] theorem State.channel_updateReceiver (s : State) (i j : SpoutId) (f : Receiver → Receiver) : (s.updateReceiver i f).channel j = s.channel j :=
  State.spout_updateSpout_proj Spout.channel (fun p => { p with receiver := f p.receiver }) (fun _ => rfl) s i j
@[simp] theorem State.calibration_updateReceiver (s : State) (i j : SpoutId) (f : Receiver → Receiver) : (s.updateReceiver i f).calibration j = s.calibration j :=
  State.spout_updateSpout_proj Spout.calibration (fun p => { p with receiver := f p.receiver }) (fun _ => rfl) s i j
@[simp] theorem State.positioner_updateReceiver (s : State) (i j : SpoutId) (f : Receiver → Receiver) : (s.updateReceiver i f).positioner j = s.positioner j :=
  State.spout_updateSpout_proj Spout.positioner (fun p => { p with receiver := f p.receiver }) (fun _ => rfl) s i j
@[simp] theorem State.field_updateReceiver (s : State) (i j : SpoutId) (f : Receiver → Receiver) : (s.updateReceiver i f).field j = s.field j :=
  State.spout_updateSpout_proj Spout.field (fun p => { p with receiver := f p.receiver }) (fun _ => rfl) s i j
@[simp] theorem State.context_updateReceiver (s : State) (i j : SpoutId) (f : Receiver → Receiver) : (s.updateReceiver i f).context j = s.context j :=
  State.spout_updateSpout_proj Spout.context (fun p => { p with receiver := f p.receiver }) (fun _ => rfl) s i j
@[simp] theorem State.queue_updateReceiver (s : State) (i j : SpoutId) (f : Receiver → Receiver) : (s.updateReceiver i f).queue j = s.queue j :=
  State.spout_updateSpout_proj Spout.queue (fun p => { p with receiver := f p.receiver }) (fun _ => rfl) s i j
@[simp] theorem State.profile_updateReceiver (s : State) (i j : SpoutId) (f : Receiver → Receiver) : (s.updateReceiver i f).profile j = s.profile j :=
  State.spout_updateSpout_proj (fun p => p.calibration.profile) (fun p => { p with receiver := f p.receiver }) (fun _ => rfl) s i j
@[simp] theorem State.hasProfile_updateReceiver (s : State) (i j : SpoutId) (f : Receiver → Receiver) : (s.updateReceiver i f).hasProfile j = s.hasProfile j :=
  State.spout_updateSpout_proj (fun p => p.calibration.profileValid) (fun p => { p with receiver := f p.receiver }) (fun _ => rfl) s i j
@[simp] theorem State.isFaulted_updateReceiver (s : State) (i j : SpoutId) (f : Receiver → Receiver) : (s.updateReceiver i f).isFaulted j = s.isFaulted j :=
  State.spout_updateSpout_proj (fun p => p.positioner.position == .faulted) (fun p => { p with receiver := f p.receiver }) (fun _ => rfl) s i j
@[simp] theorem State.inputsTaken_updateReceiver (s : State) (i j : SpoutId) (f : Receiver → Receiver) : (s.updateReceiver i f).inputsTaken j = s.inputsTaken j :=
  State.spout_updateSpout_proj (fun p => p.field.allTaken) (fun p => { p with receiver := f p.receiver }) (fun _ => rfl) s i j
@[simp] theorem State.stage_updateReceiver (s : State) (i j : SpoutId) (f : Receiver → Receiver) : (s.updateReceiver i f).stage j = s.stage j :=
  State.spout_updateSpout_proj (fun p => p.context.stage) (fun p => { p with receiver := f p.receiver }) (fun _ => rfl) s i j
@[simp] theorem State.isBound_updateReceiver (s : State) (i j : SpoutId) (f : Receiver → Receiver) : (s.updateReceiver i f).isBound j = s.isBound j :=
  State.spout_updateSpout_proj (fun p => p.context.stage == .bound) (fun p => { p with receiver := f p.receiver }) (fun _ => rfl) s i j
@[simp] theorem State.compartment_updateReceiver (s : State) (i j : SpoutId) (f : Receiver → Receiver) : (s.updateReceiver i f).compartment j = s.compartment j :=
  State.spout_updateSpout_proj (fun p => p.context.compartment) (fun p => { p with receiver := f p.receiver }) (fun _ => rfl) s i j
@[simp] theorem State.order_updateReceiver (s : State) (i j : SpoutId) (f : Receiver → Receiver) : (s.updateReceiver i f).order j = s.order j :=
  State.spout_updateSpout_proj (fun p => p.context.order) (fun p => { p with receiver := f p.receiver }) (fun _ => rfl) s i j
@[simp] theorem State.gate_updateReceiver (s : State) (i j : SpoutId) (f : Receiver → Receiver) : (s.updateReceiver i f).gate j = s.gate j :=
  State.spout_updateSpout_proj (fun p => p.context.gate) (fun p => { p with receiver := f p.receiver }) (fun _ => rfl) s i j

/-! ## After `updateChannel` -/

@[simp] theorem State.port_updateChannel (s : State) (i : SpoutId) (f : Channel → Channel) : (s.updateChannel i f).port = s.port := rfl
@[simp] theorem State.memory_updateChannel (s : State) (i : SpoutId) (f : Channel → Channel) : (s.updateChannel i f).memory = s.memory := rfl
@[simp] theorem State.products_updateChannel (s : State) (i : SpoutId) (f : Channel → Channel) : (s.updateChannel i f).products = s.products := rfl
@[simp] theorem State.preact_updateChannel (s : State) (i : SpoutId) (f : Channel → Channel) : (s.updateChannel i f).preact = s.preact := rfl
@[simp] theorem State.freeCount_updateChannel (s : State) (i : SpoutId) (f : Channel → Channel) : (s.updateChannel i f).freeCount = s.freeCount := rfl
@[simp] theorem State.pending_updateChannel (s : State) (i : SpoutId) (f : Channel → Channel) : (s.updateChannel i f).pending = s.pending := rfl
@[simp] theorem State.receiver_updateChannel (s : State) (i j : SpoutId) (f : Channel → Channel) : (s.updateChannel i f).receiver j = s.receiver j :=
  State.spout_updateSpout_proj Spout.receiver (fun p => { p with channel := f p.channel }) (fun _ => rfl) s i j
@[simp] theorem State.handed_updateChannel (s : State) (i j : SpoutId) (f : Channel → Channel) : (s.updateChannel i f).handed j = s.handed j :=
  State.spout_updateSpout_proj Spout.handed (fun p => { p with channel := f p.channel }) (fun _ => rfl) s i j
@[simp] theorem State.channel_updateChannel_self (s : State) (i : SpoutId) (f : Channel → Channel) : (s.updateChannel i f).channel i = f (s.channel i) := by
  simp [State.updateChannel, State.channel]
@[simp] theorem State.channel_updateChannel_ne (s : State) {i j : SpoutId} (h : j ≠ i) (f : Channel → Channel) : (s.updateChannel i f).channel j = s.channel j := by
  simp [State.updateChannel, State.channel, h]
@[simp] theorem State.calibration_updateChannel (s : State) (i j : SpoutId) (f : Channel → Channel) : (s.updateChannel i f).calibration j = s.calibration j :=
  State.spout_updateSpout_proj Spout.calibration (fun p => { p with channel := f p.channel }) (fun _ => rfl) s i j
@[simp] theorem State.positioner_updateChannel (s : State) (i j : SpoutId) (f : Channel → Channel) : (s.updateChannel i f).positioner j = s.positioner j :=
  State.spout_updateSpout_proj Spout.positioner (fun p => { p with channel := f p.channel }) (fun _ => rfl) s i j
@[simp] theorem State.field_updateChannel (s : State) (i j : SpoutId) (f : Channel → Channel) : (s.updateChannel i f).field j = s.field j :=
  State.spout_updateSpout_proj Spout.field (fun p => { p with channel := f p.channel }) (fun _ => rfl) s i j
@[simp] theorem State.context_updateChannel (s : State) (i j : SpoutId) (f : Channel → Channel) : (s.updateChannel i f).context j = s.context j :=
  State.spout_updateSpout_proj Spout.context (fun p => { p with channel := f p.channel }) (fun _ => rfl) s i j
@[simp] theorem State.queue_updateChannel (s : State) (i j : SpoutId) (f : Channel → Channel) : (s.updateChannel i f).queue j = s.queue j :=
  State.spout_updateSpout_proj Spout.queue (fun p => { p with channel := f p.channel }) (fun _ => rfl) s i j
@[simp] theorem State.profile_updateChannel (s : State) (i j : SpoutId) (f : Channel → Channel) : (s.updateChannel i f).profile j = s.profile j :=
  State.spout_updateSpout_proj (fun p => p.calibration.profile) (fun p => { p with channel := f p.channel }) (fun _ => rfl) s i j
@[simp] theorem State.hasProfile_updateChannel (s : State) (i j : SpoutId) (f : Channel → Channel) : (s.updateChannel i f).hasProfile j = s.hasProfile j :=
  State.spout_updateSpout_proj (fun p => p.calibration.profileValid) (fun p => { p with channel := f p.channel }) (fun _ => rfl) s i j
@[simp] theorem State.isFaulted_updateChannel (s : State) (i j : SpoutId) (f : Channel → Channel) : (s.updateChannel i f).isFaulted j = s.isFaulted j :=
  State.spout_updateSpout_proj (fun p => p.positioner.position == .faulted) (fun p => { p with channel := f p.channel }) (fun _ => rfl) s i j
@[simp] theorem State.inputsTaken_updateChannel (s : State) (i j : SpoutId) (f : Channel → Channel) : (s.updateChannel i f).inputsTaken j = s.inputsTaken j :=
  State.spout_updateSpout_proj (fun p => p.field.allTaken) (fun p => { p with channel := f p.channel }) (fun _ => rfl) s i j
@[simp] theorem State.stage_updateChannel (s : State) (i j : SpoutId) (f : Channel → Channel) : (s.updateChannel i f).stage j = s.stage j :=
  State.spout_updateSpout_proj (fun p => p.context.stage) (fun p => { p with channel := f p.channel }) (fun _ => rfl) s i j
@[simp] theorem State.isBound_updateChannel (s : State) (i j : SpoutId) (f : Channel → Channel) : (s.updateChannel i f).isBound j = s.isBound j :=
  State.spout_updateSpout_proj (fun p => p.context.stage == .bound) (fun p => { p with channel := f p.channel }) (fun _ => rfl) s i j
@[simp] theorem State.compartment_updateChannel (s : State) (i j : SpoutId) (f : Channel → Channel) : (s.updateChannel i f).compartment j = s.compartment j :=
  State.spout_updateSpout_proj (fun p => p.context.compartment) (fun p => { p with channel := f p.channel }) (fun _ => rfl) s i j
@[simp] theorem State.order_updateChannel (s : State) (i j : SpoutId) (f : Channel → Channel) : (s.updateChannel i f).order j = s.order j :=
  State.spout_updateSpout_proj (fun p => p.context.order) (fun p => { p with channel := f p.channel }) (fun _ => rfl) s i j
@[simp] theorem State.gate_updateChannel (s : State) (i j : SpoutId) (f : Channel → Channel) : (s.updateChannel i f).gate j = s.gate j :=
  State.spout_updateSpout_proj (fun p => p.context.gate) (fun p => { p with channel := f p.channel }) (fun _ => rfl) s i j

/-! ## After `updateCalibration` -/

@[simp] theorem State.port_updateCalibration (s : State) (i : SpoutId) (f : Calibration → Calibration) : (s.updateCalibration i f).port = s.port := rfl
@[simp] theorem State.memory_updateCalibration (s : State) (i : SpoutId) (f : Calibration → Calibration) : (s.updateCalibration i f).memory = s.memory := rfl
@[simp] theorem State.products_updateCalibration (s : State) (i : SpoutId) (f : Calibration → Calibration) : (s.updateCalibration i f).products = s.products := rfl
@[simp] theorem State.preact_updateCalibration (s : State) (i : SpoutId) (f : Calibration → Calibration) : (s.updateCalibration i f).preact = s.preact := rfl
@[simp] theorem State.freeCount_updateCalibration (s : State) (i : SpoutId) (f : Calibration → Calibration) : (s.updateCalibration i f).freeCount = s.freeCount := rfl
@[simp] theorem State.pending_updateCalibration (s : State) (i : SpoutId) (f : Calibration → Calibration) : (s.updateCalibration i f).pending = s.pending := rfl
@[simp] theorem State.receiver_updateCalibration (s : State) (i j : SpoutId) (f : Calibration → Calibration) : (s.updateCalibration i f).receiver j = s.receiver j :=
  State.spout_updateSpout_proj Spout.receiver (fun p => { p with calibration := f p.calibration }) (fun _ => rfl) s i j
@[simp] theorem State.handed_updateCalibration (s : State) (i j : SpoutId) (f : Calibration → Calibration) : (s.updateCalibration i f).handed j = s.handed j :=
  State.spout_updateSpout_proj Spout.handed (fun p => { p with calibration := f p.calibration }) (fun _ => rfl) s i j
@[simp] theorem State.channel_updateCalibration (s : State) (i j : SpoutId) (f : Calibration → Calibration) : (s.updateCalibration i f).channel j = s.channel j :=
  State.spout_updateSpout_proj Spout.channel (fun p => { p with calibration := f p.calibration }) (fun _ => rfl) s i j
@[simp] theorem State.calibration_updateCalibration_self (s : State) (i : SpoutId) (f : Calibration → Calibration) : (s.updateCalibration i f).calibration i = f (s.calibration i) := by
  simp [State.updateCalibration, State.calibration]
@[simp] theorem State.calibration_updateCalibration_ne (s : State) {i j : SpoutId} (h : j ≠ i) (f : Calibration → Calibration) : (s.updateCalibration i f).calibration j = s.calibration j := by
  simp [State.updateCalibration, State.calibration, h]
@[simp] theorem State.positioner_updateCalibration (s : State) (i j : SpoutId) (f : Calibration → Calibration) : (s.updateCalibration i f).positioner j = s.positioner j :=
  State.spout_updateSpout_proj Spout.positioner (fun p => { p with calibration := f p.calibration }) (fun _ => rfl) s i j
@[simp] theorem State.field_updateCalibration (s : State) (i j : SpoutId) (f : Calibration → Calibration) : (s.updateCalibration i f).field j = s.field j :=
  State.spout_updateSpout_proj Spout.field (fun p => { p with calibration := f p.calibration }) (fun _ => rfl) s i j
@[simp] theorem State.context_updateCalibration (s : State) (i j : SpoutId) (f : Calibration → Calibration) : (s.updateCalibration i f).context j = s.context j :=
  State.spout_updateSpout_proj Spout.context (fun p => { p with calibration := f p.calibration }) (fun _ => rfl) s i j
@[simp] theorem State.queue_updateCalibration (s : State) (i j : SpoutId) (f : Calibration → Calibration) : (s.updateCalibration i f).queue j = s.queue j :=
  State.spout_updateSpout_proj Spout.queue (fun p => { p with calibration := f p.calibration }) (fun _ => rfl) s i j
@[simp] theorem State.profile_updateCalibration_self (s : State) (i : SpoutId) (f : Calibration → Calibration) : (s.updateCalibration i f).profile i = (f (s.calibration i)).profile := by
  simp [State.updateCalibration, State.profile, State.calibration]
@[simp] theorem State.profile_updateCalibration_ne (s : State) {i j : SpoutId} (h : j ≠ i) (f : Calibration → Calibration) : (s.updateCalibration i f).profile j = s.profile j := by
  simp [State.updateCalibration, State.profile, State.calibration, h]
@[simp] theorem State.hasProfile_updateCalibration_self (s : State) (i : SpoutId) (f : Calibration → Calibration) : (s.updateCalibration i f).hasProfile i = (f (s.calibration i)).profileValid := by
  simp [State.updateCalibration, State.hasProfile, State.calibration]
@[simp] theorem State.hasProfile_updateCalibration_ne (s : State) {i j : SpoutId} (h : j ≠ i) (f : Calibration → Calibration) : (s.updateCalibration i f).hasProfile j = s.hasProfile j := by
  simp [State.updateCalibration, State.hasProfile, State.calibration, h]
@[simp] theorem State.isFaulted_updateCalibration (s : State) (i j : SpoutId) (f : Calibration → Calibration) : (s.updateCalibration i f).isFaulted j = s.isFaulted j :=
  State.spout_updateSpout_proj (fun p => p.positioner.position == .faulted) (fun p => { p with calibration := f p.calibration }) (fun _ => rfl) s i j
@[simp] theorem State.inputsTaken_updateCalibration (s : State) (i j : SpoutId) (f : Calibration → Calibration) : (s.updateCalibration i f).inputsTaken j = s.inputsTaken j :=
  State.spout_updateSpout_proj (fun p => p.field.allTaken) (fun p => { p with calibration := f p.calibration }) (fun _ => rfl) s i j
@[simp] theorem State.stage_updateCalibration (s : State) (i j : SpoutId) (f : Calibration → Calibration) : (s.updateCalibration i f).stage j = s.stage j :=
  State.spout_updateSpout_proj (fun p => p.context.stage) (fun p => { p with calibration := f p.calibration }) (fun _ => rfl) s i j
@[simp] theorem State.isBound_updateCalibration (s : State) (i j : SpoutId) (f : Calibration → Calibration) : (s.updateCalibration i f).isBound j = s.isBound j :=
  State.spout_updateSpout_proj (fun p => p.context.stage == .bound) (fun p => { p with calibration := f p.calibration }) (fun _ => rfl) s i j
@[simp] theorem State.compartment_updateCalibration (s : State) (i j : SpoutId) (f : Calibration → Calibration) : (s.updateCalibration i f).compartment j = s.compartment j :=
  State.spout_updateSpout_proj (fun p => p.context.compartment) (fun p => { p with calibration := f p.calibration }) (fun _ => rfl) s i j
@[simp] theorem State.order_updateCalibration (s : State) (i j : SpoutId) (f : Calibration → Calibration) : (s.updateCalibration i f).order j = s.order j :=
  State.spout_updateSpout_proj (fun p => p.context.order) (fun p => { p with calibration := f p.calibration }) (fun _ => rfl) s i j
@[simp] theorem State.gate_updateCalibration (s : State) (i j : SpoutId) (f : Calibration → Calibration) : (s.updateCalibration i f).gate j = s.gate j :=
  State.spout_updateSpout_proj (fun p => p.context.gate) (fun p => { p with calibration := f p.calibration }) (fun _ => rfl) s i j

/-! ## After `updatePositioner` -/

@[simp] theorem State.port_updatePositioner (s : State) (i : SpoutId) (f : Positioner → Positioner) : (s.updatePositioner i f).port = s.port := rfl
@[simp] theorem State.memory_updatePositioner (s : State) (i : SpoutId) (f : Positioner → Positioner) : (s.updatePositioner i f).memory = s.memory := rfl
@[simp] theorem State.products_updatePositioner (s : State) (i : SpoutId) (f : Positioner → Positioner) : (s.updatePositioner i f).products = s.products := rfl
@[simp] theorem State.preact_updatePositioner (s : State) (i : SpoutId) (f : Positioner → Positioner) : (s.updatePositioner i f).preact = s.preact := rfl
@[simp] theorem State.freeCount_updatePositioner (s : State) (i : SpoutId) (f : Positioner → Positioner) : (s.updatePositioner i f).freeCount = s.freeCount := rfl
@[simp] theorem State.pending_updatePositioner (s : State) (i : SpoutId) (f : Positioner → Positioner) : (s.updatePositioner i f).pending = s.pending := rfl
@[simp] theorem State.receiver_updatePositioner (s : State) (i j : SpoutId) (f : Positioner → Positioner) : (s.updatePositioner i f).receiver j = s.receiver j :=
  State.spout_updateSpout_proj Spout.receiver (fun p => { p with positioner := f p.positioner }) (fun _ => rfl) s i j
@[simp] theorem State.handed_updatePositioner (s : State) (i j : SpoutId) (f : Positioner → Positioner) : (s.updatePositioner i f).handed j = s.handed j :=
  State.spout_updateSpout_proj Spout.handed (fun p => { p with positioner := f p.positioner }) (fun _ => rfl) s i j
@[simp] theorem State.channel_updatePositioner (s : State) (i j : SpoutId) (f : Positioner → Positioner) : (s.updatePositioner i f).channel j = s.channel j :=
  State.spout_updateSpout_proj Spout.channel (fun p => { p with positioner := f p.positioner }) (fun _ => rfl) s i j
@[simp] theorem State.calibration_updatePositioner (s : State) (i j : SpoutId) (f : Positioner → Positioner) : (s.updatePositioner i f).calibration j = s.calibration j :=
  State.spout_updateSpout_proj Spout.calibration (fun p => { p with positioner := f p.positioner }) (fun _ => rfl) s i j
@[simp] theorem State.positioner_updatePositioner_self (s : State) (i : SpoutId) (f : Positioner → Positioner) : (s.updatePositioner i f).positioner i = f (s.positioner i) := by
  simp [State.updatePositioner, State.positioner]
@[simp] theorem State.positioner_updatePositioner_ne (s : State) {i j : SpoutId} (h : j ≠ i) (f : Positioner → Positioner) : (s.updatePositioner i f).positioner j = s.positioner j := by
  simp [State.updatePositioner, State.positioner, h]
@[simp] theorem State.field_updatePositioner (s : State) (i j : SpoutId) (f : Positioner → Positioner) : (s.updatePositioner i f).field j = s.field j :=
  State.spout_updateSpout_proj Spout.field (fun p => { p with positioner := f p.positioner }) (fun _ => rfl) s i j
@[simp] theorem State.context_updatePositioner (s : State) (i j : SpoutId) (f : Positioner → Positioner) : (s.updatePositioner i f).context j = s.context j :=
  State.spout_updateSpout_proj Spout.context (fun p => { p with positioner := f p.positioner }) (fun _ => rfl) s i j
@[simp] theorem State.queue_updatePositioner (s : State) (i j : SpoutId) (f : Positioner → Positioner) : (s.updatePositioner i f).queue j = s.queue j :=
  State.spout_updateSpout_proj Spout.queue (fun p => { p with positioner := f p.positioner }) (fun _ => rfl) s i j
@[simp] theorem State.profile_updatePositioner (s : State) (i j : SpoutId) (f : Positioner → Positioner) : (s.updatePositioner i f).profile j = s.profile j :=
  State.spout_updateSpout_proj (fun p => p.calibration.profile) (fun p => { p with positioner := f p.positioner }) (fun _ => rfl) s i j
@[simp] theorem State.hasProfile_updatePositioner (s : State) (i j : SpoutId) (f : Positioner → Positioner) : (s.updatePositioner i f).hasProfile j = s.hasProfile j :=
  State.spout_updateSpout_proj (fun p => p.calibration.profileValid) (fun p => { p with positioner := f p.positioner }) (fun _ => rfl) s i j
@[simp] theorem State.isFaulted_updatePositioner_self (s : State) (i : SpoutId) (f : Positioner → Positioner) : (s.updatePositioner i f).isFaulted i = ((f (s.positioner i)).position == .faulted) := by
  simp [State.updatePositioner, State.isFaulted, State.positioner]
@[simp] theorem State.isFaulted_updatePositioner_ne (s : State) {i j : SpoutId} (h : j ≠ i) (f : Positioner → Positioner) : (s.updatePositioner i f).isFaulted j = s.isFaulted j := by
  simp [State.updatePositioner, State.isFaulted, State.positioner, h]
@[simp] theorem State.inputsTaken_updatePositioner (s : State) (i j : SpoutId) (f : Positioner → Positioner) : (s.updatePositioner i f).inputsTaken j = s.inputsTaken j :=
  State.spout_updateSpout_proj (fun p => p.field.allTaken) (fun p => { p with positioner := f p.positioner }) (fun _ => rfl) s i j
@[simp] theorem State.stage_updatePositioner (s : State) (i j : SpoutId) (f : Positioner → Positioner) : (s.updatePositioner i f).stage j = s.stage j :=
  State.spout_updateSpout_proj (fun p => p.context.stage) (fun p => { p with positioner := f p.positioner }) (fun _ => rfl) s i j
@[simp] theorem State.isBound_updatePositioner (s : State) (i j : SpoutId) (f : Positioner → Positioner) : (s.updatePositioner i f).isBound j = s.isBound j :=
  State.spout_updateSpout_proj (fun p => p.context.stage == .bound) (fun p => { p with positioner := f p.positioner }) (fun _ => rfl) s i j
@[simp] theorem State.compartment_updatePositioner (s : State) (i j : SpoutId) (f : Positioner → Positioner) : (s.updatePositioner i f).compartment j = s.compartment j :=
  State.spout_updateSpout_proj (fun p => p.context.compartment) (fun p => { p with positioner := f p.positioner }) (fun _ => rfl) s i j
@[simp] theorem State.order_updatePositioner (s : State) (i j : SpoutId) (f : Positioner → Positioner) : (s.updatePositioner i f).order j = s.order j :=
  State.spout_updateSpout_proj (fun p => p.context.order) (fun p => { p with positioner := f p.positioner }) (fun _ => rfl) s i j
@[simp] theorem State.gate_updatePositioner (s : State) (i j : SpoutId) (f : Positioner → Positioner) : (s.updatePositioner i f).gate j = s.gate j :=
  State.spout_updateSpout_proj (fun p => p.context.gate) (fun p => { p with positioner := f p.positioner }) (fun _ => rfl) s i j

/-! ## After `updateField` -/

@[simp] theorem State.port_updateField (s : State) (i : SpoutId) (f : FieldGroup → FieldGroup) : (s.updateField i f).port = s.port := rfl
@[simp] theorem State.memory_updateField (s : State) (i : SpoutId) (f : FieldGroup → FieldGroup) : (s.updateField i f).memory = s.memory := rfl
@[simp] theorem State.products_updateField (s : State) (i : SpoutId) (f : FieldGroup → FieldGroup) : (s.updateField i f).products = s.products := rfl
@[simp] theorem State.preact_updateField (s : State) (i : SpoutId) (f : FieldGroup → FieldGroup) : (s.updateField i f).preact = s.preact := rfl
@[simp] theorem State.freeCount_updateField (s : State) (i : SpoutId) (f : FieldGroup → FieldGroup) : (s.updateField i f).freeCount = s.freeCount := rfl
@[simp] theorem State.pending_updateField (s : State) (i : SpoutId) (f : FieldGroup → FieldGroup) : (s.updateField i f).pending = s.pending := rfl
@[simp] theorem State.receiver_updateField (s : State) (i j : SpoutId) (f : FieldGroup → FieldGroup) : (s.updateField i f).receiver j = s.receiver j :=
  State.spout_updateSpout_proj Spout.receiver (fun p => { p with field := f p.field }) (fun _ => rfl) s i j
@[simp] theorem State.handed_updateField (s : State) (i j : SpoutId) (f : FieldGroup → FieldGroup) : (s.updateField i f).handed j = s.handed j :=
  State.spout_updateSpout_proj Spout.handed (fun p => { p with field := f p.field }) (fun _ => rfl) s i j
@[simp] theorem State.channel_updateField (s : State) (i j : SpoutId) (f : FieldGroup → FieldGroup) : (s.updateField i f).channel j = s.channel j :=
  State.spout_updateSpout_proj Spout.channel (fun p => { p with field := f p.field }) (fun _ => rfl) s i j
@[simp] theorem State.calibration_updateField (s : State) (i j : SpoutId) (f : FieldGroup → FieldGroup) : (s.updateField i f).calibration j = s.calibration j :=
  State.spout_updateSpout_proj Spout.calibration (fun p => { p with field := f p.field }) (fun _ => rfl) s i j
@[simp] theorem State.positioner_updateField (s : State) (i j : SpoutId) (f : FieldGroup → FieldGroup) : (s.updateField i f).positioner j = s.positioner j :=
  State.spout_updateSpout_proj Spout.positioner (fun p => { p with field := f p.field }) (fun _ => rfl) s i j
@[simp] theorem State.field_updateField_self (s : State) (i : SpoutId) (f : FieldGroup → FieldGroup) : (s.updateField i f).field i = f (s.field i) := by
  simp [State.updateField, State.field]
@[simp] theorem State.field_updateField_ne (s : State) {i j : SpoutId} (h : j ≠ i) (f : FieldGroup → FieldGroup) : (s.updateField i f).field j = s.field j := by
  simp [State.updateField, State.field, h]
@[simp] theorem State.context_updateField (s : State) (i j : SpoutId) (f : FieldGroup → FieldGroup) : (s.updateField i f).context j = s.context j :=
  State.spout_updateSpout_proj Spout.context (fun p => { p with field := f p.field }) (fun _ => rfl) s i j
@[simp] theorem State.queue_updateField (s : State) (i j : SpoutId) (f : FieldGroup → FieldGroup) : (s.updateField i f).queue j = s.queue j :=
  State.spout_updateSpout_proj Spout.queue (fun p => { p with field := f p.field }) (fun _ => rfl) s i j
@[simp] theorem State.profile_updateField (s : State) (i j : SpoutId) (f : FieldGroup → FieldGroup) : (s.updateField i f).profile j = s.profile j :=
  State.spout_updateSpout_proj (fun p => p.calibration.profile) (fun p => { p with field := f p.field }) (fun _ => rfl) s i j
@[simp] theorem State.hasProfile_updateField (s : State) (i j : SpoutId) (f : FieldGroup → FieldGroup) : (s.updateField i f).hasProfile j = s.hasProfile j :=
  State.spout_updateSpout_proj (fun p => p.calibration.profileValid) (fun p => { p with field := f p.field }) (fun _ => rfl) s i j
@[simp] theorem State.isFaulted_updateField (s : State) (i j : SpoutId) (f : FieldGroup → FieldGroup) : (s.updateField i f).isFaulted j = s.isFaulted j :=
  State.spout_updateSpout_proj (fun p => p.positioner.position == .faulted) (fun p => { p with field := f p.field }) (fun _ => rfl) s i j
@[simp] theorem State.inputsTaken_updateField_self (s : State) (i : SpoutId) (f : FieldGroup → FieldGroup) : (s.updateField i f).inputsTaken i = (f (s.field i)).allTaken := by
  simp [State.updateField, State.inputsTaken, State.field]
@[simp] theorem State.inputsTaken_updateField_ne (s : State) {i j : SpoutId} (h : j ≠ i) (f : FieldGroup → FieldGroup) : (s.updateField i f).inputsTaken j = s.inputsTaken j := by
  simp [State.updateField, State.inputsTaken, State.field, h]
@[simp] theorem State.stage_updateField (s : State) (i j : SpoutId) (f : FieldGroup → FieldGroup) : (s.updateField i f).stage j = s.stage j :=
  State.spout_updateSpout_proj (fun p => p.context.stage) (fun p => { p with field := f p.field }) (fun _ => rfl) s i j
@[simp] theorem State.isBound_updateField (s : State) (i j : SpoutId) (f : FieldGroup → FieldGroup) : (s.updateField i f).isBound j = s.isBound j :=
  State.spout_updateSpout_proj (fun p => p.context.stage == .bound) (fun p => { p with field := f p.field }) (fun _ => rfl) s i j
@[simp] theorem State.compartment_updateField (s : State) (i j : SpoutId) (f : FieldGroup → FieldGroup) : (s.updateField i f).compartment j = s.compartment j :=
  State.spout_updateSpout_proj (fun p => p.context.compartment) (fun p => { p with field := f p.field }) (fun _ => rfl) s i j
@[simp] theorem State.order_updateField (s : State) (i j : SpoutId) (f : FieldGroup → FieldGroup) : (s.updateField i f).order j = s.order j :=
  State.spout_updateSpout_proj (fun p => p.context.order) (fun p => { p with field := f p.field }) (fun _ => rfl) s i j
@[simp] theorem State.gate_updateField (s : State) (i j : SpoutId) (f : FieldGroup → FieldGroup) : (s.updateField i f).gate j = s.gate j :=
  State.spout_updateSpout_proj (fun p => p.context.gate) (fun p => { p with field := f p.field }) (fun _ => rfl) s i j

/-! ## After `updateContext` -/

@[simp] theorem State.port_updateContext (s : State) (i : SpoutId) (f : Context → Context) : (s.updateContext i f).port = s.port := rfl
@[simp] theorem State.memory_updateContext (s : State) (i : SpoutId) (f : Context → Context) : (s.updateContext i f).memory = s.memory := rfl
@[simp] theorem State.products_updateContext (s : State) (i : SpoutId) (f : Context → Context) : (s.updateContext i f).products = s.products := rfl
@[simp] theorem State.preact_updateContext (s : State) (i : SpoutId) (f : Context → Context) : (s.updateContext i f).preact = s.preact := rfl
@[simp] theorem State.freeCount_updateContext (s : State) (i : SpoutId) (f : Context → Context) : (s.updateContext i f).freeCount = s.freeCount := rfl
@[simp] theorem State.pending_updateContext (s : State) (i : SpoutId) (f : Context → Context) : (s.updateContext i f).pending = s.pending := rfl
@[simp] theorem State.receiver_updateContext (s : State) (i j : SpoutId) (f : Context → Context) : (s.updateContext i f).receiver j = s.receiver j :=
  State.spout_updateSpout_proj Spout.receiver (fun p => { p with context := f p.context }) (fun _ => rfl) s i j
@[simp] theorem State.handed_updateContext (s : State) (i j : SpoutId) (f : Context → Context) : (s.updateContext i f).handed j = s.handed j :=
  State.spout_updateSpout_proj Spout.handed (fun p => { p with context := f p.context }) (fun _ => rfl) s i j
@[simp] theorem State.channel_updateContext (s : State) (i j : SpoutId) (f : Context → Context) : (s.updateContext i f).channel j = s.channel j :=
  State.spout_updateSpout_proj Spout.channel (fun p => { p with context := f p.context }) (fun _ => rfl) s i j
@[simp] theorem State.calibration_updateContext (s : State) (i j : SpoutId) (f : Context → Context) : (s.updateContext i f).calibration j = s.calibration j :=
  State.spout_updateSpout_proj Spout.calibration (fun p => { p with context := f p.context }) (fun _ => rfl) s i j
@[simp] theorem State.positioner_updateContext (s : State) (i j : SpoutId) (f : Context → Context) : (s.updateContext i f).positioner j = s.positioner j :=
  State.spout_updateSpout_proj Spout.positioner (fun p => { p with context := f p.context }) (fun _ => rfl) s i j
@[simp] theorem State.field_updateContext (s : State) (i j : SpoutId) (f : Context → Context) : (s.updateContext i f).field j = s.field j :=
  State.spout_updateSpout_proj Spout.field (fun p => { p with context := f p.context }) (fun _ => rfl) s i j
@[simp] theorem State.context_updateContext_self (s : State) (i : SpoutId) (f : Context → Context) : (s.updateContext i f).context i = f (s.context i) := by
  simp [State.updateContext, State.context]
@[simp] theorem State.context_updateContext_ne (s : State) {i j : SpoutId} (h : j ≠ i) (f : Context → Context) : (s.updateContext i f).context j = s.context j := by
  simp [State.updateContext, State.context, h]
@[simp] theorem State.queue_updateContext (s : State) (i j : SpoutId) (f : Context → Context) : (s.updateContext i f).queue j = s.queue j :=
  State.spout_updateSpout_proj Spout.queue (fun p => { p with context := f p.context }) (fun _ => rfl) s i j
@[simp] theorem State.profile_updateContext (s : State) (i j : SpoutId) (f : Context → Context) : (s.updateContext i f).profile j = s.profile j :=
  State.spout_updateSpout_proj (fun p => p.calibration.profile) (fun p => { p with context := f p.context }) (fun _ => rfl) s i j
@[simp] theorem State.hasProfile_updateContext (s : State) (i j : SpoutId) (f : Context → Context) : (s.updateContext i f).hasProfile j = s.hasProfile j :=
  State.spout_updateSpout_proj (fun p => p.calibration.profileValid) (fun p => { p with context := f p.context }) (fun _ => rfl) s i j
@[simp] theorem State.isFaulted_updateContext (s : State) (i j : SpoutId) (f : Context → Context) : (s.updateContext i f).isFaulted j = s.isFaulted j :=
  State.spout_updateSpout_proj (fun p => p.positioner.position == .faulted) (fun p => { p with context := f p.context }) (fun _ => rfl) s i j
@[simp] theorem State.inputsTaken_updateContext (s : State) (i j : SpoutId) (f : Context → Context) : (s.updateContext i f).inputsTaken j = s.inputsTaken j :=
  State.spout_updateSpout_proj (fun p => p.field.allTaken) (fun p => { p with context := f p.context }) (fun _ => rfl) s i j
@[simp] theorem State.stage_updateContext_self (s : State) (i : SpoutId) (f : Context → Context) : (s.updateContext i f).stage i = (f (s.context i)).stage := by
  simp [State.updateContext, State.stage, State.context]
@[simp] theorem State.stage_updateContext_ne (s : State) {i j : SpoutId} (h : j ≠ i) (f : Context → Context) : (s.updateContext i f).stage j = s.stage j := by
  simp [State.updateContext, State.stage, State.context, h]
@[simp] theorem State.isBound_updateContext_self (s : State) (i : SpoutId) (f : Context → Context) : (s.updateContext i f).isBound i = ((f (s.context i)).stage == .bound) := by
  simp [State.updateContext, State.isBound, State.stage, State.context]
@[simp] theorem State.isBound_updateContext_ne (s : State) {i j : SpoutId} (h : j ≠ i) (f : Context → Context) : (s.updateContext i f).isBound j = s.isBound j := by
  simp [State.updateContext, State.isBound, State.stage, State.context, h]
@[simp] theorem State.compartment_updateContext_self (s : State) (i : SpoutId) (f : Context → Context) : (s.updateContext i f).compartment i = (f (s.context i)).compartment := by
  simp [State.updateContext, State.compartment, State.context]
@[simp] theorem State.compartment_updateContext_ne (s : State) {i j : SpoutId} (h : j ≠ i) (f : Context → Context) : (s.updateContext i f).compartment j = s.compartment j := by
  simp [State.updateContext, State.compartment, State.context, h]
@[simp] theorem State.order_updateContext_self (s : State) (i : SpoutId) (f : Context → Context) : (s.updateContext i f).order i = (f (s.context i)).order := by
  simp [State.updateContext, State.order, State.context]
@[simp] theorem State.order_updateContext_ne (s : State) {i j : SpoutId} (h : j ≠ i) (f : Context → Context) : (s.updateContext i f).order j = s.order j := by
  simp [State.updateContext, State.order, State.context, h]
@[simp] theorem State.gate_updateContext_self (s : State) (i : SpoutId) (f : Context → Context) : (s.updateContext i f).gate i = (f (s.context i)).gate := by
  simp [State.updateContext, State.gate, State.context]
@[simp] theorem State.gate_updateContext_ne (s : State) {i j : SpoutId} (h : j ≠ i) (f : Context → Context) : (s.updateContext i f).gate j = s.gate j := by
  simp [State.updateContext, State.gate, State.context, h]

/-! ## After `updateCompartment` -/

@[simp] theorem State.port_updateCompartment (s : State) (i : SpoutId) (f : Compartment → Compartment) : (s.updateCompartment i f).port = s.port := rfl
@[simp] theorem State.memory_updateCompartment (s : State) (i : SpoutId) (f : Compartment → Compartment) : (s.updateCompartment i f).memory = s.memory := rfl
@[simp] theorem State.products_updateCompartment (s : State) (i : SpoutId) (f : Compartment → Compartment) : (s.updateCompartment i f).products = s.products := rfl
@[simp] theorem State.preact_updateCompartment (s : State) (i : SpoutId) (f : Compartment → Compartment) : (s.updateCompartment i f).preact = s.preact := rfl
@[simp] theorem State.freeCount_updateCompartment (s : State) (i : SpoutId) (f : Compartment → Compartment) : (s.updateCompartment i f).freeCount = s.freeCount := rfl
@[simp] theorem State.pending_updateCompartment (s : State) (i : SpoutId) (f : Compartment → Compartment) : (s.updateCompartment i f).pending = s.pending := rfl
@[simp] theorem State.receiver_updateCompartment (s : State) (i j : SpoutId) (f : Compartment → Compartment) : (s.updateCompartment i f).receiver j = s.receiver j :=
  State.spout_updateSpout_proj Spout.receiver (fun x => { x with context := { x.context with compartment := f x.context.compartment } }) (fun _ => rfl) s i j
@[simp] theorem State.handed_updateCompartment (s : State) (i j : SpoutId) (f : Compartment → Compartment) : (s.updateCompartment i f).handed j = s.handed j :=
  State.spout_updateSpout_proj Spout.handed (fun x => { x with context := { x.context with compartment := f x.context.compartment } }) (fun _ => rfl) s i j
@[simp] theorem State.channel_updateCompartment (s : State) (i j : SpoutId) (f : Compartment → Compartment) : (s.updateCompartment i f).channel j = s.channel j :=
  State.spout_updateSpout_proj Spout.channel (fun x => { x with context := { x.context with compartment := f x.context.compartment } }) (fun _ => rfl) s i j
@[simp] theorem State.calibration_updateCompartment (s : State) (i j : SpoutId) (f : Compartment → Compartment) : (s.updateCompartment i f).calibration j = s.calibration j :=
  State.spout_updateSpout_proj Spout.calibration (fun x => { x with context := { x.context with compartment := f x.context.compartment } }) (fun _ => rfl) s i j
@[simp] theorem State.positioner_updateCompartment (s : State) (i j : SpoutId) (f : Compartment → Compartment) : (s.updateCompartment i f).positioner j = s.positioner j :=
  State.spout_updateSpout_proj Spout.positioner (fun x => { x with context := { x.context with compartment := f x.context.compartment } }) (fun _ => rfl) s i j
@[simp] theorem State.field_updateCompartment (s : State) (i j : SpoutId) (f : Compartment → Compartment) : (s.updateCompartment i f).field j = s.field j :=
  State.spout_updateSpout_proj Spout.field (fun x => { x with context := { x.context with compartment := f x.context.compartment } }) (fun _ => rfl) s i j
@[simp] theorem State.context_updateCompartment_self (s : State) (i : SpoutId) (f : Compartment → Compartment) : (s.updateCompartment i f).context i = { s.context i with compartment := f (s.compartment i) } := by
  simp [State.updateCompartment, State.updateContext, State.context, State.compartment]
@[simp] theorem State.context_updateCompartment_ne (s : State) {i j : SpoutId} (h : j ≠ i) (f : Compartment → Compartment) : (s.updateCompartment i f).context j = s.context j := by
  simp [State.updateCompartment, State.updateContext, State.context, h]
@[simp] theorem State.queue_updateCompartment (s : State) (i j : SpoutId) (f : Compartment → Compartment) : (s.updateCompartment i f).queue j = s.queue j :=
  State.spout_updateSpout_proj Spout.queue (fun x => { x with context := { x.context with compartment := f x.context.compartment } }) (fun _ => rfl) s i j
@[simp] theorem State.profile_updateCompartment (s : State) (i j : SpoutId) (f : Compartment → Compartment) : (s.updateCompartment i f).profile j = s.profile j :=
  State.spout_updateSpout_proj (fun p => p.calibration.profile) (fun x => { x with context := { x.context with compartment := f x.context.compartment } }) (fun _ => rfl) s i j
@[simp] theorem State.hasProfile_updateCompartment (s : State) (i j : SpoutId) (f : Compartment → Compartment) : (s.updateCompartment i f).hasProfile j = s.hasProfile j :=
  State.spout_updateSpout_proj (fun p => p.calibration.profileValid) (fun x => { x with context := { x.context with compartment := f x.context.compartment } }) (fun _ => rfl) s i j
@[simp] theorem State.isFaulted_updateCompartment (s : State) (i j : SpoutId) (f : Compartment → Compartment) : (s.updateCompartment i f).isFaulted j = s.isFaulted j :=
  State.spout_updateSpout_proj (fun p => p.positioner.position == .faulted) (fun x => { x with context := { x.context with compartment := f x.context.compartment } }) (fun _ => rfl) s i j
@[simp] theorem State.inputsTaken_updateCompartment (s : State) (i j : SpoutId) (f : Compartment → Compartment) : (s.updateCompartment i f).inputsTaken j = s.inputsTaken j :=
  State.spout_updateSpout_proj (fun p => p.field.allTaken) (fun x => { x with context := { x.context with compartment := f x.context.compartment } }) (fun _ => rfl) s i j
@[simp] theorem State.stage_updateCompartment (s : State) (i j : SpoutId) (f : Compartment → Compartment) : (s.updateCompartment i f).stage j = s.stage j :=
  State.spout_updateSpout_proj (fun p => p.context.stage) (fun x => { x with context := { x.context with compartment := f x.context.compartment } }) (fun _ => rfl) s i j
@[simp] theorem State.isBound_updateCompartment (s : State) (i j : SpoutId) (f : Compartment → Compartment) : (s.updateCompartment i f).isBound j = s.isBound j :=
  State.spout_updateSpout_proj (fun p => p.context.stage == .bound) (fun x => { x with context := { x.context with compartment := f x.context.compartment } }) (fun _ => rfl) s i j
@[simp] theorem State.compartment_updateCompartment_self (s : State) (i : SpoutId) (f : Compartment → Compartment) : (s.updateCompartment i f).compartment i = f (s.compartment i) := by
  simp [State.updateCompartment, State.updateContext, State.compartment, State.context]
@[simp] theorem State.compartment_updateCompartment_ne (s : State) {i j : SpoutId} (h : j ≠ i) (f : Compartment → Compartment) : (s.updateCompartment i f).compartment j = s.compartment j := by
  simp [State.updateCompartment, State.updateContext, State.compartment, State.context, h]
@[simp] theorem State.order_updateCompartment (s : State) (i j : SpoutId) (f : Compartment → Compartment) : (s.updateCompartment i f).order j = s.order j :=
  State.spout_updateSpout_proj (fun p => p.context.order) (fun x => { x with context := { x.context with compartment := f x.context.compartment } }) (fun _ => rfl) s i j
@[simp] theorem State.gate_updateCompartment (s : State) (i j : SpoutId) (f : Compartment → Compartment) : (s.updateCompartment i f).gate j = s.gate j :=
  State.spout_updateSpout_proj (fun p => p.context.gate) (fun x => { x with context := { x.context with compartment := f x.context.compartment } }) (fun _ => rfl) s i j

/-! ## After `updateOrder` -/

@[simp] theorem State.port_updateOrder (s : State) (i : SpoutId) (f : OrderState → OrderState) : (s.updateOrder i f).port = s.port := rfl
@[simp] theorem State.memory_updateOrder (s : State) (i : SpoutId) (f : OrderState → OrderState) : (s.updateOrder i f).memory = s.memory := rfl
@[simp] theorem State.products_updateOrder (s : State) (i : SpoutId) (f : OrderState → OrderState) : (s.updateOrder i f).products = s.products := rfl
@[simp] theorem State.preact_updateOrder (s : State) (i : SpoutId) (f : OrderState → OrderState) : (s.updateOrder i f).preact = s.preact := rfl
@[simp] theorem State.freeCount_updateOrder (s : State) (i : SpoutId) (f : OrderState → OrderState) : (s.updateOrder i f).freeCount = s.freeCount := rfl
@[simp] theorem State.pending_updateOrder (s : State) (i : SpoutId) (f : OrderState → OrderState) : (s.updateOrder i f).pending = s.pending := rfl
@[simp] theorem State.receiver_updateOrder (s : State) (i j : SpoutId) (f : OrderState → OrderState) : (s.updateOrder i f).receiver j = s.receiver j :=
  State.spout_updateSpout_proj Spout.receiver (fun x => { x with context := { x.context with order := f x.context.order } }) (fun _ => rfl) s i j
@[simp] theorem State.handed_updateOrder (s : State) (i j : SpoutId) (f : OrderState → OrderState) : (s.updateOrder i f).handed j = s.handed j :=
  State.spout_updateSpout_proj Spout.handed (fun x => { x with context := { x.context with order := f x.context.order } }) (fun _ => rfl) s i j
@[simp] theorem State.channel_updateOrder (s : State) (i j : SpoutId) (f : OrderState → OrderState) : (s.updateOrder i f).channel j = s.channel j :=
  State.spout_updateSpout_proj Spout.channel (fun x => { x with context := { x.context with order := f x.context.order } }) (fun _ => rfl) s i j
@[simp] theorem State.calibration_updateOrder (s : State) (i j : SpoutId) (f : OrderState → OrderState) : (s.updateOrder i f).calibration j = s.calibration j :=
  State.spout_updateSpout_proj Spout.calibration (fun x => { x with context := { x.context with order := f x.context.order } }) (fun _ => rfl) s i j
@[simp] theorem State.positioner_updateOrder (s : State) (i j : SpoutId) (f : OrderState → OrderState) : (s.updateOrder i f).positioner j = s.positioner j :=
  State.spout_updateSpout_proj Spout.positioner (fun x => { x with context := { x.context with order := f x.context.order } }) (fun _ => rfl) s i j
@[simp] theorem State.field_updateOrder (s : State) (i j : SpoutId) (f : OrderState → OrderState) : (s.updateOrder i f).field j = s.field j :=
  State.spout_updateSpout_proj Spout.field (fun x => { x with context := { x.context with order := f x.context.order } }) (fun _ => rfl) s i j
@[simp] theorem State.context_updateOrder_self (s : State) (i : SpoutId) (f : OrderState → OrderState) : (s.updateOrder i f).context i = { s.context i with order := f (s.order i) } := by
  simp [State.updateOrder, State.updateContext, State.context, State.order]
@[simp] theorem State.context_updateOrder_ne (s : State) {i j : SpoutId} (h : j ≠ i) (f : OrderState → OrderState) : (s.updateOrder i f).context j = s.context j := by
  simp [State.updateOrder, State.updateContext, State.context, h]
@[simp] theorem State.queue_updateOrder (s : State) (i j : SpoutId) (f : OrderState → OrderState) : (s.updateOrder i f).queue j = s.queue j :=
  State.spout_updateSpout_proj Spout.queue (fun x => { x with context := { x.context with order := f x.context.order } }) (fun _ => rfl) s i j
@[simp] theorem State.profile_updateOrder (s : State) (i j : SpoutId) (f : OrderState → OrderState) : (s.updateOrder i f).profile j = s.profile j :=
  State.spout_updateSpout_proj (fun p => p.calibration.profile) (fun x => { x with context := { x.context with order := f x.context.order } }) (fun _ => rfl) s i j
@[simp] theorem State.hasProfile_updateOrder (s : State) (i j : SpoutId) (f : OrderState → OrderState) : (s.updateOrder i f).hasProfile j = s.hasProfile j :=
  State.spout_updateSpout_proj (fun p => p.calibration.profileValid) (fun x => { x with context := { x.context with order := f x.context.order } }) (fun _ => rfl) s i j
@[simp] theorem State.isFaulted_updateOrder (s : State) (i j : SpoutId) (f : OrderState → OrderState) : (s.updateOrder i f).isFaulted j = s.isFaulted j :=
  State.spout_updateSpout_proj (fun p => p.positioner.position == .faulted) (fun x => { x with context := { x.context with order := f x.context.order } }) (fun _ => rfl) s i j
@[simp] theorem State.inputsTaken_updateOrder (s : State) (i j : SpoutId) (f : OrderState → OrderState) : (s.updateOrder i f).inputsTaken j = s.inputsTaken j :=
  State.spout_updateSpout_proj (fun p => p.field.allTaken) (fun x => { x with context := { x.context with order := f x.context.order } }) (fun _ => rfl) s i j
@[simp] theorem State.stage_updateOrder (s : State) (i j : SpoutId) (f : OrderState → OrderState) : (s.updateOrder i f).stage j = s.stage j :=
  State.spout_updateSpout_proj (fun p => p.context.stage) (fun x => { x with context := { x.context with order := f x.context.order } }) (fun _ => rfl) s i j
@[simp] theorem State.isBound_updateOrder (s : State) (i j : SpoutId) (f : OrderState → OrderState) : (s.updateOrder i f).isBound j = s.isBound j :=
  State.spout_updateSpout_proj (fun p => p.context.stage == .bound) (fun x => { x with context := { x.context with order := f x.context.order } }) (fun _ => rfl) s i j
@[simp] theorem State.compartment_updateOrder (s : State) (i j : SpoutId) (f : OrderState → OrderState) : (s.updateOrder i f).compartment j = s.compartment j :=
  State.spout_updateSpout_proj (fun p => p.context.compartment) (fun x => { x with context := { x.context with order := f x.context.order } }) (fun _ => rfl) s i j
@[simp] theorem State.order_updateOrder_self (s : State) (i : SpoutId) (f : OrderState → OrderState) : (s.updateOrder i f).order i = f (s.order i) := by
  simp [State.updateOrder, State.updateContext, State.order, State.context]
@[simp] theorem State.order_updateOrder_ne (s : State) {i j : SpoutId} (h : j ≠ i) (f : OrderState → OrderState) : (s.updateOrder i f).order j = s.order j := by
  simp [State.updateOrder, State.updateContext, State.order, State.context, h]
@[simp] theorem State.gate_updateOrder (s : State) (i j : SpoutId) (f : OrderState → OrderState) : (s.updateOrder i f).gate j = s.gate j :=
  State.spout_updateSpout_proj (fun p => p.context.gate) (fun x => { x with context := { x.context with order := f x.context.order } }) (fun _ => rfl) s i j

/-! ## After `updateGate` -/

@[simp] theorem State.port_updateGate (s : State) (i : SpoutId) (f : GateUnit → GateUnit) : (s.updateGate i f).port = s.port := rfl
@[simp] theorem State.memory_updateGate (s : State) (i : SpoutId) (f : GateUnit → GateUnit) : (s.updateGate i f).memory = s.memory := rfl
@[simp] theorem State.products_updateGate (s : State) (i : SpoutId) (f : GateUnit → GateUnit) : (s.updateGate i f).products = s.products := rfl
@[simp] theorem State.preact_updateGate (s : State) (i : SpoutId) (f : GateUnit → GateUnit) : (s.updateGate i f).preact = s.preact := rfl
@[simp] theorem State.freeCount_updateGate (s : State) (i : SpoutId) (f : GateUnit → GateUnit) : (s.updateGate i f).freeCount = s.freeCount := rfl
@[simp] theorem State.pending_updateGate (s : State) (i : SpoutId) (f : GateUnit → GateUnit) : (s.updateGate i f).pending = s.pending := rfl
@[simp] theorem State.receiver_updateGate (s : State) (i j : SpoutId) (f : GateUnit → GateUnit) : (s.updateGate i f).receiver j = s.receiver j :=
  State.spout_updateSpout_proj Spout.receiver (fun x => { x with context := { x.context with gate := f x.context.gate } }) (fun _ => rfl) s i j
@[simp] theorem State.handed_updateGate (s : State) (i j : SpoutId) (f : GateUnit → GateUnit) : (s.updateGate i f).handed j = s.handed j :=
  State.spout_updateSpout_proj Spout.handed (fun x => { x with context := { x.context with gate := f x.context.gate } }) (fun _ => rfl) s i j
@[simp] theorem State.channel_updateGate (s : State) (i j : SpoutId) (f : GateUnit → GateUnit) : (s.updateGate i f).channel j = s.channel j :=
  State.spout_updateSpout_proj Spout.channel (fun x => { x with context := { x.context with gate := f x.context.gate } }) (fun _ => rfl) s i j
@[simp] theorem State.calibration_updateGate (s : State) (i j : SpoutId) (f : GateUnit → GateUnit) : (s.updateGate i f).calibration j = s.calibration j :=
  State.spout_updateSpout_proj Spout.calibration (fun x => { x with context := { x.context with gate := f x.context.gate } }) (fun _ => rfl) s i j
@[simp] theorem State.positioner_updateGate (s : State) (i j : SpoutId) (f : GateUnit → GateUnit) : (s.updateGate i f).positioner j = s.positioner j :=
  State.spout_updateSpout_proj Spout.positioner (fun x => { x with context := { x.context with gate := f x.context.gate } }) (fun _ => rfl) s i j
@[simp] theorem State.field_updateGate (s : State) (i j : SpoutId) (f : GateUnit → GateUnit) : (s.updateGate i f).field j = s.field j :=
  State.spout_updateSpout_proj Spout.field (fun x => { x with context := { x.context with gate := f x.context.gate } }) (fun _ => rfl) s i j
@[simp] theorem State.context_updateGate_self (s : State) (i : SpoutId) (f : GateUnit → GateUnit) : (s.updateGate i f).context i = { s.context i with gate := f (s.gate i) } := by
  simp [State.updateGate, State.updateContext, State.context, State.gate]
@[simp] theorem State.context_updateGate_ne (s : State) {i j : SpoutId} (h : j ≠ i) (f : GateUnit → GateUnit) : (s.updateGate i f).context j = s.context j := by
  simp [State.updateGate, State.updateContext, State.context, h]
@[simp] theorem State.queue_updateGate (s : State) (i j : SpoutId) (f : GateUnit → GateUnit) : (s.updateGate i f).queue j = s.queue j :=
  State.spout_updateSpout_proj Spout.queue (fun x => { x with context := { x.context with gate := f x.context.gate } }) (fun _ => rfl) s i j
@[simp] theorem State.profile_updateGate (s : State) (i j : SpoutId) (f : GateUnit → GateUnit) : (s.updateGate i f).profile j = s.profile j :=
  State.spout_updateSpout_proj (fun p => p.calibration.profile) (fun x => { x with context := { x.context with gate := f x.context.gate } }) (fun _ => rfl) s i j
@[simp] theorem State.hasProfile_updateGate (s : State) (i j : SpoutId) (f : GateUnit → GateUnit) : (s.updateGate i f).hasProfile j = s.hasProfile j :=
  State.spout_updateSpout_proj (fun p => p.calibration.profileValid) (fun x => { x with context := { x.context with gate := f x.context.gate } }) (fun _ => rfl) s i j
@[simp] theorem State.isFaulted_updateGate (s : State) (i j : SpoutId) (f : GateUnit → GateUnit) : (s.updateGate i f).isFaulted j = s.isFaulted j :=
  State.spout_updateSpout_proj (fun p => p.positioner.position == .faulted) (fun x => { x with context := { x.context with gate := f x.context.gate } }) (fun _ => rfl) s i j
@[simp] theorem State.inputsTaken_updateGate (s : State) (i j : SpoutId) (f : GateUnit → GateUnit) : (s.updateGate i f).inputsTaken j = s.inputsTaken j :=
  State.spout_updateSpout_proj (fun p => p.field.allTaken) (fun x => { x with context := { x.context with gate := f x.context.gate } }) (fun _ => rfl) s i j
@[simp] theorem State.stage_updateGate (s : State) (i j : SpoutId) (f : GateUnit → GateUnit) : (s.updateGate i f).stage j = s.stage j :=
  State.spout_updateSpout_proj (fun p => p.context.stage) (fun x => { x with context := { x.context with gate := f x.context.gate } }) (fun _ => rfl) s i j
@[simp] theorem State.isBound_updateGate (s : State) (i j : SpoutId) (f : GateUnit → GateUnit) : (s.updateGate i f).isBound j = s.isBound j :=
  State.spout_updateSpout_proj (fun p => p.context.stage == .bound) (fun x => { x with context := { x.context with gate := f x.context.gate } }) (fun _ => rfl) s i j
@[simp] theorem State.compartment_updateGate (s : State) (i j : SpoutId) (f : GateUnit → GateUnit) : (s.updateGate i f).compartment j = s.compartment j :=
  State.spout_updateSpout_proj (fun p => p.context.compartment) (fun x => { x with context := { x.context with gate := f x.context.gate } }) (fun _ => rfl) s i j
@[simp] theorem State.order_updateGate (s : State) (i j : SpoutId) (f : GateUnit → GateUnit) : (s.updateGate i f).order j = s.order j :=
  State.spout_updateSpout_proj (fun p => p.context.order) (fun x => { x with context := { x.context with gate := f x.context.gate } }) (fun _ => rfl) s i j
@[simp] theorem State.gate_updateGate_self (s : State) (i : SpoutId) (f : GateUnit → GateUnit) : (s.updateGate i f).gate i = f (s.gate i) := by
  simp [State.updateGate, State.updateContext, State.gate, State.context]
@[simp] theorem State.gate_updateGate_ne (s : State) {i j : SpoutId} (h : j ≠ i) (f : GateUnit → GateUnit) : (s.updateGate i f).gate j = s.gate j := by
  simp [State.updateGate, State.updateContext, State.gate, State.context, h]

/-! ## After `setQueue` -/

@[simp] theorem State.port_setQueue (s : State) (i : SpoutId) (q : List SlotId) : (s.setQueue i q).port = s.port := rfl
@[simp] theorem State.memory_setQueue (s : State) (i : SpoutId) (q : List SlotId) : (s.setQueue i q).memory = s.memory := rfl
@[simp] theorem State.products_setQueue (s : State) (i : SpoutId) (q : List SlotId) : (s.setQueue i q).products = s.products := rfl
@[simp] theorem State.preact_setQueue (s : State) (i : SpoutId) (q : List SlotId) : (s.setQueue i q).preact = s.preact := rfl
@[simp] theorem State.freeCount_setQueue (s : State) (i : SpoutId) (q : List SlotId) : (s.setQueue i q).freeCount = s.freeCount := rfl
@[simp] theorem State.pending_setQueue (s : State) (i : SpoutId) (q : List SlotId) : (s.setQueue i q).pending = s.pending := rfl
@[simp] theorem State.receiver_setQueue (s : State) (i j : SpoutId) (q : List SlotId) : (s.setQueue i q).receiver j = s.receiver j :=
  State.spout_updateSpout_proj Spout.receiver (fun p => { p with queue := q }) (fun _ => rfl) s i j
@[simp] theorem State.handed_setQueue (s : State) (i j : SpoutId) (q : List SlotId) : (s.setQueue i q).handed j = s.handed j :=
  State.spout_updateSpout_proj Spout.handed (fun p => { p with queue := q }) (fun _ => rfl) s i j
@[simp] theorem State.channel_setQueue (s : State) (i j : SpoutId) (q : List SlotId) : (s.setQueue i q).channel j = s.channel j :=
  State.spout_updateSpout_proj Spout.channel (fun p => { p with queue := q }) (fun _ => rfl) s i j
@[simp] theorem State.calibration_setQueue (s : State) (i j : SpoutId) (q : List SlotId) : (s.setQueue i q).calibration j = s.calibration j :=
  State.spout_updateSpout_proj Spout.calibration (fun p => { p with queue := q }) (fun _ => rfl) s i j
@[simp] theorem State.positioner_setQueue (s : State) (i j : SpoutId) (q : List SlotId) : (s.setQueue i q).positioner j = s.positioner j :=
  State.spout_updateSpout_proj Spout.positioner (fun p => { p with queue := q }) (fun _ => rfl) s i j
@[simp] theorem State.field_setQueue (s : State) (i j : SpoutId) (q : List SlotId) : (s.setQueue i q).field j = s.field j :=
  State.spout_updateSpout_proj Spout.field (fun p => { p with queue := q }) (fun _ => rfl) s i j
@[simp] theorem State.context_setQueue (s : State) (i j : SpoutId) (q : List SlotId) : (s.setQueue i q).context j = s.context j :=
  State.spout_updateSpout_proj Spout.context (fun p => { p with queue := q }) (fun _ => rfl) s i j
@[simp] theorem State.queue_setQueue_self (s : State) (i : SpoutId) (q : List SlotId) : (s.setQueue i q).queue i = q := by
  simp [State.setQueue, State.queue]
@[simp] theorem State.queue_setQueue_ne (s : State) {i j : SpoutId} (h : j ≠ i) (q : List SlotId) : (s.setQueue i q).queue j = s.queue j := by
  simp [State.setQueue, State.queue, h]
@[simp] theorem State.profile_setQueue (s : State) (i j : SpoutId) (q : List SlotId) : (s.setQueue i q).profile j = s.profile j :=
  State.spout_updateSpout_proj (fun p => p.calibration.profile) (fun p => { p with queue := q }) (fun _ => rfl) s i j
@[simp] theorem State.hasProfile_setQueue (s : State) (i j : SpoutId) (q : List SlotId) : (s.setQueue i q).hasProfile j = s.hasProfile j :=
  State.spout_updateSpout_proj (fun p => p.calibration.profileValid) (fun p => { p with queue := q }) (fun _ => rfl) s i j
@[simp] theorem State.isFaulted_setQueue (s : State) (i j : SpoutId) (q : List SlotId) : (s.setQueue i q).isFaulted j = s.isFaulted j :=
  State.spout_updateSpout_proj (fun p => p.positioner.position == .faulted) (fun p => { p with queue := q }) (fun _ => rfl) s i j
@[simp] theorem State.inputsTaken_setQueue (s : State) (i j : SpoutId) (q : List SlotId) : (s.setQueue i q).inputsTaken j = s.inputsTaken j :=
  State.spout_updateSpout_proj (fun p => p.field.allTaken) (fun p => { p with queue := q }) (fun _ => rfl) s i j
@[simp] theorem State.stage_setQueue (s : State) (i j : SpoutId) (q : List SlotId) : (s.setQueue i q).stage j = s.stage j :=
  State.spout_updateSpout_proj (fun p => p.context.stage) (fun p => { p with queue := q }) (fun _ => rfl) s i j
@[simp] theorem State.isBound_setQueue (s : State) (i j : SpoutId) (q : List SlotId) : (s.setQueue i q).isBound j = s.isBound j :=
  State.spout_updateSpout_proj (fun p => p.context.stage == .bound) (fun p => { p with queue := q }) (fun _ => rfl) s i j
@[simp] theorem State.compartment_setQueue (s : State) (i j : SpoutId) (q : List SlotId) : (s.setQueue i q).compartment j = s.compartment j :=
  State.spout_updateSpout_proj (fun p => p.context.compartment) (fun p => { p with queue := q }) (fun _ => rfl) s i j
@[simp] theorem State.order_setQueue (s : State) (i j : SpoutId) (q : List SlotId) : (s.setQueue i q).order j = s.order j :=
  State.spout_updateSpout_proj (fun p => p.context.order) (fun p => { p with queue := q }) (fun _ => rfl) s i j
@[simp] theorem State.gate_setQueue (s : State) (i j : SpoutId) (q : List SlotId) : (s.setQueue i q).gate j = s.gate j :=
  State.spout_updateSpout_proj (fun p => p.context.gate) (fun p => { p with queue := q }) (fun _ => rfl) s i j

/-! ## After `writeMemory` -/

@[simp] theorem State.port_writeMemory (s : State) (a : Nat) (b : List Byte) : (s.writeMemory a b).port = s.port := rfl
@[simp] theorem State.memory_writeMemory (s : State) (a : Nat) (b : List Byte) : (s.writeMemory a b).memory = s.memory.writeBytes a b := rfl
@[simp] theorem State.products_writeMemory (s : State) (a : Nat) (b : List Byte) : (s.writeMemory a b).products = s.products := rfl
@[simp] theorem State.preact_writeMemory (s : State) (a : Nat) (b : List Byte) : (s.writeMemory a b).preact = s.preact := rfl
@[simp] theorem State.freeCount_writeMemory (s : State) (a : Nat) (b : List Byte) : (s.writeMemory a b).freeCount = s.freeCount := rfl
@[simp] theorem State.pending_writeMemory (s : State) (a : Nat) (b : List Byte) : (s.writeMemory a b).pending = s.pending := rfl
@[simp] theorem State.spout_writeMemory (s : State) (a : Nat) (b : List Byte) (j : SpoutId) : (s.writeMemory a b).spout j = s.spout j := rfl
@[simp] theorem State.receiver_writeMemory (s : State) (a : Nat) (b : List Byte) (j : SpoutId) : (s.writeMemory a b).receiver j = s.receiver j := rfl
@[simp] theorem State.handed_writeMemory (s : State) (a : Nat) (b : List Byte) (j : SpoutId) : (s.writeMemory a b).handed j = s.handed j := rfl
@[simp] theorem State.channel_writeMemory (s : State) (a : Nat) (b : List Byte) (j : SpoutId) : (s.writeMemory a b).channel j = s.channel j := rfl
@[simp] theorem State.calibration_writeMemory (s : State) (a : Nat) (b : List Byte) (j : SpoutId) : (s.writeMemory a b).calibration j = s.calibration j := rfl
@[simp] theorem State.positioner_writeMemory (s : State) (a : Nat) (b : List Byte) (j : SpoutId) : (s.writeMemory a b).positioner j = s.positioner j := rfl
@[simp] theorem State.field_writeMemory (s : State) (a : Nat) (b : List Byte) (j : SpoutId) : (s.writeMemory a b).field j = s.field j := rfl
@[simp] theorem State.context_writeMemory (s : State) (a : Nat) (b : List Byte) (j : SpoutId) : (s.writeMemory a b).context j = s.context j := rfl
@[simp] theorem State.queue_writeMemory (s : State) (a : Nat) (b : List Byte) (j : SpoutId) : (s.writeMemory a b).queue j = s.queue j := rfl
@[simp] theorem State.profile_writeMemory (s : State) (a : Nat) (b : List Byte) (j : SpoutId) : (s.writeMemory a b).profile j = s.profile j := rfl
@[simp] theorem State.hasProfile_writeMemory (s : State) (a : Nat) (b : List Byte) (j : SpoutId) : (s.writeMemory a b).hasProfile j = s.hasProfile j := rfl
@[simp] theorem State.isFaulted_writeMemory (s : State) (a : Nat) (b : List Byte) (j : SpoutId) : (s.writeMemory a b).isFaulted j = s.isFaulted j := rfl
@[simp] theorem State.inputsTaken_writeMemory (s : State) (a : Nat) (b : List Byte) (j : SpoutId) : (s.writeMemory a b).inputsTaken j = s.inputsTaken j := rfl
@[simp] theorem State.stage_writeMemory (s : State) (a : Nat) (b : List Byte) (j : SpoutId) : (s.writeMemory a b).stage j = s.stage j := rfl
@[simp] theorem State.isBound_writeMemory (s : State) (a : Nat) (b : List Byte) (j : SpoutId) : (s.writeMemory a b).isBound j = s.isBound j := rfl
@[simp] theorem State.compartment_writeMemory (s : State) (a : Nat) (b : List Byte) (j : SpoutId) : (s.writeMemory a b).compartment j = s.compartment j := rfl
@[simp] theorem State.order_writeMemory (s : State) (a : Nat) (b : List Byte) (j : SpoutId) : (s.writeMemory a b).order j = s.order j := rfl
@[simp] theorem State.gate_writeMemory (s : State) (a : Nat) (b : List Byte) (j : SpoutId) : (s.writeMemory a b).gate j = s.gate j := rfl

/-! ## After `updatePort` -/

@[simp] theorem State.port_updatePort (s : State) (f : Port → Port) : (s.updatePort f).port = f s.port := rfl
@[simp] theorem State.memory_updatePort (s : State) (f : Port → Port) : (s.updatePort f).memory = s.memory := rfl
@[simp] theorem State.products_updatePort (s : State) (f : Port → Port) : (s.updatePort f).products = s.products := rfl
@[simp] theorem State.preact_updatePort (s : State) (f : Port → Port) : (s.updatePort f).preact = s.preact := rfl
@[simp] theorem State.freeCount_updatePort (s : State) (f : Port → Port) : (s.updatePort f).freeCount = s.freeCount := rfl
@[simp] theorem State.pending_updatePort (s : State) (f : Port → Port) : (s.updatePort f).pending = s.pending := rfl
@[simp] theorem State.spout_updatePort (s : State) (f : Port → Port) (j : SpoutId) : (s.updatePort f).spout j = s.spout j := rfl
@[simp] theorem State.receiver_updatePort (s : State) (f : Port → Port) (j : SpoutId) : (s.updatePort f).receiver j = s.receiver j := rfl
@[simp] theorem State.handed_updatePort (s : State) (f : Port → Port) (j : SpoutId) : (s.updatePort f).handed j = s.handed j := rfl
@[simp] theorem State.channel_updatePort (s : State) (f : Port → Port) (j : SpoutId) : (s.updatePort f).channel j = s.channel j := rfl
@[simp] theorem State.calibration_updatePort (s : State) (f : Port → Port) (j : SpoutId) : (s.updatePort f).calibration j = s.calibration j := rfl
@[simp] theorem State.positioner_updatePort (s : State) (f : Port → Port) (j : SpoutId) : (s.updatePort f).positioner j = s.positioner j := rfl
@[simp] theorem State.field_updatePort (s : State) (f : Port → Port) (j : SpoutId) : (s.updatePort f).field j = s.field j := rfl
@[simp] theorem State.context_updatePort (s : State) (f : Port → Port) (j : SpoutId) : (s.updatePort f).context j = s.context j := rfl
@[simp] theorem State.queue_updatePort (s : State) (f : Port → Port) (j : SpoutId) : (s.updatePort f).queue j = s.queue j := rfl
@[simp] theorem State.profile_updatePort (s : State) (f : Port → Port) (j : SpoutId) : (s.updatePort f).profile j = s.profile j := rfl
@[simp] theorem State.hasProfile_updatePort (s : State) (f : Port → Port) (j : SpoutId) : (s.updatePort f).hasProfile j = s.hasProfile j := rfl
@[simp] theorem State.isFaulted_updatePort (s : State) (f : Port → Port) (j : SpoutId) : (s.updatePort f).isFaulted j = s.isFaulted j := rfl
@[simp] theorem State.inputsTaken_updatePort (s : State) (f : Port → Port) (j : SpoutId) : (s.updatePort f).inputsTaken j = s.inputsTaken j := rfl
@[simp] theorem State.stage_updatePort (s : State) (f : Port → Port) (j : SpoutId) : (s.updatePort f).stage j = s.stage j := rfl
@[simp] theorem State.isBound_updatePort (s : State) (f : Port → Port) (j : SpoutId) : (s.updatePort f).isBound j = s.isBound j := rfl
@[simp] theorem State.compartment_updatePort (s : State) (f : Port → Port) (j : SpoutId) : (s.updatePort f).compartment j = s.compartment j := rfl
@[simp] theorem State.order_updatePort (s : State) (f : Port → Port) (j : SpoutId) : (s.updatePort f).order j = s.order j := rfl
@[simp] theorem State.gate_updatePort (s : State) (f : Port → Port) (j : SpoutId) : (s.updatePort f).gate j = s.gate j := rfl

end Sys2Proof.Machine
end

