-- ==== Sys2Proof/Laws/Memory.lean ====
section
/-! SUPPORT. The exchange memory: every write keeps the canonical form, what a read gives after a write, and what the operations
that only write memory leave alone. -/

namespace Sys2Proof.Machine

/-! ## One byte -/

theorem Memory.wfFrom_mono {low low' : Nat} {m : Memory} (h : low' ≤ low) (hm : Memory.wfFrom low m = true) :
    Memory.wfFrom low' m = true := by
  cases m with
  | nil => rfl
  | cons x m =>
    simp only [Memory.wfFrom, Bool.and_eq_true, decide_eq_true_eq] at hm ⊢
    exact ⟨⟨h.trans hm.1.1, hm.1.2⟩, hm.2⟩

theorem Memory.read_below {low : Nat} {m : Memory} (hm : Memory.wfFrom low m = true) {x : Nat} (hx : x < low) :
    m.read x = 0 := by
  induction m generalizing low with
  | nil => rfl
  | cons e m ih =>
    obtain ⟨a, b⟩ := e
    simp only [Memory.wfFrom, Bool.and_eq_true, decide_eq_true_eq] at hm
    have ha : a ≠ x := by have := hm.1.1; omega
    simp only [Memory.read, if_neg ha]
    exact ih hm.2 (by have := hm.1.1; omega)

theorem Memory.wfFrom_write {low : Nat} {m : Memory} (hm : Memory.wfFrom low m = true) {a : Nat} (ha : low ≤ a) (b : Byte) :
    Memory.wfFrom low (m.write a b) = true := by
  induction m generalizing low with
  | nil =>
    simp only [Memory.write]
    split_ifs with hb
    · rfl
    · simpa [Memory.wfFrom, ha] using hb
  | cons e m ih =>
    obtain ⟨x, y⟩ := e
    simp only [Memory.wfFrom, Bool.and_eq_true, decide_eq_true_eq] at hm
    obtain ⟨⟨h1, h2⟩, h3⟩ := hm
    simp only [Memory.write]
    split_ifs with c1 c2 c3 c4
    · simp [Memory.wfFrom, h1, h3]; simpa using h2
    · simp only [Memory.wfFrom, Bool.and_eq_true, decide_eq_true_eq]
      exact ⟨⟨ha, by simpa using c2⟩, ⟨by omega, h2⟩, h3⟩
    · exact Memory.wfFrom_mono (by omega) h3
    · subst c3
      simp only [Memory.wfFrom, Bool.and_eq_true, decide_eq_true_eq]
      exact ⟨⟨h1, by simpa using c4⟩, h3⟩
    · simp only [Memory.wfFrom, Bool.and_eq_true, decide_eq_true_eq]
      exact ⟨⟨h1, h2⟩, ih h3 (by omega)⟩

theorem Memory.wf_write {m : Memory} (hm : m.wf = true) (a : Nat) (b : Byte) : (m.write a b).wf = true :=
  Memory.wfFrom_write hm (Nat.zero_le a) b

/-- A write leaves every other byte alone. -/
theorem Memory.read_write_other (m : Memory) {a x : Nat} (h : x ≠ a) (b : Byte) : (m.write a b).read x = m.read x := by
  induction m with
  | nil =>
    simp only [Memory.write]
    split_ifs with hb
    · rfl
    · simp [Memory.read, Ne.symm h]
  | cons e m ih =>
    obtain ⟨y, z⟩ := e
    simp only [Memory.write]
    split_ifs with c1 c2 c3 c4
    · rfl
    · simp [Memory.read, Ne.symm h]
    · subst c3; simp [Memory.read, Ne.symm h]
    · subst c3; simp [Memory.read, Ne.symm h]
    · simp [Memory.read, ih]

theorem Memory.read_write_fromWf {low : Nat} {m : Memory} (hm : Memory.wfFrom low m = true) (a : Nat) (b : Byte) :
    (m.write a b).read a = b := by
  induction m generalizing low with
  | nil =>
    simp only [Memory.write]
    split_ifs with hb
    · exact hb.symm
    · simp [Memory.read]
  | cons e m ih =>
    obtain ⟨y, z⟩ := e
    simp only [Memory.wfFrom, Bool.and_eq_true, decide_eq_true_eq] at hm
    simp only [Memory.write]
    split_ifs with c1 c2 c3 c4
    · have : y ≠ a := by omega
      rw [c2, Memory.read, if_neg this]
      exact Memory.read_below hm.2 (by omega)
    · simp [Memory.read]
    · rw [c4]; exact Memory.read_below hm.2 (by omega)
    · simp [Memory.read]
    · have : y ≠ a := fun e => c3 e.symm
      rw [Memory.read, if_neg this]
      exact ih hm.2

/-- A written byte reads as written. -/
theorem Memory.read_write_same {m : Memory} (hm : m.wf = true) (a : Nat) (b : Byte) : (m.write a b).read a = b :=
  Memory.read_write_fromWf hm a b

/-! ## Consecutive bytes -/

theorem Memory.wf_writeBytes {m : Memory} (hm : m.wf = true) (a : Nat) (bs : List Byte) : (m.writeBytes a bs).wf = true := by
  induction bs generalizing m a with
  | nil => exact hm
  | cons b bs ih => exact ih (Memory.wf_write hm a b) (a + 1)

theorem Memory.writeBytes_append (m : Memory) (a : Nat) (bs cs : List Byte) :
    m.writeBytes a (bs ++ cs) = (m.writeBytes a bs).writeBytes (a + bs.length) cs := by
  induction bs generalizing m a with
  | nil => rfl
  | cons b bs ih =>
    show (m.write a b).writeBytes (a + 1) (bs ++ cs) = _
    rw [ih, List.length_cons]
    show ((m.write a b).writeBytes (a + 1) bs).writeBytes _ cs = ((m.write a b).writeBytes (a + 1) bs).writeBytes _ cs
    congr 1
    omega

theorem Memory.read_writeBytes_other (m : Memory) (a : Nat) (bs : List Byte) {x : Nat}
    (h : x < a ∨ a + bs.length ≤ x) : (m.writeBytes a bs).read x = m.read x := by
  induction bs generalizing m a with
  | nil => rfl
  | cons b bs ih =>
    simp only [List.length_cons] at h
    show ((m.write a b).writeBytes (a + 1) bs).read x = _
    rw [ih _ _ (by omega), Memory.read_write_other _ (by omega)]

theorem Memory.read_writeBytes_in {m : Memory} (hm : m.wf = true) (a : Nat) (bs : List Byte) (k : Nat) (hk : k < bs.length) :
    (m.writeBytes a bs).read (a + k) = bs[k] := by
  induction bs generalizing m a k with
  | nil => simp at hk
  | cons b bs ih =>
    show ((m.write a b).writeBytes (a + 1) bs).read (a + k) = _
    cases k with
    | zero =>
      rw [Memory.read_writeBytes_other _ _ _ (by omega)]
      exact Memory.read_write_same hm a b
    | succ k =>
      have := ih (Memory.wf_write hm a b) (a + 1) k (by simpa using hk)
      rw [show a + (k + 1) = a + 1 + k by omega, this]
      rfl

theorem Memory.u8_writeBytes_other (m : Memory) (a : Nat) (bs : List Byte) {x : Nat}
    (h : x < a ∨ a + bs.length ≤ x) : (m.writeBytes a bs).u8 x = m.u8 x := by
  simp only [Memory.u8, Memory.read_writeBytes_other m a bs h]

theorem Memory.u16_writeBytes_other (m : Memory) (a : Nat) (bs : List Byte) {x : Nat}
    (h : x + 1 < a ∨ a + bs.length ≤ x) : (m.writeBytes a bs).u16 x = m.u16 x := by
  simp only [Memory.u16]
  rw [Memory.u8_writeBytes_other m a bs (by omega), Memory.u8_writeBytes_other m a bs (by omega)]

theorem Memory.u32_writeBytes_other (m : Memory) (a : Nat) (bs : List Byte) {x : Nat}
    (h : x + 3 < a ∨ a + bs.length ≤ x) : (m.writeBytes a bs).u32 x = m.u32 x := by
  simp only [Memory.u32]
  rw [Memory.u16_writeBytes_other m a bs (by omega), Memory.u16_writeBytes_other m a bs (by omega)]

/-! ## Lengths of the written fields -/

@[simp] theorem length_u8Bytes (n : Nat) : (u8Bytes n).length = 1 := rfl
@[simp] theorem length_u16Bytes (n : Nat) : (u16Bytes n).length = 2 := by simp [u16Bytes]
@[simp] theorem length_u32Bytes (n : Nat) : (u32Bytes n).length = 4 := by simp [u32Bytes]
@[simp] theorem length_s16Bytes (z : Int) : (s16Bytes z).length = 2 := by simp [s16Bytes]
@[simp] theorem length_s32Bytes (z : Int) : (s32Bytes z).length = 4 := by simp [s32Bytes]
@[simp] theorem length_panelFields (p : Spout) : (panelFields p).length = 32 := by simp [panelFields]
@[simp] theorem length_profileFields (v : Bool) (p : Profile) : (profileFields v p).length = 62 := by
  unfold profileFields
  repeat rw [List.length_append]
  rw [length_u16Bytes, length_s16Bytes]
  simp only [length_u16Bytes, length_u32Bytes]
@[simp] theorem length_productFields (p : Product) : (productFields p).length = 22 := by simp [productFields]
@[simp] theorem length_preactFields (e : PreactEntry) : (preactFields e).length = 10 := by simp [preactFields]

/-- A 16-bit field reads as written. -/
theorem Memory.u16_writeBytes_u16Bytes {m : Memory} (hm : m.wf = true) (a n : Nat) (hn : n < 65536) :
    (m.writeBytes a (u16Bytes n)).u16 a = n := by
  have h0 := Memory.read_writeBytes_in hm a (u16Bytes n) 0 (by simp)
  have h1 := Memory.read_writeBytes_in hm a (u16Bytes n) 1 (by simp)
  simp only [Nat.add_zero] at h0
  simp only [Memory.u16, Memory.u8, h0, h1]
  simp only [u16Bytes, List.getElem_cons_zero, List.getElem_cons_succ, BitVec.toNat_ofNat]
  omega

/-! ## Operations that write memory alone -/

/-- The state differs in its memory alone. -/
def SameButMemory (s t : State) : Prop := ∃ m, t = { s with memory := m }

theorem SameButMemory.refl (s : State) : SameButMemory s s := ⟨s.memory, rfl⟩

theorem SameButMemory.trans {s t u : State} : SameButMemory s t → SameButMemory t u → SameButMemory s u := by
  rintro ⟨m, rfl⟩ ⟨m', rfl⟩; exact ⟨m', rfl⟩

theorem sameButMemory_writeMemory (s : State) (a : Nat) (b : List Byte) : SameButMemory s (s.writeMemory a b) := ⟨_, rfl⟩

theorem sameButMemory_writeStamped (base : Nat) (fields : List Byte) (s : State) :
    SameButMemory s (writeStamped base fields s) := ⟨_, rfl⟩

theorem sameButMemory_refreshPanel (i : SpoutId) (s : State) : SameButMemory s (refreshPanel i s) := by
  unfold refreshPanel; split
  · exact sameButMemory_writeStamped ..
  · exact .refl s

theorem sameButMemory_writeLinkState (i : SpoutId) (s : State) : SameButMemory s (writeLinkState i s) := by
  unfold writeLinkState; split
  · exact sameButMemory_writeMemory ..
  · exact .refl s

theorem sameButMemory_foldl {α : Type} (f : State → α → State) (hf : ∀ t a, SameButMemory t (f t a)) (l : List α)
    (s : State) : SameButMemory s (l.foldl f s) := by
  induction l generalizing s with
  | nil => exact .refl s
  | cons a l ih => exact (hf s a).trans (ih (f s a))

theorem sameButMemory_writeProgress (n : SlotId) (count total : Nat) (s : State) :
    SameButMemory s (writeProgress n count total s) := ⟨_, rfl⟩

theorem sameButMemory_writeEntry (n : SlotId) (e : Nat) (code : Code) (secondary : Option Code) (trims final : Nat)
    (s : State) : SameButMemory s (writeEntry n e code secondary trims final s) := ⟨_, rfl⟩

theorem sameButMemory_writeEffectiveTarget (n : SlotId) (e eff : Nat) (s : State) :
    SameButMemory s (writeEffectiveTarget n e eff s) := ⟨_, rfl⟩

theorem sameButMemory_writeStartingFields (n : SlotId) (s : State) : SameButMemory s (writeStartingFields n s) :=
  (sameButMemory_foldl _ (fun _ _ => (sameButMemory_writeEntry ..).trans (sameButMemory_writeEffectiveTarget ..)) _ s).trans
    (sameButMemory_writeProgress ..)

theorem sameButMemory_closeEntries (n : SlotId) (count total : Nat) (s : State) :
    SameButMemory s (closeEntries n count total s) := by
  refine (sameButMemory_foldl _ (fun t _ => ?_) _ s).trans (sameButMemory_writeProgress ..)
  split
  · exact sameButMemory_writeMemory ..
  · exact .refl t

theorem SameButMemory.port {s t : State} : SameButMemory s t → t.port = s.port := by rintro ⟨m, rfl⟩; rfl
theorem SameButMemory.spouts {s t : State} : SameButMemory s t → t.spouts = s.spouts := by rintro ⟨m, rfl⟩; rfl
theorem SameButMemory.products {s t : State} : SameButMemory s t → t.products = s.products := by rintro ⟨m, rfl⟩; rfl
theorem SameButMemory.preact {s t : State} : SameButMemory s t → t.preact = s.preact := by rintro ⟨m, rfl⟩; rfl
theorem SameButMemory.pending {s t : State} : SameButMemory s t → t.pending = s.pending := by rintro ⟨m, rfl⟩; rfl
theorem SameButMemory.freeCount {s t : State} : SameButMemory s t → t.freeCount = s.freeCount := by rintro ⟨m, rfl⟩; rfl

end Sys2Proof.Machine
end

