-- ==== Sys2Proof/Laws/Kept.lean ====
section
/-! SUPPORT. What the blocks' handlers can do to the state, said once: a property that every single update of `Kept` keeps is
kept by every handler and by the reactions of one action. A proof about one block, or a frame, instantiates `Kept`. -/

namespace Sys2Proof.Machine

/-! ## The updates of each block -/

/-- What a handler may make of a channel. -/
inductive ChannelStep : Channel → Channel → Prop where
  | restart (c) : ChannelStep c c.restartWindow
  | start (c) : ChannelStep c c.startCompartment
  | finish (c) : ChannelStep c c.endCompartment

/-- What a handler may make of a spout's calibration. -/
inductive CalibrationStep : Calibration → Calibration → Prop where
  | start (c) (kind : Capture) (h : kind ≠ .none) : CalibrationStep c (c.startCapture kind)
  | drop (c) : CalibrationStep c c.dropCapture
  | sample (c) (raw zero : Int) (closed : Bool) : CalibrationStep c (c.captureSample raw zero closed).1
  | owe (c) : CalibrationStep c c.oweInterval
  | restartInterval (c) (t : Timer) : CalibrationStep c { c with interval := t }
  | reconcile (c) (ratio : Nat) : CalibrationStep c { c with span := (c.reconcile ratio).1 }

/-- What a handler may make of a positioner. -/
inductive PositionerStep : Positioner → Positioner → Prop where
  | lower (p) (d : Nat) (h : p.position = .released) :
    PositionerStep p { p with drive := .lower, travel := some d, position := .lowering }
  | raise (p) (d : Nat) (h : p.position ≠ .faulted) :
    PositionerStep p { p with drive := .raise, travel := some d, position := .raising }
  | engaged (p) (h : p.position = .lowering) : PositionerStep p (p.arrive .engaged)
  | raised (p) (h : p.position = .raising) : PositionerStep p { p.arrive .released with engageWaiting := false }
  | started (p) (h : p.position = .notStarted) : PositionerStep p (p.arrive .released)
  | waiting (p) (b : Bool) (q : List Request) (h : b = true → p.position = .raising ∨ p.engageWaiting = true) :
    PositionerStep p { p with engageWaiting := b, requests := q }

/-- What a fault makes of a positioner. No reaction of one action faults a spout: the lines and the timers do. -/
inductive FaultStep : Positioner → Positioner → Prop where
  | fault (p) (cause : FaultCause) (h : cause ≠ .none) (hp : p.position ≠ .faulted) : FaultStep p (p.enterFault cause)
  | replace (p) (cause : FaultCause) (h : cause ≠ .none) (hp : p.position = .faulted) : FaultStep p { p with cause := cause }

/-- What a handler may make of a preact entry. -/
inductive PreactStep : PreactEntry → PreactEntry → Prop where
  | learn (v) (r : CutRecord) (h : HoldValues) : PreactStep v (v.learn r h)
  | seed (v) (lag : Nat) : PreactStep v { v with lag := lag, origin := .seeded }

/-- A property that every single update of a handler keeps. Contexts may change in any way, queues only shrink. -/
structure Kept (P : State → Prop) : Prop where
  memory : ∀ s a b, P s → P (s.writeMemory a b)
  done : ∀ s, P s → P (raiseDoneCount s)
  spoutChange : ∀ s, P s → P (setSpoutChange s)
  channel : ∀ s i f, ChannelStep (s.channel i) (f (s.channel i)) → P s → P (s.updateChannel i f)
  calibration : ∀ s i f, CalibrationStep (s.calibration i) (f (s.calibration i)) → P s → P (s.updateCalibration i f)
  positioner : ∀ s i f, PositionerStep (s.positioner i) (f (s.positioner i)) → P s → P (s.updatePositioner i f)
  context : ∀ s i f, P s → P (s.updateContext i f)
  queue : ∀ s i q, q.Sublist (s.queue i) → P s → P (s.setQueue i q)
  preact : ∀ s (e : Fin 128) v, PreactStep s.preact[e] v → P s → P { s with preact := s.preact.set e v }
  freeCount : ∀ s, P s → P { s with freeCount := s.freeCount + 1 }
  sampled : ∀ s i x, P s → P (s.updateSpout i (Spout.sample x (s.sampleSettings i)))
  profile : ∀ s i (m : Memory) a, P s → P (s.updateSpout i (Spout.applyProfile (m.profileAt a)))

/-- The reactions passed to a handler keep the property. -/
def KeepsReaction (P : State → Prop) (k : Reaction) : Prop := ∀ r s, P s → P (k r s)

theorem foldl_kept {α : Type} {P : State → Prop} (f : State → α → State) (hf : ∀ t a, P t → P (f t a)) (l : List α)
    {s : State} (hs : P s) : P (l.foldl f s) := by
  induction l generalizing s with
  | nil => exact hs
  | cons a l ih => exact ih (hf s a hs)

theorem forSpouts_kept {P : State → Prop} {f : SpoutId → State → State} (hf : ∀ i t, P t → P (f i t)) {s : State}
    (hs : P s) : P (forSpouts f s) := foldl_kept _ (fun t i => hf i t) _ hs

theorem forEntries_kept {P : State → Prop} {f : Fin 128 → State → State} (hf : ∀ e t, P t → P (f e t)) {s : State}
    (hs : P s) : P (forEntries f s) := foldl_kept _ (fun t e => hf e t) _ hs

theorem forMembers_kept {P : State → Prop} (o : SpoutId) {f : SpoutId → State → State} (hf : ∀ i t, P t → P (f i t))
    {s : State} (hs : P s) : P (forMembers o f s) := foldl_kept _ (fun t i => hf i t) _ hs

/-! ## Positioner states across an update of something else -/

@[simp] theorem positioner_refreshPanel (s : State) (i j : SpoutId) : (refreshPanel i s).positioner j = s.positioner j := by
  obtain ⟨m, h⟩ := sameButMemory_refreshPanel i s
  rw [h]; rfl

@[simp] theorem positioner_updatePosition (s : State) (i : SpoutId) (f : Positioner → Positioner) :
    (updatePosition i f s).positioner i = f (s.positioner i) := by
  unfold updatePosition; dsimp only; split <;> simp

namespace Kept

variable {P : State → Prop} (h : Kept P)
include h

/-! ## Memory, flags and records -/

theorem writeStamped (base : Nat) (fields : List Byte) {s : State} (hs : P s) : P (writeStamped base fields s) :=
  h.memory _ _ _ (h.memory _ _ _ (h.memory _ _ _ hs))

theorem refreshPanel (i : SpoutId) {s : State} (hs : P s) : P (refreshPanel i s) := by
  unfold Machine.refreshPanel; split
  · exact h.writeStamped _ _ hs
  · exact hs

theorem writeLinkState (i : SpoutId) {s : State} (hs : P s) : P (writeLinkState i s) := by
  unfold Machine.writeLinkState; split
  · exact h.memory _ _ _ hs
  · exact hs

theorem writeProfileImage (i : SpoutId) {s : State} (hs : P s) : P (writeProfileImage i s) := h.writeStamped _ _ hs
theorem writeProductImage (p : ProductId) {s : State} (hs : P s) : P (writeProductImage p s) := h.writeStamped _ _ hs
theorem writePreactImage (e : Fin 128) {s : State} (hs : P s) : P (writePreactImage e s) := h.writeStamped _ _ hs

theorem writeSlotState (n : SlotId) (x : SlotState) {s : State} (hs : P s) : P (writeSlotState n x s) := h.memory _ _ _ hs
theorem writeResult (n : SlotId) (r : Result) (why : Reason) (index : Nat) {s : State} (hs : P s) :
    P (writeResult n r why index s) := h.memory _ _ _ hs
theorem finishSlot (n : SlotId) (r : Result) (why : Reason) (index : Nat) {s : State} (hs : P s) :
    P (finishSlot n r why index s) := h.done _ (h.writeSlotState _ _ (h.writeResult _ _ _ _ hs))
theorem markDone (n : SlotId) (r : Result) {s : State} (hs : P s) : P (markDone n r s) := h.finishSlot _ _ _ _ hs
theorem refuseSlot (n : SlotId) (why : Reason) (index : Nat) {s : State} (hs : P s) : P (refuseSlot n why index s) :=
  h.finishSlot _ _ _ _ hs
theorem writeEntryCode (n : SlotId) (e : Nat) (code : Code) {s : State} (hs : P s) : P (writeEntryCode n e code s) :=
  h.memory _ _ _ hs
theorem writeProgress (n : SlotId) (count total : Nat) {s : State} (hs : P s) : P (writeProgress n count total s) :=
  h.memory _ _ _ (h.memory _ _ _ hs)

theorem writeEntry (n : SlotId) (e : Nat) (code : Code) (secondary : Option Code) (trims final : Nat) {s : State}
    (hs : P s) : P (writeEntry n e code secondary trims final s) := h.memory _ _ _ (h.memory _ _ _ hs)
theorem writeEffectiveTarget (n : SlotId) (e eff : Nat) {s : State} (hs : P s) : P (writeEffectiveTarget n e eff s) :=
  h.memory _ _ _ hs

theorem writeStartingFields (n : SlotId) {s : State} (hs : P s) : P (writeStartingFields n s) :=
  h.writeProgress _ _ _ (foldl_kept _ (fun _ _ ht => h.writeEffectiveTarget _ _ _ (h.writeEntry _ _ _ _ _ _ ht)) _ hs)

theorem closeEntries (n : SlotId) (count total : Nat) {s : State} (hs : P s) : P (closeEntries n count total s) := by
  refine h.writeProgress _ _ _ (foldl_kept _ (fun t _ ht => ?_) _ hs)
  split
  · exact h.writeEntryCode _ _ _ ht
  · exact ht

theorem endWithoutRunning (n : SlotId) (r : Result) {s : State} (hs : P s) : P (endWithoutRunning n r s) := by
  unfold Machine.endWithoutRunning; dsimp only
  split
  · exact h.markDone _ _ (h.closeEntries _ _ _ hs)
  · exact h.markDone _ _ hs

/-! ## Channels, learning, calibration -/

theorem updateCompartment (i : SpoutId) (f : Compartment → Compartment) {s : State} (hs : P s) : P (s.updateCompartment i f) :=
  h.context _ _ _ hs
theorem updateOrder (i : SpoutId) (f : OrderState → OrderState) {s : State} (hs : P s) : P (s.updateOrder i f) :=
  h.context _ _ _ hs
theorem updateGate (i : SpoutId) (f : GateUnit → GateUnit) {s : State} (hs : P s) : P (s.updateGate i f) :=
  h.context _ _ _ hs

theorem startIntegration (i : SpoutId) {s : State} (hs : P s) : P (startIntegration i s) := h.channel _ _ _ (.start _) hs
theorem endIntegration (i : SpoutId) {s : State} (hs : P s) : P (endIntegration i s) := h.channel _ _ _ (.finish _) hs
theorem restartWindow (i : SpoutId) {s : State} (hs : P s) : P (restartWindow i s) := h.channel _ _ _ (.restart _) hs

theorem channelSample (i : SpoutId) (x : Sample) {s : State} (hs : P s) : P (channelSample i x s) := by
  have := h.sampled s i x hs
  unfold Machine.channelSample; dsimp only; split
  · exact h.spoutChange _ this
  · exact this

theorem writePreact (e : Fin 128) (v : PreactEntry) {s : State} (hv : PreactStep s.preact[e] v) (hs : P s) :
    P (writePreact e v s) := h.writePreactImage _ (h.preact _ _ _ hv hs)

theorem learnRecord (r : CutRecord) {s : State} (hs : P s) : P (learnRecord r s) := by
  unfold Machine.learnRecord
  split
  · exact hs
  · split
    · exact h.writePreact _ _ (.learn ..) hs
    · exact hs

theorem seedEntry (i : SpoutId) (p : ProductId) (lag : Nat) {s : State} (hs : P s) : P (seedEntry i p lag s) :=
  h.writePreact _ _ (.seed ..) hs

theorem startCapture (i : SpoutId) {kind : Capture} (hk : kind ≠ .none) {s : State} (hs : P s) : P (startCapture i kind s) :=
  h.calibration _ _ _ (.start _ _ hk) hs
theorem dropCapture (i : SpoutId) {s : State} (hs : P s) : P (dropCapture i s) := h.calibration _ _ _ (.drop _) hs

theorem captureSample (i : SpoutId) (raw zero : Int) {s : State} (hs : P s) : P (captureSample i raw zero s).1 := by
  have := h.calibration s i (fun _ => ((s.calibration i).captureSample raw zero (s.present i .gateClosed)).1)
    (.sample _ raw zero _) hs
  unfold Machine.captureSample signalZeroLimit; dsimp only; split
  · exact h.spoutChange _ this
  · exact this

theorem applyProfile (i : SpoutId) (m : Memory) (a : Nat) {s : State} (hs : P s) : P (applyProfile i (m.profileAt a) s) :=
  h.writeProfileImage _ (h.profile _ _ _ _ hs)

/-! ## Stages, gates -/

theorem setStage (i : SpoutId) (x : Stage) {s : State} (hs : P s) : P (setStage i x s) := by
  unfold Machine.setStage; dsimp only; split
  · exact h.context _ _ _ hs
  · exact h.refreshPanel _ (h.context _ _ _ hs)

theorem setPhase (i : SpoutId) (x : Phase) {s : State} (hs : P s) : P (setPhase i x s) := by
  unfold Machine.setPhase; dsimp only; split
  · exact h.context _ _ _ hs
  · exact h.refreshPanel _ (h.context _ _ _ hs)

theorem setCloseAwaited (b : Bool) (i : SpoutId) {s : State} (hs : P s) : P (setCloseAwaited b i s) :=
  h.updateCompartment _ _ hs
theorem cutGate (i : SpoutId) {s : State} (hs : P s) : P (cutGate i s) := h.setCloseAwaited _ _ (h.updateGate _ _ hs)
theorem recloseGate (i : SpoutId) {s : State} (hs : P s) : P (recloseGate i s) := h.updateGate _ _ hs
theorem openGate (i : SpoutId) (x : GateOutput) {s : State} (hs : P s) : P (openGate i x s) := h.updateGate _ _ hs
theorem markOrder (i : SpoutId) (m : EndMark) {s : State} (hs : P s) : P (markOrder i m s) := h.updateOrder _ _ hs

theorem startUpClose (i : SpoutId) {s : State} (hs : P s) : P (startUpClose i s) := by
  unfold Machine.startUpClose; split
  · exact hs
  · exact h.updateGate _ _ hs

/-! ## The positioner -/

variable {k : Reaction} (hk : KeepsReaction P k)

theorem showPosition (i : SpoutId) (f : Positioner → Positioner) {s : State} (hs : P (s.updatePositioner i f)) :
    P (updatePosition i f s) := by
  unfold Machine.updatePosition; dsimp only; split
  · exact hs
  · exact h.refreshPanel _ hs

theorem updatePosition (i : SpoutId) (f : Positioner → Positioner) {s : State}
    (hf : PositionerStep (s.positioner i) (f (s.positioner i))) (hs : P s) : P (updatePosition i f s) :=
  h.showPosition _ _ (h.positioner _ _ _ hf hs)

theorem beginRaise (i : SpoutId) {s : State} (hp : (s.positioner i).position ≠ .faulted) (hs : P s) :
    P (beginRaise i s) := h.updatePosition _ _ (.raise _ _ hp) hs

theorem beginLower (i : SpoutId) {s : State} (hp : (s.positioner i).position = .released) (hs : P s) :
    P (beginLower i s) := h.updatePosition _ _ (.lower _ _ hp) hs

include hk

theorem testLowered (i : SpoutId) {s : State} (hs : P s) : P (testLowered k i s) := by
  unfold Machine.testLowered; split
  · next c => exact hk _ _ (h.updatePosition _ _ (.engaged _ c.1) hs)
  · exact hs

theorem lowerSpout (i : SpoutId) {s : State} (hp : (s.positioner i).position = .released) (hs : P s) :
    P (lowerSpout k i s) := h.testLowered hk i (h.beginLower i hp hs)

theorem testRaised (i : SpoutId) {s : State} (hs : P s) : P (testRaised k i s) := by
  unfold Machine.testRaised; dsimp only; split
  · next c =>
    have := h.updatePosition i (fun p => { p.arrive .released with engageWaiting := false })
      (.raised (s.positioner i) c.1) hs
    split
    · exact h.lowerSpout hk i (by simp [Positioner.arrive]) this
    · exact hk _ _ this
  · exact hs

theorem raiseSpout (i : SpoutId) {s : State} (hp : (s.positioner i).position ≠ .faulted) (hs : P s) :
    P (raiseSpout k i s) := h.testRaised hk i (h.beginRaise i hp hs)

omit hk in
theorem waitPositioner (i : SpoutId) (f : Positioner → Positioner)
    {s : State} (hf : ∃ b q, f (s.positioner i) = { s.positioner i with engageWaiting := b, requests := q }
      ∧ (b = true → (s.positioner i).position = .raising ∨ (s.positioner i).engageWaiting = true)) (hs : P s) :
    P (s.updatePositioner i f) := by
  obtain ⟨b, q, e, hb⟩ := hf
  exact h.positioner _ _ _ (by rw [e]; exact .waiting _ b q hb) hs

theorem engageRequest (i : SpoutId) {s : State} (hs : P s) : P (engageRequest k i s) := by
  unfold Machine.engageRequest; split
  · next c => exact h.lowerSpout hk i c hs
  · next c => exact h.waitPositioner i _ ⟨_, _, rfl, fun _ => .inl c⟩ hs
  · exact hs
  · exact hk _ _ hs
  · exact hk _ _ hs
  · exact h.waitPositioner i _ ⟨_, _, rfl, .inr⟩ hs

theorem releaseRequest (i : SpoutId) {s : State} (hs : P s) : P (releaseRequest k i s) := by
  unfold Machine.releaseRequest; split
  · next c => exact h.raiseSpout hk i (by simp [c]) hs
  · next c => exact h.raiseSpout hk i (by simp [c]) hs
  · exact h.waitPositioner i _ ⟨_, _, rfl, by simp⟩ hs
  · exact hk _ _ hs
  · exact hk _ _ hs
  · exact h.waitPositioner i _ ⟨_, _, rfl, .inr⟩ hs

omit hk in
theorem takeStartUpState (i : SpoutId) {s : State} (hp : (s.positioner i).position = .notStarted) (hs : P s) :
    P (takeStartUpState i s) := by
  unfold Machine.takeStartUpState; split
  · exact h.updatePosition _ _ (.started _ hp) hs
  · exact h.beginRaise _ (by simp [hp]) hs

theorem startPositioner (i : SpoutId) {s : State} (hs : P s) : P (startPositioner k i s) := by
  unfold Machine.startPositioner; split
  · next c =>
    refine foldl_kept _ (fun t r ht => ?_) _ (h.takeStartUpState i (by simp [c])
      (h.waitPositioner i _ ⟨_, _, rfl, .inr⟩ hs))
    cases r
    · exact h.engageRequest hk i ht
    · exact h.releaseRequest hk i ht
  · exact hs

theorem softResetPositioner (i : SpoutId) {s : State} (hs : P s) : P (softResetPositioner k i s) := by
  have := h.waitPositioner i (fun p => { p with engageWaiting := false, requests := [] }) ⟨_, _, rfl, by simp⟩ hs
  unfold Machine.softResetPositioner; dsimp only; split
  · next c => exact h.raiseSpout hk i (by rw [c]; simp) this
  · next c => exact h.raiseSpout hk i (by rw [c]; simp) this
  · exact this

/-! ## Load orders -/

omit hk in
theorem restContext (i : SpoutId) {s : State} (hs : P s) : P (restContext i s) := h.setStage _ _ (h.context _ _ _ hs)

omit hk in
theorem leaveBound (f : SpoutId) {s : State} (hs : P s) : P (leaveBound f s) := h.restContext _ (h.context _ _ _ hs)

omit hk in
theorem freeFollower (f : SpoutId) {s : State} (hs : P s) : P (freeFollower f s) := by
  unfold Machine.freeFollower; split
  · exact h.leaveBound _ hs
  · exact h.context _ _ _ hs

omit hk in
theorem closeOrderSlot (n : SlotId) (o : OrderState) {s : State} (hs : P s) : P (closeOrderSlot n o s) :=
  h.markDone _ _ (h.closeEntries _ _ _ hs)

theorem endOrder (i : SpoutId) {s : State} (hs : P s) : P (endOrder k i s) := by
  unfold Machine.endOrder; dsimp only
  split
  · split
    · exact hk _ _ (hk _ _ (h.freeFollower _ (h.restContext _ (h.closeOrderSlot _ _ hs))))
    · exact hk _ _ (hk _ _ (h.freeFollower _ (h.restContext _ hs)))
  · split
    · exact hk _ _ (h.restContext _ (h.closeOrderSlot _ _ hs))
    · exact hk _ _ (h.restContext _ hs)

omit hk in
theorem withdrawClaim (f : SpoutId) {s : State} (hs : P s) : P (withdrawClaim f s) := by
  unfold Machine.withdrawClaim; split
  · exact hs
  · exact h.context _ _ _ hs

omit hk in
theorem resetRest (i : SpoutId) {s : State} (hs : P s) : P (resetRest i s) := by
  unfold Machine.resetRest; dsimp only
  split
  · split
    · exact h.withdrawClaim _ (h.restContext _ (h.writeResult _ _ _ _ (h.closeEntries _ _ _ hs)))
    · exact h.withdrawClaim _ (h.restContext _ hs)
  · split
    · exact h.restContext _ (h.writeResult _ _ _ _ (h.closeEntries _ _ _ hs))
    · exact h.restContext _ hs

theorem concludeOrder (i : SpoutId) {s : State} (hs : P s) : P (concludeOrder k i s) := by
  unfold Machine.concludeOrder; split
  · exact h.resetRest _ hs
  · exact h.endOrder hk _ hs

omit hk in
theorem startIndexTimer (i : SpoutId) {s : State} (hs : P s) : P (startIndexTimer i s) := h.updateOrder _ _ hs

omit hk in
theorem enterEngaging (i : SpoutId) {s : State} (hs : P s) : P (enterEngaging i s) :=
  h.setStage _ _ (h.dropCapture _ (h.updateOrder _ _ hs))

theorem engageFollower (i : SpoutId) {s : State} (hs : P s) : P (engageFollower k i s) := by
  unfold Machine.engageFollower; dsimp only; split
  · exact h.engageRequest hk _ hs
  · exact hs

theorem beginEngaging (i : SpoutId) {s : State} (hs : P s) : P (beginEngaging k i s) := by
  unfold Machine.beginEngaging; dsimp only; split
  · exact h.engageFollower hk _ (h.engageRequest hk _ (h.enterEngaging _ (h.setPhase _ _ (h.dropCapture _ hs))))
  · exact h.engageRequest hk _ (h.enterEngaging _ hs)

theorem testIndex (i : SpoutId) {s : State} (hs : P s) : P (testIndex k i s) := by
  unfold Machine.testIndex; split
  · exact h.beginEngaging hk _ hs
  · exact hs

omit hk in
theorem stepThrough (n : SlotId) (o : OrderState) (l : List OrderEntry) (e : Nat) {s : State} (hs : P s) :
    P (stepThrough n o e l s).1 := by
  induction l generalizing e s with
  | nil => exact hs
  | cons x l ih =>
    unfold Machine.stepThrough; split
    · exact ih _ (h.writeProgress _ _ _ (h.writeEntryCode _ _ _ hs))
    · dsimp only; split
      · exact hs
      · exact h.writeProgress _ _ _ (foldl_kept _ (fun _ _ ht => h.writeEntryCode _ _ _ ht) _ hs)

omit hk in
theorem handOver (i : SpoutId) (e eff : Nat) {s : State} (hs : P s) : P (handOver i e eff s) := h.updateCompartment _ _ hs

theorem placeClaim (i : SpoutId) (n : SlotId) {s : State} (hs : P s) : P (placeClaim k i n s) := by
  unfold Machine.placeClaim; dsimp only; split
  · exact h.endOrder hk _ (h.markOrder _ _ hs)
  · exact hk _ _ (h.context _ _ _ hs)

theorem enterWaitIndex (i : SpoutId) {s : State} (hs : P s) : P (enterWaitIndex k i s) := by
  unfold Machine.enterWaitIndex; dsimp only; split
  · exact h.testIndex hk _ (h.setStage _ _ (h.setPhase _ _ (h.updateCompartment _ _ (h.startIndexTimer _ hs))))
  · exact h.testIndex hk _ (h.setStage _ _ (h.startIndexTimer _ hs))

theorem stepFrom (i : SpoutId) (n : SlotId) (e : Nat) (first : Bool) {s : State} (hs : P s) :
    P (stepFrom k i n e first s) := by
  have := h.stepThrough n (s.order i) ((s.order i).entries.drop e) e hs
  unfold Machine.stepFrom; dsimp only; split
  · next t c => rw [c] at this; exact h.endOrder hk _ this
  · next t e' eff c =>
    rw [c] at this
    split
    · exact h.placeClaim hk _ _ (h.setStage _ _ (h.handOver _ _ _ this))
    · exact h.enterWaitIndex hk _ (h.handOver _ _ _ this)

theorem becomeRunning (i : SpoutId) (n : SlotId) (twin : Bool) {s : State} (hs : P s) : P (becomeRunning k i n twin s) :=
  h.stepFrom hk _ _ _ _ (h.context _ _ _ (h.writeSlotState _ _ hs))

theorem grantClaim (f : SpoutId) (c : Claim) {s : State} (hs : P s) : P (grantClaim k f c s) :=
  h.testIndex hk _ (h.startIndexTimer _ (h.setStage _ _ (h.context _ _ _ hs)))

/-! ## Compartments -/

omit hk in
theorem setMemberPhase (o m : SpoutId) (x : Phase) {s : State} (hs : P s) : P (setMemberPhase o m x s) := by
  unfold Machine.setMemberPhase; split
  · exact hs
  · exact h.setPhase _ _ hs

theorem leaveReleasing (o : SpoutId) {s : State} (hs : P s) : P (leaveReleasing k o s) := by
  unfold Machine.leaveReleasing; split
  · exact h.stepFrom hk _ _ _ _ hs
  · exact h.concludeOrder hk _ hs

theorem releaseCheck (o : SpoutId) {s : State} (hs : P s) : P (releaseCheck k o s) := by
  unfold Machine.releaseCheck; split
  · exact h.leaveReleasing hk _ hs
  · exact hs

omit hk in
theorem startSettleCapture (b : Bool) (m : SpoutId) {s : State} (hs : P s) : P (startSettleCapture b m s) := by
  unfold Machine.startSettleCapture; split
  · exact h.startCapture _ (by simp) hs
  · exact hs

omit hk in
theorem enterReleasing (o : SpoutId) (b : Bool) {s : State} (hs : P s) : P (enterReleasing o b s) :=
  forMembers_kept _ (fun _ _ ht => h.startSettleCapture _ _ ht)
    (forMembers_kept _ (fun _ _ ht => h.setMemberPhase _ _ _ ht)
      (h.setStage _ _ (forMembers_kept _ (fun _ _ ht => h.updateCompartment _ _ ht) (h.updateOrder _ _ hs))))

theorem requestRelease (o m : SpoutId) {s : State} (hs : P s) : P (requestRelease k o m s) := by
  unfold Machine.requestRelease; split
  · exact h.releaseRequest hk _ hs
  · exact hs

theorem startRelease (o : SpoutId) (b : Bool) {s : State} (hs : P s) : P (startRelease k o b s) := by
  unfold Machine.startRelease; split
  · exact h.concludeOrder hk _ hs
  · exact h.releaseCheck hk _ (forMembers_kept _ (fun _ _ ht => h.requestRelease hk _ _ ht) (h.enterReleasing _ _ hs))

theorem onReleased (i : SpoutId) {s : State} (hs : P s) : P (onReleased k i s) := by
  unfold Machine.onReleased; dsimp only; split
  · exact h.releaseCheck hk _ (h.updateCompartment _ _ hs)
  · exact hs

omit hk in
theorem takeFinal (o : SpoutId) {s : State} (hs : P s) : P (takeFinal o s).1 := by
  unfold Machine.takeFinal; split
  · split
    · exact hs
    · exact h.freeCount _ hs
  · exact hs

omit hk in
theorem recordEntry (o : SpoutId) (code : Code) (final : Nat) {s : State} (hs : P s) : P (recordEntry o code final s) := by
  unfold Machine.recordEntry; dsimp only; split
  · exact h.writeProgress _ _ _ (h.writeEntry _ _ _ _ _ _ (h.updateOrder _ _ hs))
  · exact h.updateOrder _ _ hs

omit hk in
theorem handRecord (o : SpoutId) (code : Code) (final : Nat) (b : Bool) {s : State} (hs : P s) :
    P (handRecord o code final b s) := by
  unfold Machine.handRecord; split
  · split
    · exact h.learnRecord _ hs
    · exact hs
  · exact hs

theorem finishCompartment (o : SpoutId) (b : Bool) {s : State} (hs : P s) : P (finishCompartment k o b s) := by
  unfold Machine.finishCompartment; dsimp only; split
  · exact h.resetRest _ (h.handRecord _ _ _ _ (h.markOrder _ _ (h.recordEntry _ _ _ (h.takeFinal _
      (forMembers_kept _ (fun _ _ ht => h.endIntegration _ ht) hs)))))
  · exact h.startRelease hk _ _ (h.handRecord _ _ _ _ (h.markOrder _ _ (h.recordEntry _ _ _ (h.takeFinal _
      (forMembers_kept _ (fun _ _ ht => h.endIntegration _ ht) hs)))))

theorem endUnopened (o : SpoutId) (code : Code) {s : State} (hs : P s) : P (endUnopened k o code s) :=
  h.finishCompartment hk _ _ (h.updateCompartment _ _ (forMembers_kept _ (fun _ _ ht => h.dropCapture _ ht) hs))

omit hk in
theorem cutMember (o m : SpoutId) {s : State} (hs : P s) : P (cutMember o m s) := by
  unfold Machine.cutMember; split
  · exact h.setMemberPhase _ _ _ (h.cutGate _ hs)
  · exact hs

omit hk in
theorem cut (o : SpoutId) (reason : Option Code) {s : State} (hs : P s) : P (cut o reason s) :=
  h.setStage _ _ (h.updateCompartment _ _ (forMembers_kept _ (fun _ _ ht => h.cutMember _ _ ht) hs))

omit hk in
theorem interlock (o : SpoutId) (code : Code) {s : State} (hs : P s) : P (interlock o code s) := by
  unfold Machine.interlock; split
  · exact h.cut _ _ hs
  · split
    · exact forMembers_kept _ (fun _ _ ht => h.cutMember _ _ ht) (h.updateCompartment _ _ hs)
    · exact hs

omit hk in
theorem levelInterlock (o : SpoutId) {s : State} (hs : P s) : P (levelInterlock o s) := by
  unfold Machine.levelInterlock; split
  · exact h.cut _ _ hs
  · split
    · exact forMembers_kept _ (fun _ _ ht => h.cutMember _ _ ht) (h.updateCompartment _ _ hs)
    · exact hs

omit hk in
theorem verifyOpening (i : SpoutId) {s : State} (hs : P s) : P (verifyOpening i s) := by
  have := h.setMemberPhase (s.ownerOf i) i .feeding (h.updateCompartment i (fun c => { c with starveCount := 0 })
    (h.updateGate i (GateUnit.verify (s.profile i).starveWindow) hs))
  unfold Machine.verifyOpening; dsimp only; split
  · exact h.setStage _ _ this
  · exact this

omit hk in
theorem openCompartment (o : SpoutId) {s : State} (hs : P s) : P (openCompartment o s) := by
  refine forMembers_kept _ (fun _ _ ht => ?_) (h.setStage _ _ (forMembers_kept _
    (fun _ _ ht => h.setMemberPhase _ _ _ (h.openGate _ _ (h.startIntegration _ ht))) (h.updateCompartment _ _ hs)))
  split
  · exact h.verifyOpening _ ht
  · exact ht

omit hk in
theorem closeUnopened (o : SpoutId) {s : State} (hs : P s) : P (closeUnopened o s) := by
  refine h.setStage _ _ (h.updateCompartment _ _ (forMembers_kept _ (fun _ _ ht => ?_) hs))
  split
  · exact ht
  · exact h.setMemberPhase _ _ _ (h.cutGate _ ht)

theorem checkOpening (o : SpoutId) {s : State} (hs : P s) : P (checkOpening k o s) := by
  unfold Machine.checkOpening; dsimp only
  split
  · exact h.endUnopened hk _ _ hs
  split
  · exact h.endUnopened hk _ _ hs
  split
  · exact h.endUnopened hk _ _ hs
  split
  · exact h.endUnopened hk _ _ hs
  split
  · exact h.closeUnopened _ hs
  · exact h.openCompartment _ hs

omit hk in
theorem clearCompartment (o : SpoutId) {s : State} (hs : P s) : P (clearCompartment o s) := by
  refine forMembers_kept _ (fun _ _ ht => h.context _ _ _ ht) ?_
  split
  · exact h.memory _ _ _ hs
  · exact hs

theorem startCompartment (o : SpoutId) {s : State} (hs : P s) : P (startCompartment k o s) := by
  unfold Machine.startCompartment; dsimp only; split
  · exact h.checkOpening hk _ (h.clearCompartment _ hs)
  · exact foldl_kept _ (fun _ _ ht => h.setMemberPhase _ _ _ (h.startCapture _ (by simp) ht)) _
      (h.setStage _ _ (h.clearCompartment _ hs))

theorem onEngaged (i : SpoutId) {s : State} (hs : P s) : P (onEngaged k i s) := by
  unfold Machine.onEngaged; dsimp only
  split
  · split
    · exact h.startCompartment hk _ (h.updateCompartment _ _ hs)
    · exact h.updateCompartment _ _ hs
  · exact hs

theorem zeroingDone (o : SpoutId) {s : State} (hs : P s) : P (zeroingDone k o s) := by
  unfold Machine.zeroingDone; split
  · exact h.checkOpening hk _ hs
  · exact hs

omit hk in
theorem startTrim (o : SpoutId) {s : State} (hs : P s) : P (startTrim o s) := by
  have := h.setStage o .trim (h.restartWindow o (h.openGate o .openFine (h.updateCompartment o
    (fun c => { c with trimsUsed := c.trimsUsed + 1 }) hs)))
  unfold Machine.startTrim; dsimp only; split
  · exact this
  · exact h.verifyOpening _ this

theorem settleEnd (o : SpoutId) {s : State} (hs : P s) : P (settleEnd k o s) := by
  unfold Machine.settleEnd; split
  · exact h.startTrim _ hs
  · exact h.finishCompartment hk _ _ hs

theorem settleCheck (o : SpoutId) {s : State} (hs : P s) : P (settleCheck k o s) := by
  unfold Machine.settleCheck; split
  · exact h.settleEnd hk _ hs
  · exact hs

omit hk in
theorem countSettle (i : SpoutId) {s : State} (hs : P s) : P (countSettle i s) := by
  unfold Machine.countSettle; exact h.updateCompartment _ _ hs

theorem closesEnded (o : SpoutId) {s : State} (hs : P s) : P (closesEnded k o s) := by
  unfold Machine.closesEnded; split
  · exact h.finishCompartment hk _ _ hs
  · exact hs

theorem resetCheck (o : SpoutId) {s : State} (hs : P s) : P (resetCheck k o s) := by
  unfold Machine.resetCheck; split
  · exact h.finishCompartment hk _ _ hs
  · exact hs

omit hk in
theorem leaderWaits (o : SpoutId) {s : State} (hs : P s) : P (leaderWaits o s) :=
  h.setStage _ _ (h.updateCompartment _ _ (h.endIntegration _ hs))

theorem resetCloseEnded (o i : SpoutId) {s : State} (hs : P s) : P (resetCloseEnded k o i s) := by
  unfold Machine.resetCloseEnded; split
  · exact h.resetCheck hk _ (h.leaderWaits _ hs)
  · exact h.resetCheck hk _ (h.leaveBound _ (h.endIntegration _ hs))

omit hk in
theorem freshSettle (i : SpoutId) {s : State} (hs : P s) : P (freshSettle i s) := h.updateCompartment _ _ hs

theorem ownCloseTaken (o : SpoutId) {s : State} (hs : P s) : P (ownCloseTaken k o s) := by
  unfold Machine.ownCloseTaken; split_ifs
  · exact h.resetCloseEnded hk _ _ hs
  · exact h.finishCompartment hk _ _ hs
  · exact h.closesEnded hk _ hs
  · exact h.setStage _ _ (h.freshSettle _ hs)

theorem followerCloseTaken (f : SpoutId) {s : State} (hs : P s) : P (followerCloseTaken k f s) := by
  unfold Machine.followerCloseTaken; dsimp only; split_ifs
  · exact h.resetCloseEnded hk _ _ hs
  · exact h.closesEnded hk _ (h.setPhase _ _ hs)
  · exact h.closesEnded hk _ (h.setPhase _ _ (h.freshSettle _ hs))

theorem closeTaken (i : SpoutId) {s : State} (hs : P s) : P (closeTaken k i s) := by
  unfold Machine.closeTaken; dsimp only; split_ifs
  · exact h.ownCloseTaken hk _ (h.setCloseAwaited _ _ (h.updateGate _ _ hs))
  · exact h.followerCloseTaken hk _ (h.setCloseAwaited _ _ (h.updateGate _ _ hs))
  · exact h.closesEnded hk _ (h.setCloseAwaited _ _ (h.updateGate _ _ hs))

theorem stopOrder (o : SpoutId) {s : State} (hs : P s) : P (stopOrder k o s) := by
  have hm := h.updateOrder o (fun x => { x with stopTaken := true }) (h.markOrder o .stopped hs)
  unfold Machine.stopOrder; split
  · exact hs
  dsimp only; split
  · exact h.endOrder hk _ hm
  · exact h.startRelease hk _ _ (forMembers_kept _ (fun _ _ ht => h.dropCapture _ ht) hm)
  · exact h.startRelease hk _ _ (forMembers_kept _ (fun _ _ ht => h.dropCapture _ ht) hm)
  · exact h.cut _ _ hm
  · exact h.cut _ _ hm
  · exact h.cut _ _ hm
  · exact h.cut _ _ hm
  · exact h.updateCompartment _ _ hm
  · exact h.updateCompartment _ _ hm
  · exact hm

/-! ## ZERO and RECONCILE -/

omit hk in
theorem writeZeroFields (n : SlotId) (b a : Int) (l : Bool) {s : State} (hs : P s) : P (writeZeroFields n b a l s) :=
  h.memory _ _ _ hs

theorem serveZero (i : SpoutId) (n : SlotId) {s : State} (hs : P s) : P (serveZero k i n s) := by
  unfold Machine.serveZero; split
  · exact h.startCapture _ (by simp) (h.setStage _ _ (h.dropCapture _ (h.context _ _ _ (h.writeSlotState _ _ hs))))
  · exact hk _ _ (h.refuseSlot _ _ _ hs)

theorem endZeroRun (i : SpoutId) (r : Result) (before : Int) {s : State} (hs : P s) : P (endZeroRun k i r before s) := by
  unfold Machine.endZeroRun; dsimp only; split
  · exact hk _ _ (h.restContext _ (h.markDone _ _ (h.writeZeroFields _ _ _ _ (h.dropCapture _ hs))))
  · exact hk _ _ (h.restContext _ (h.dropCapture _ hs))

theorem endZeroUnchanged (i : SpoutId) (r : Result) {s : State} (hs : P s) : P (endZeroUnchanged k i r s) :=
  h.endZeroRun hk _ _ _ hs

theorem serveReconcile (i : SpoutId) (n : SlotId) {s : State} (hs : P s) : P (serveReconcile k i n s) :=
  hk _ _ (h.markDone _ _ (h.memory _ _ _ (h.calibration _ _ _ (.reconcile _ _) hs)))

/-! ## Faults -/

omit hk in
theorem returnQueue (i : SpoutId) {s : State} (hs : P s) : P (returnQueue i s) := by
  unfold Machine.returnQueue; split
  · exact hs
  · exact foldl_kept _ (fun _ _ ht => h.endWithoutRunning _ _ ht) _ (h.queue _ _ _ (List.nil_sublist _) hs)

/-- The property is kept by a fault of the spout. -/
def KeepsFault (P : State → Prop) (i : SpoutId) : Prop :=
  ∀ s f, FaultStep (s.positioner i) (f (s.positioner i)) → P s → P (s.updatePositioner i f)

omit hk in
theorem enterFault (i : SpoutId) (hf : KeepsFault P i) {cause : FaultCause} (hc : cause ≠ .none) {s : State} (hs : P s) :
    P (enterFault i cause s) := by
  unfold Machine.enterFault; split
  · next c =>
    split
    · refine h.spoutChange _ (hf _ _ (.replace _ _ hc ?_) hs)
      simpa [State.isFaulted] using c
    · exact hs
  · next c =>
    refine h.spoutChange _ (h.dropCapture _ (h.returnQueue _ (h.showPosition _ _ (hf _ _ (.fault _ _ hc ?_) hs))))
    simpa [State.isFaulted] using c

theorem withdrawClaimOn (f : SpoutId) {s : State} (hs : P s) : P (withdrawClaimOn k f s) := by
  unfold Machine.withdrawClaimOn; split
  · split
    · exact hs
    · exact h.endOrder hk _ (h.markOrder _ _ hs)
  · exact hs

omit hk in
theorem freezeChannel (i : SpoutId) (cause : FaultCause) {s : State} (hs : P s) : P (freezeChannel i cause s) := by
  unfold Machine.freezeChannel; split
  · exact hs
  · exact h.endIntegration _ hs

theorem faultAlone (o : SpoutId) (cause : FaultCause) {s : State} (hs : P s) : P (faultAlone k o cause s) := by
  have hf := h.freezeChannel o cause hs
  unfold Machine.faultAlone; dsimp only; split
  · split_ifs
    · exact h.finishCompartment hk _ _ (h.updateCompartment _ _ hf)
    · exact h.updateCompartment _ _ hf
    · exact h.updateCompartment _ _ (h.updateCompartment _ _ hf)
  · split_ifs
    · exact h.updateCompartment _ _ hf
    · exact h.finishCompartment hk _ _ (h.updateCompartment _ _ hf)
  · exact h.updateCompartment _ _ (h.cut _ _ hf)

omit hk in
theorem awaitCloses (o : SpoutId) {s : State} (hs : P s) : P (awaitCloses o s) := by
  refine forMembers_kept _ (fun _ _ ht => ?_) hs
  split
  · exact h.setCloseAwaited _ _ ht
  · exact ht

omit hk in
theorem holdFollower (o i : SpoutId) {s : State} (hs : P s) : P (holdFollower o i s) := h.setMemberPhase _ _ _ hs

theorem faultInPair (o i : SpoutId) (cause : FaultCause) {s : State} (hs : P s) : P (faultInPair k o i cause s) :=
  h.closesEnded hk _ (h.holdFollower _ _ (h.awaitCloses _ (h.updateCompartment _ _
    (h.interlock _ _ (h.freezeChannel _ _ hs)))))

theorem faultInReset (o i : SpoutId) (cause : FaultCause) {s : State} (hs : P s) : P (faultInReset k o i cause s) := by
  unfold Machine.faultInReset; dsimp only; split
  · exact h.resetCloseEnded hk _ _ (h.updateCompartment _ _ (h.freezeChannel _ _ hs))
  · exact h.updateCompartment _ _ (h.freezeChannel _ _ hs)

theorem faultMetering (o i : SpoutId) (cause : FaultCause) {s : State} (hs : P s) : P (faultMetering k o i cause s) := by
  have hm := h.markOrder o .spoutFault hs
  unfold Machine.faultMetering; dsimp only; split_ifs
  · exact h.faultInReset hk _ _ _ hm
  · exact h.faultInPair hk _ _ _ hm
  all_goals exact h.faultAlone hk _ _ hm

theorem contextFaulted (i : SpoutId) (cause : FaultCause) {s : State} (hs : P s) : P (contextFaulted k i cause s) := by
  unfold Machine.contextFaulted; dsimp only; split
  · split
    · exact h.leaveBound _ hs
    · exact hs
  · exact hs
  · exact h.endOrder hk _ (h.markOrder _ _ hs)
  · exact h.endUnopened hk _ _ (h.markOrder _ _ hs)
  · exact h.endUnopened hk _ _ (h.markOrder _ _ hs)
  · split
    · exact h.releaseCheck hk _ (h.holdFollower _ _ (h.markOrder _ _ hs))
    · exact h.concludeOrder hk _ (h.markOrder _ _ hs)
  · exact h.endZeroUnchanged hk _ _ hs
  all_goals exact h.faultMetering hk _ _ _ hs

theorem spoutFault (i : SpoutId) (hf : KeepsFault P i) {cause : FaultCause} (hc : cause ≠ .none) {s : State} (hs : P s) :
    P (spoutFault k i cause s) :=
  h.contextFaulted hk _ _ (h.withdrawClaimOn hk _ (h.enterFault _ hf hc hs))

theorem onFaultReport (i : SpoutId) {s : State} (hs : P s) : P (onFaultReport k i s) := h.contextFaulted hk _ _ hs

theorem closeFailed (i : SpoutId) (hf : KeepsFault P i) {s : State} (hs : P s) : P (closeFailed k i s) :=
  h.spoutFault hk _ hf (by simp) (h.setCloseAwaited _ _ (h.updateGate _ _ hs))

/-! ## Metering -/

omit hk in
theorem restartStarve (i : SpoutId) {s : State} (hs : P s) : P (restartStarve i s) := by
  unfold Machine.restartStarve; dsimp only; split
  · exact h.updateCompartment _ _ (h.updateGate _ _ hs)
  · exact hs

omit hk in
theorem closeFollower (o : SpoutId) {s : State} (hs : P s) : P (closeFollower o s) := by
  unfold Machine.closeFollower; dsimp only; split
  · exact h.setPhase _ _ (h.context _ _ _ (h.cutGate _ hs))
  · exact hs

omit hk in
theorem fineCut (o : SpoutId) {s : State} (hs : P s) : P (fineCut o s) := by
  unfold Machine.fineCut; dsimp only; split
  · exact h.cut _ _ (h.updateCompartment _ _ hs)
  · exact hs

omit hk in
theorem trimCut (o : SpoutId) {s : State} (hs : P s) : P (trimCut o s) := by
  unfold Machine.trimCut; split
  · exact h.cut _ _ hs
  · exact hs

omit hk in
theorem evaluateFeed (o : SpoutId) {s : State} (hs : P s) : P (evaluateFeed o s) := by
  unfold Machine.evaluateFeed; split
  · unfold coarseSample; split
    · exact h.fineCut _ (h.setStage _ _ (h.updateGate _ _ (h.closeFollower _ hs)))
    · exact hs
  · unfold fineSample; split
    · exact h.fineCut _ (h.closeFollower _ hs)
    · exact h.fineCut _ hs
  · exact h.trimCut _ hs
  · exact hs

theorem ownSample (o : SpoutId) {s : State} (hs : P s) : P (ownSample k o s) := by
  unfold Machine.ownSample; split_ifs
  · exact h.cut _ _ hs
  · exact h.settleCheck hk _ (h.countSettle _ hs)
  · exact h.evaluateFeed _ (h.restartStarve _ hs)

theorem followerSettle (f : SpoutId) {s : State} (hs : P s) : P (followerSettle k f s) := by
  unfold Machine.followerSettle; dsimp only; split_ifs
  · exact h.settleCheck hk _ (h.setPhase _ _ (h.countSettle _ hs))
  · exact h.countSettle _ hs
  · exact hs

theorem followerSample (f : SpoutId) {s : State} (hs : P s) : P (followerSample k f s) := by
  have := h.followerSettle hk f (h.restartStarve f hs)
  unfold Machine.followerSample; dsimp only; split_ifs
  · exact h.interlock _ _ hs
  · exact h.evaluateFeed _ this
  · exact this

theorem captureEvent (i : SpoutId) (before : Int) (e : CaptureEvent) {s : State} (hs : P s) :
    P (captureEvent k i before e s) := by
  unfold Machine.captureEvent; split
  · exact hs
  · exact hk _ _ hs
  · exact h.zeroingDone hk _ hs
  · exact h.endZeroRun hk _ _ _ hs

theorem deliverSample (i : SpoutId) (x : Sample) {s : State} (hs : P s) : P (deliverSample k i x s) := by
  have hc := h.channelSample i x hs
  unfold Machine.deliverSample; dsimp only
  split_ifs
  · exact h.followerSample hk _ hc
  · exact h.ownSample hk _ hc
  · exact h.captureEvent hk _ _ _ (h.captureSample _ _ _ (h.followerSample hk _ hc))
  · exact h.captureEvent hk _ _ _ (h.captureSample _ _ _ (h.ownSample hk _ hc))

/-! ## Service at a queue head, and the reactions -/

theorem serveHead (i : SpoutId) (n : SlotId) {s : State} (hs : P s) : P (serveHead k i n s) := by
  unfold Machine.serveHead; split
  · exact h.becomeRunning hk _ _ _ hs
  · exact h.becomeRunning hk _ _ _ hs
  · exact h.serveZero hk _ _ hs
  · exact h.serveReconcile hk _ _ hs
  · exact hk _ _ (h.markDone _ _ (h.applyProfile _ _ _ hs))
  · exact hk _ _ (h.markDone _ _ (h.seedEntry _ _ _ hs))
  · exact hs

theorem onIdle (i : SpoutId) {s : State} (hs : P s) : P (onIdle k i s) := by
  unfold Machine.onIdle; split
  · split
    · exact h.grantClaim hk _ _ hs
    · next c => exact h.serveHead hk _ _ (h.queue _ _ _ (by rw [c]; exact List.sublist_cons_self _ _) hs)
    · exact hs
  · exact hs

omit hk in
theorem reactTo (depth : Nat) : KeepsReaction P (reactTo depth) := by
  induction depth with
  | zero => exact fun _ _ hs => hs
  | succ d ih =>
    intro r s hs
    cases r with
    | idle i => exact h.onIdle ih i hs
    | engaged i => exact h.onEngaged ih i hs
    | released i => exact h.onReleased ih i hs
    | captureEnded i => exact h.releaseCheck ih _ hs
    | faultReport i => exact h.onFaultReport ih i hs

omit hk in
/-- Every reaction of one action keeps the property. -/
theorem react : KeepsReaction P react := h.reactTo _

end Kept

end Sys2Proof.Machine
end

