-- ==== Sys2Proof/Laws/KeptByStep.lean ====
section
/-! SUPPORT. What a command can do to the state, said once: a property that every update of `KeptAll` keeps is kept by every
step. The two layers below it serve frames: what the lines and timers can do, and what the intake can do. -/

namespace Sys2Proof.Machine

/-! ## The further updates -/

/-- What a command may make of a receiver. -/
inductive ReceiverStep : Receiver → Receiver → Prop where
  | watch (r) (t : Timer) : ReceiverStep r { r with watch := t }
  | take (r) (x : Frame) (gap : Nat) : ReceiverStep r (r.take x gap)
  | sampled (r) (run : Nat) (h : r.link = .present) (hr : run ≤ 4) :
    ReceiverStep r { r with missingRun := run, silence := some Config.silenceMs }
  | present (r) :
    ReceiverStep r { r with link := .present, missingRun := 0, silence := some Config.silenceMs, watch := none }
  | lose (r) : ReceiverStep r r.lose
  | absent (r) (h : r.link = .searching) : ReceiverStep r { r with link := .absent }
  | clear (r) : ReceiverStep r { r with assembly := [] }
  | reject (r) : ReceiverStep r r.reject
  | discard (r) : ReceiverStep r r.discardInHunt
  | sync (r) : ReceiverStep r { r with assembly := [Config.syncChar], huntCounted := false }
  | append (r) (c : Byte) (h : r.assembly ≠ []) (hl : r.assembly.length < 5) :
    ReceiverStep r { r with assembly := r.assembly ++ [c] }
  | silent (r) : ReceiverStep r { r with goodRun := 0, watch := some Config.silenceMs }

/-- What PRODUCT, KEEP and a soft reset may make of a preact entry. -/
inductive PreactTableStep : PreactEntry → PreactEntry → Prop where
  | keep (v) (b : Bool) : PreactTableStep v { v with keep := b }
  | default (v) (lag : Nat) : PreactTableStep v { v with lag := lag }
  | reset (v) (lag : Nat) : PreactTableStep v (v.softReset lag)

/-- What a command may make of the port, its done count and spout-change flag apart. -/
inductive PortStep : Port → Port → Prop where
  | countFault (p) : PortStep p { p with protocolFaults := min (p.protocolFaults + 1) Config.maxU16 }
  | read (p) (w : Word) :
    PortStep p { p with hostData := w, doneCount := 0, spoutChange := false, startUp := false }
  | readIdle (p) (w : Word) : PortStep p { p with hostData := w }
  | startWindow (p) (h : p.exchange = .starting) :
    PortStep p { p with testing := false, presenceWindow := some Config.presenceWindowMs }
  | halt (p) (h : p.exchange = .starting) (ht : p.testing = true) :
    PortStep p { p with exchange := .halted, testing := false, halted := true }
  | run (p) (h : p.exchange = .starting) : PortStep p { p with exchange := .running, presenceWindow := none }
  | startUp (p) : PortStep p { p with startUp := true }
  | softReset (p) (h : p.exchange = .running) : PortStep p { p with exchange := .resetting }
  | clearCount (p) : PortStep p { p with doneCount := 0 }
  | resume (p) (h : p.exchange = .resetting) : PortStep p { p with exchange := .running }

/-- What the sensor lines, the field lines and the timers can do. -/
structure KeptByLines (P : State → Prop) : Prop extends Kept P where
  fault : ∀ i, Kept.KeepsFault P i
  receiver : ∀ s i f, ReceiverStep (s.receiver i) (f (s.receiver i)) → P s → P (s.updateReceiver i f)
  field : ∀ s i f, P s → P (s.updateField i f)
  panelTimer : ∀ s i t, P s → P (s.updateSpout i fun p => { p with panelTimer := t })

/-- What the intake can do besides. -/
structure KeptByIntake (P : State → Prop) : Prop extends KeptByLines P where
  join : ∀ s i n, (s.queue i).length < 4 → P s → P (s.setQueue i (s.queue i ++ [n]))
  products : ∀ s (p : ProductId) v, P s → P { s with products := s.products.set p v }
  table : ∀ s (e : Fin 128) v, PreactTableStep s.preact[e] v → P s → P { s with preact := s.preact.set e v }
  clearFault : ∀ s i, (s.positioner i).position = .faulted → P s →
    P (s.updatePositioner i fun p => { p with cause := .none, position := .notStarted })
  fullDebt : ∀ s i, P s → P (s.updateCalibration i fun c => { c with debt := Config.fullDebt })

/-- What every command can do, power-on and hard reset apart. -/
structure KeptAll (P : State → Prop) : Prop extends KeptByIntake P where
  port : ∀ s f, PortStep s.port (f s.port) → P s → P (s.updatePort f)
  channelReset : ∀ s i, P s → P (s.updateChannel i Channel.reset)
  calibrationReset : ∀ s i, P s → P (s.updateCalibration i Calibration.softReset)
  clearMemory : ∀ s, P s → P { s with memory := [] }

/-! ## Adding a fixed exchange state to a property -/

theorem Kept.andExchange {P : State → Prop} (h : Kept P) (x : Exchange) :
    Kept fun s => P s ∧ s.port.exchange = x where
  memory s a b hs := ⟨h.memory s a b hs.1, hs.2⟩
  done s hs := ⟨h.done s hs.1, hs.2⟩
  spoutChange s hs := ⟨h.spoutChange s hs.1, hs.2⟩
  channel s i f hf hs := ⟨h.channel s i f hf hs.1, hs.2⟩
  calibration s i f hf hs := ⟨h.calibration s i f hf hs.1, hs.2⟩
  positioner s i f hf hs := ⟨h.positioner s i f hf hs.1, hs.2⟩
  context s i f hs := ⟨h.context s i f hs.1, hs.2⟩
  queue s i q hq hs := ⟨h.queue s i q hq hs.1, hs.2⟩
  preact s e v hv hs := ⟨h.preact s e v hv hs.1, hs.2⟩
  freeCount s hs := ⟨h.freeCount s hs.1, hs.2⟩
  sampled s i x hs := ⟨h.sampled s i x hs.1, hs.2⟩
  profile s i m a hs := ⟨h.profile s i m a hs.1, hs.2⟩

theorem KeptByLines.andExchange {P : State → Prop} (h : KeptByLines P) (x : Exchange) :
    KeptByLines fun s => P s ∧ s.port.exchange = x where
  toKept := h.toKept.andExchange x
  fault i s f hf hs := ⟨h.fault i s f hf hs.1, hs.2⟩
  receiver s i f hf hs := ⟨h.receiver s i f hf hs.1, hs.2⟩
  field s i f hs := ⟨h.field s i f hs.1, hs.2⟩
  panelTimer s i t hs := ⟨h.panelTimer s i t hs.1, hs.2⟩

/-! ## The field lines -/

namespace Kept

variable {P : State → Prop} (h : Kept P)
include h

theorem gateClosedPresent (i : SpoutId) {s : State} (hs : P s) : P (gateClosedPresent i s) := by
  unfold Machine.gateClosedPresent; split
  · exact h.closeTaken h.react _ hs
  · exact hs

theorem beginReclose (i : SpoutId) {s : State} (hs : P s) : P (beginReclose i s) := by
  unfold Machine.beginReclose; dsimp only; split
  · exact h.setPhase _ _ (h.recloseGate _ hs)
  · exact h.recloseGate _ hs

theorem gateClosedAbsent (i : SpoutId) {s : State} (hs : P s) : P (gateClosedAbsent i s) := by
  unfold Machine.gateClosedAbsent; dsimp only; split_ifs
  · exact h.verifyOpening _ hs
  · exact h.beginReclose _ hs
  · exact hs

theorem gateOpenPresent (i : SpoutId) {s : State} (hs : P s) : P (gateOpenPresent i s) := by
  unfold Machine.gateOpenPresent; dsimp only; split
  · exact h.verifyOpening _ hs
  · exact hs

theorem seatLoss (i : SpoutId) {s : State} (hs : P s) : P (seatLoss i s) := by
  unfold Machine.seatLoss; dsimp only; split
  · exact h.endUnopened h.react _ _ hs
  · exact h.interlock _ _ hs

theorem loseSeat (i : SpoutId) {s : State} (hp : (s.positioner i).position ≠ .faulted) (hs : P s) : P (loseSeat i s) :=
  h.testRaised h.react _ (h.seatLoss _ (h.beginRaise _ hp hs))

theorem spoutLoweredChange (i : SpoutId) (level : Bool) {s : State} (hs : P s) : P (spoutLoweredChange i level s) := by
  unfold Machine.spoutLoweredChange; split
  · exact h.testLowered h.react _ hs
  · next c =>
    split
    · exact hs
    · exact h.loseSeat _ (by simp [c]) hs
  · exact hs

theorem spoutRaisedChange (i : SpoutId) (level : Bool) {s : State} (hs : P s) : P (spoutRaisedChange i level s) := by
  unfold Machine.spoutRaisedChange; split
  · exact h.testRaised h.react _ hs
  · exact h.testLowered h.react _ hs
  · next c =>
    split
    · exact hs
    · exact h.beginRaise _ (by simp [c]) hs
  · exact hs

theorem indexChange (i : SpoutId) (level : Bool) {s : State} (hs : P s) : P (indexChange i level s) := by
  unfold Machine.indexChange; split
  · exact h.testIndex h.react _ (h.updateOrder _ _ hs)
  · exact h.testIndex h.react _ (h.updateOrder _ _ hs)
  · split
    · exact hs
    · exact h.endUnopened h.react _ _ hs
  · split
    · exact hs
    · exact h.endUnopened h.react _ _ hs
  iterate 6
    · split
      · exact hs
      · exact h.interlock _ _ hs
  · exact hs

theorem deliverChange (i : SpoutId) (n : InputName) (level : Bool) {s : State} (hs : P s) :
    P (deliverChange i n level s) := by
  unfold Machine.deliverChange; split
  · split
    · exact h.gateClosedPresent _ hs
    · exact h.gateClosedAbsent _ hs
  · split
    · exact h.gateOpenPresent _ hs
    · exact hs
  · exact h.spoutRaisedChange _ _ hs
  · exact h.spoutLoweredChange _ _ hs
  · split
    · exact h.levelInterlock _ hs
    · exact hs
  · exact h.indexChange _ _ hs
  · split
    · exact hs
    · exact h.interlock _ _ hs

end Kept

namespace KeptByLines

variable {P : State → Prop} (h : KeptByLines P)
include h

theorem updateLine (i : SpoutId) (n : InputName) (f : InputLine → InputLine) {s : State} (hs : P s) :
    P (updateLine i n f s) := h.field _ _ _ hs

theorem takeChange (i : SpoutId) (n : InputName) (level : Bool) {s : State} (hs : P s) : P (takeChange i n level s) :=
  h.deliverChange _ _ _ (h.updateLine _ _ _ hs)

theorem wiredChange (i : SpoutId) (n : InputName) (level : Bool) {s : State} (hs : P s) : P (wiredChange i n level s) := by
  unfold Machine.wiredChange; dsimp only; split_ifs
  · exact h.updateLine _ _ _ hs
  · exact h.takeChange _ _ _ hs
  · exact hs
  · exact h.updateLine _ _ _ hs

theorem inputsComplete (i : SpoutId) {s : State} (hs : P s) : P (inputsComplete i s) :=
  h.startPositioner h.react _ (h.startUpClose _ hs)

theorem dropAerate (i : SpoutId) {s : State} (hs : P s) : P (dropAerate i s) := h.field _ _ _ hs

/-! ## The sensor lines -/

theorem loseLink (i : SpoutId) {s : State} (hs : P s) : P (loseLink i s) :=
  h.refreshPanel _ (h.writeLinkState _ (h.spoutFault h.react _ (h.fault _) (by simp)
    (h.restartWindow _ (h.receiver _ _ _ (.lose _) hs))))

theorem deliverSamples (i : SpoutId) (l : List Sample) {s : State} (hs : P s) : P (deliverSamples i l s) :=
  foldl_kept _ (fun _ _ ht => h.deliverSample h.react _ _ ht) _ hs

omit h in
theorem missingAfter_le {run gap r : Nat} {fault : Bool} (e : missingAfter run gap fault = some r) : r ≤ 4 := by
  unfold missingAfter at e
  split_ifs at e <;> simp [Config.missingLimit] at * <;> omega

theorem takeFrame (i : SpoutId) (x : Frame) {s : State} (hs : P s) : P (takeFrame i x s) := by
  unfold Machine.takeFrame; dsimp only
  split
  · exact hs
  · have ht := h.receiver _ i _ (.take _ x (sequenceGap (s.receiver i).lastSequence x.sequence)) hs
    split
    · next c =>
      unfold takeInPresent; split
      · exact h.loseLink _ ht
      · next run e =>
        exact h.deliverSamples _ _ (h.receiver _ _ _
          (.sampled _ run (by simpa [Receiver.take] using c) (missingAfter_le e)) ht)
    · split
      · exact h.deliverSample h.react _ _ (h.refreshPanel _ (h.writeLinkState _ (h.receiver _ _ _ (.present _) ht)))
      · exact h.receiver _ _ _ (.watch _ _) ht
    · exact h.receiver _ _ _ (.watch _ _) ht
    · exact h.receiver _ _ _ (.watch _ _) ht

theorem receiveChar (i : SpoutId) (c : Byte) {s : State} (hs : P s) : P (receiveChar i c s) := by
  unfold Machine.receiveChar; dsimp only
  split
  · split
    · next e => exact h.receiver _ _ _ (by rw [e]; exact .sync _) hs
    · exact h.receiver _ _ _ (.discard _) hs
  · next ne =>
    split
    · next hl => exact h.receiver _ _ _ (.append _ c ne hl) hs
    · unfold completeFrame; split
      · exact h.takeFrame _ _ (h.receiver _ _ _ (.clear _) hs)
      · exact h.receiver _ _ _ (.reject _) hs

/-! ## The end of the search -/

theorem endSearch (i : SpoutId) {s : State} (hs : P s) : P (endSearch i s) := by
  unfold Machine.endSearch; split
  · next c => exact h.spoutFault h.react _ (h.fault _) (by simp) (h.receiver _ _ _ (.absent _ c) hs)
  · exact hs

end KeptByLines

/-! ## The intake -/

/-- An accepted order's spout queue has a place. -/
theorem queue_of_firstRefusal {s : State} {i : SpoutId} {steps : List Refused} (hm : s.queueRefusal i ∈ steps)
    (e : firstRefusal steps = none) : (s.queue i).length < 4 := by
  unfold firstRefusal at e
  rw [List.findSome?_eq_none_iff] at e
  have := e _ hm
  simp only [id, State.queueRefusal, require] at this
  split at this
  · next c => exact of_decide_eq_true c
  · simp at this

namespace KeptByIntake

variable {P : State → Prop} (h : KeptByIntake P)
include h

theorem queueOrder (n : SlotId) {s : State} (hq : (s.queue (s.slotSpout n)).length < 4) (hs : P s) :
    P (queueOrder Machine.react n s) := by
  unfold Machine.queueOrder; dsimp only
  have hr := h.writeResult n .none .none noField hs
  split
  · have hw := h.writeStartingFields n hr
    have e : (writeStartingFields n (writeResult n .none .none noField s)).queue (s.slotSpout n)
        = s.queue (s.slotSpout n) := by
      obtain ⟨m, hm⟩ := sameButMemory_writeStartingFields n (writeResult n .none .none noField s)
      rw [hm]; rfl
    exact h.react _ _ (h.writeSlotState _ _ (h.join _ _ _ (by rw [e]; exact hq) hw))
  · exact h.react _ _ (h.writeSlotState _ _ (h.join _ _ _ hq hr))

theorem takeOrder (n : SlotId) {refused : Refused} {accept : State → State} {s : State}
    (ha : refused = none → P (accept s)) (hs : P s) : P (takeOrder n refused accept s) := by
  unfold Machine.takeOrder; split
  · exact h.refuseSlot _ _ _ hs
  · exact ha rfl

theorem removeFromQueues (n : SlotId) {s : State} (hs : P s) : P (removeFromQueues n s) :=
  forSpouts_kept (fun _ _ ht => h.queue _ _ _ List.filter_sublist ht) hs

theorem stopRunning (i : SpoutId) {s : State} (hs : P s) : P (stopRunning Machine.react i s) := by
  unfold Machine.stopRunning; split
  · exact h.endZeroUnchanged h.react _ _ hs
  · exact h.stopOrder h.react _ hs

theorem applyStop (n : SlotId) {s : State} (hs : P s) : P (applyStop Machine.react n s) := by
  unfold Machine.applyStop; dsimp only
  split
  · exact h.markDone _ _ (h.endWithoutRunning _ _ (h.removeFromQueues _ hs))
  · split
    · split
      · exact h.markDone _ _ (h.stopRunning _ hs)
      · exact h.markDone _ _ hs
    · exact h.markDone _ _ hs

theorem withdrawQueue (i : SpoutId) {s : State} (hs : P s) : P (withdrawQueue i s) :=
  foldl_kept _ (fun _ _ ht => h.endWithoutRunning _ _ ht) _ (h.queue _ _ _ (List.nil_sublist _) hs)

theorem applyAllStop {s : State} (hs : P s) : P (applyAllStop Machine.react s) := by
  refine forSpouts_kept (fun i t ht => ?_) (forSpouts_kept (fun i t ht => h.withdrawQueue i ht) hs)
  split
  · exact h.stopRunning _ ht
  · exact ht

theorem tablePreact (e : Fin 128) (v : PreactEntry) {s : State} (hv : PreactTableStep s.preact[e] v) (hs : P s) :
    P (writePreact e v s) := h.writePreactImage _ (h.table _ _ _ hv hs)

theorem changePreact (e : Fin 128) (v : PreactEntry) {s : State} (hv : PreactTableStep s.preact[e] v) (hs : P s) :
    P (changePreact e v s) := by
  unfold Machine.changePreact; split
  · exact hs
  · exact h.tablePreact _ _ hv hs

theorem applyProduct (n : SlotId) {s : State} (hs : P s) : P (applyProduct n s) := by
  refine h.markDone _ _ (h.writeProductImage _ (forEntries_kept (fun e t ht => ?_) (h.products _ _ _ hs)))
  split
  · exact h.changePreact _ _ (.default _ _) ht
  · exact ht

theorem applyKeep (n : SlotId) {s : State} (hs : P s) : P (applyKeep n s) := by
  refine h.markDone _ _ (forEntries_kept (fun e t ht => ?_) hs)
  split
  · exact h.tablePreact _ _ (.keep _ _) ht
  · exact ht

theorem restoreLink (i : SpoutId) {s : State} (hs : P s) : P (restoreLink i s) :=
  h.refreshPanel _ (h.writeLinkState _ (h.fullDebt _ _ (h.receiver _ _ _ (.present _) hs)))

theorem dropFailedClose (i : SpoutId) {s : State} (hs : P s) : P (dropFailedClose i s) := by
  unfold Machine.dropFailedClose; split
  · exact h.updateGate _ _ hs
  · exact hs

theorem leaveFault (i : SpoutId) {s : State} (hp : (s.positioner i).position = .faulted) (hs : P s) :
    P (leaveFault i s) := by
  have hc := h.clearFault s i hp hs
  unfold Machine.leaveFault; dsimp only; split
  · exact h.takeStartUpState _ (by simp) hc
  · exact h.refreshPanel _ hc

omit h in
@[simp] theorem positioner_writeLinkState (s : State) (i j : SpoutId) :
    (Machine.writeLinkState i s).positioner j = s.positioner j := by
  obtain ⟨m, e⟩ := sameButMemory_writeLinkState i s
  rw [e]; rfl

omit h in
theorem positioner_dropFailedClose (s : State) (i j : SpoutId) :
    (Machine.dropFailedClose i s).positioner j = s.positioner j := by
  unfold Machine.dropFailedClose; split <;> simp

theorem acceptClear (i : SpoutId) {s : State} (hp : (s.positioner i).position = .faulted) (hs : P s) :
    P (acceptClear i s) := by
  unfold Machine.acceptClear; dsimp only
  split
  · refine h.spoutChange _ (h.leaveFault _ ?_ (h.dropFailedClose _ (h.restoreLink _ hs)))
    rw [positioner_dropFailedClose]
    simpa [Machine.restoreLink] using hp
  · refine h.spoutChange _ (h.leaveFault _ ?_ (h.dropFailedClose _ hs))
    rw [positioner_dropFailedClose]; exact hp

theorem applyClear (n : SlotId) {s : State} (hs : P s) : P (applyClear n s) := by
  unfold Machine.applyClear; dsimp only
  split
  · exact h.markDone _ _ hs
  · next c =>
    split
    · exact h.markDone _ _ (h.acceptClear _ (by simpa [State.isFaulted] using c) hs)
    · exact h.markDone _ _ hs

theorem takeLoad (n : SlotId) {s : State} (hs : P s) : P (takeLoad Machine.react n s) :=
  h.takeOrder _ (fun e => h.queueOrder _ (queue_of_firstRefusal (by simp) e) hs) hs
theorem takeTwin (n : SlotId) {s : State} (hs : P s) : P (takeTwin Machine.react n s) :=
  h.takeOrder _ (fun e => h.queueOrder _ (queue_of_firstRefusal (by simp) e) hs) hs
theorem takeZero (n : SlotId) {s : State} (hs : P s) : P (takeZero Machine.react n s) :=
  h.takeOrder _ (fun e => h.queueOrder _ (queue_of_firstRefusal (by simp) e) hs) hs
theorem takeReconcile (n : SlotId) {s : State} (hs : P s) : P (takeReconcile Machine.react n s) :=
  h.takeOrder _ (fun e => h.queueOrder _ (queue_of_firstRefusal (by simp) e) hs) hs
theorem takeProfile (n : SlotId) {s : State} (hs : P s) : P (takeProfile Machine.react n s) :=
  h.takeOrder _ (fun e => h.queueOrder _ (queue_of_firstRefusal (by simp) e) hs) hs
theorem takeSeed (n : SlotId) {s : State} (hs : P s) : P (takeSeed Machine.react n s) :=
  h.takeOrder _ (fun e => h.queueOrder _ (queue_of_firstRefusal (by simp) e) hs) hs
theorem takeStop (n : SlotId) {s : State} (hs : P s) : P (takeStop Machine.react n s) :=
  h.takeOrder _ (fun _ => h.applyStop _ hs) hs
theorem takeProduct (n : SlotId) {s : State} (hs : P s) : P (takeProduct n s) :=
  h.takeOrder _ (fun _ => h.applyProduct _ hs) hs
theorem takeKeep (n : SlotId) {s : State} (hs : P s) : P (takeKeep n s) := h.takeOrder _ (fun _ => h.applyKeep _ hs) hs
theorem takeClear (n : SlotId) {s : State} (hs : P s) : P (takeClear n s) := h.takeOrder _ (fun _ => h.applyClear _ hs) hs

theorem takePosting (n : SlotId) {s : State} (hs : P s) : P (takePosting Machine.react n s) := by
  unfold Machine.takePosting; split
  · exact h.takeLoad _ hs
  · exact h.takeTwin _ hs
  · exact h.takeZero _ hs
  · exact h.takeReconcile _ hs
  · exact h.takeProfile _ hs
  · exact h.takeSeed _ hs
  · exact h.takeStop _ hs
  · exact h.takeProduct _ hs
  · exact h.takeKeep _ hs
  · exact h.takeClear _ hs
  · exact h.refuseSlot _ _ _ hs

theorem backlogPass {s : State} (hs : P s) : P (backlogPass Machine.react s) := by
  refine foldl_kept _ (fun t n ht => ?_) _ hs
  split
  · exact h.takePosting _ ht
  · exact ht

end KeptByIntake

/-! ## The commands of the lines and the timers -/

/-- What every command of the lines and the timers keeps. -/
theorem KeptByLines.exec {P : State → Prop} (h : KeptByLines P) (c : Instr) (hc : fromLines c = true) {s t : State} (hs : P s)
    (e : exec c s = .next t) : P t := by
  cases c with
  | initialTaking i n level =>
    simp only [Machine.exec, execInitialTaking] at e
    injection e with e; subst e
    split_ifs
    · exact h.inputsComplete _ (h.updateLine _ _ _ hs)
    · exact h.updateLine _ _ _ hs
    · exact hs
  | frame i check =>
    simp only [Machine.exec, execFrame] at e
    injection e with e; subst e
    split_ifs
    · exact h.receiveChar _ _ hs
    · exact hs
  | characterReceived i c =>
    simp only [Machine.exec, execCharacterReceived] at e
    injection e with e; subst e
    split_ifs
    · exact h.receiveChar _ _ hs
    · exact hs
  | framingError i =>
    simp only [Machine.exec, execFramingError] at e
    injection e with e; subst e
    split_ifs
    · refine h.receiver _ _ _ ?_ hs
      split
      · exact .discard _
      · exact .reject _
    · exact hs
  | interCharacterTimeout i =>
    simp only [Machine.exec, execInterCharacterTimeout] at e
    injection e with e; subst e
    split_ifs
    · exact h.receiver _ _ _ (.reject _) hs
    · exact hs
  | silenceTimerExpiry i =>
    simp only [Machine.exec, execSilenceTimerExpiry] at e
    injection e with e; subst e
    split_ifs
    · exact h.loseLink _ hs
    · exact hs
  | goodFrameWatchExpiry i =>
    simp only [Machine.exec, execGoodFrameWatchExpiry] at e
    injection e with e; subst e
    split_ifs
    · exact h.receiver _ _ _ (.silent _) hs
    · exact hs
  | inputChange i n level =>
    simp only [Machine.exec, execInputChange] at e
    injection e with e; subst e
    split_ifs
    · exact h.wiredChange _ _ _ (h.updateLine _ _ _ hs)
    · exact h.updateLine _ _ _ hs
  | debounceExpiry i n =>
    simp only [Machine.exec, execDebounceExpiry] at e
    injection e with e; subst e
    split_ifs
    · exact h.takeChange _ _ _ hs
    · exact hs
  | openingTimerExpiry i =>
    simp only [Machine.exec, execOpeningTimerExpiry] at e
    injection e with e; subst e
    split_ifs
    · exact h.cut _ _ hs
    · exact hs
  | closeTimerExpiry i =>
    simp only [Machine.exec, execCloseTimerExpiry] at e
    injection e with e; subst e
    split_ifs
    · exact h.closeFailed h.react _ (h.fault _) hs
    · exact h.updateCompartment _ _ (h.updateGate _ _ hs)
    · exact hs
  | retryPauseExpiry i =>
    simp only [Machine.exec, execRetryPauseExpiry] at e
    injection e with e; subst e
    split_ifs
    · exact h.updateGate _ _ hs
    · exact hs
  | closeHoldExpiry i =>
    simp only [Machine.exec, execCloseHoldExpiry] at e
    injection e with e; subst e
    split_ifs
    · exact h.updateGate _ _ hs
    · exact hs
  | starveTimerExpiry i =>
    simp only [Machine.exec, execStarveTimerExpiry] at e
    injection e with e; subst e
    split_ifs
    · exact h.updateCompartment _ (fun c => { c with starveCount := 1 }) (h.updateGate _ _ (h.field _ _ _ hs))
    · exact h.cut _ _ hs
    · exact hs
  | aerateTimerExpiry i =>
    simp only [Machine.exec, execAerateTimerExpiry] at e
    injection e with e; subst e
    split_ifs
    · exact h.dropAerate _ hs
    · exact hs
  | travelTimerExpiry i =>
    simp only [Machine.exec, execTravelTimerExpiry] at e
    injection e with e; subst e
    split_ifs
    · exact h.spoutFault h.react _ (h.fault _) (by simp) hs
    · exact hs
  | indexTimerExpiry i =>
    simp only [Machine.exec, execIndexTimerExpiry, indexTimeout] at e
    injection e with e; subst e
    split_ifs
    · split
      · exact h.endOrder h.react _ (h.markOrder _ _ (h.writeProgress _ _ _ (h.writeEntryCode _ _ _ hs)))
      · exact h.endOrder h.react _ (h.markOrder _ _ hs)
    · exact hs
  | zeroIntervalExpiry i =>
    simp only [Machine.exec, execZeroIntervalExpiry, zeroInterval] at e
    injection e with e; subst e
    split_ifs
    · exact h.calibration _ _ _ (.restartInterval _ _) (h.startCapture _ (by simp) hs)
    · exact h.calibration _ _ _ (.restartInterval _ _) (h.calibration _ _ _ (.owe _) hs)
    · exact hs
  | zeroTimeoutExpiry i =>
    simp only [Machine.exec, execZeroTimeoutExpiry, failLongCapture] at e
    injection e with e; subst e
    split_ifs
    · exact h.endZeroUnchanged h.react _ _ hs
    · exact h.endUnopened h.react _ _ hs
    · exact hs
  | panelTimerExpiry i =>
    simp only [Machine.exec, execPanelTimerExpiry] at e
    injection e with e; subst e
    split_ifs
    · exact h.panelTimer _ _ _ (h.refreshPanel _ hs)
    · exact hs
  | _ => simp [fromLines] at hc

/-! ## Every command -/

namespace KeptAll

variable {P : State → Prop} (h : KeptAll P)
include h

theorem discardWrite {s : State} (hs : P s) : P (discardWrite s) := by
  unfold Machine.discardWrite; split
  · exact h.memory _ _ _ (h.port _ _ (.countFault _) hs)
  · exact hs

theorem postSlot (n : SlotId) (kind : Nat) {take : State → State} (ht : ∀ t, P t → P (take t)) {s : State} (hs : P s) :
    P (postSlot n kind take s) := by
  unfold Machine.postSlot; dsimp only
  split
  · split
    · exact ht _ (h.memory _ _ _ hs)
    · exact h.memory _ _ _ hs
  · exact h.discardWrite hs

theorem freeSlot (n : SlotId) (kind : Nat) {s : State} (hs : P s) : P (freeSlot n kind s) := by
  unfold Machine.freeSlot; split_ifs
  · exact h.memory _ _ _ hs
  · exact h.writeSlotState _ _ hs
  · exact h.discardWrite hs

theorem writeSlot (n : SlotId) (word : Fin 128) (value : Word) {s : State} (hs : P s) : P (writeSlot n word value s) := by
  unfold Machine.writeSlot; dsimp only; split_ifs
  · exact h.freeSlot _ _ hs
  · exact h.postSlot _ _ (fun _ ht => h.takePosting _ ht) hs
  · exact h.discardWrite hs
  · unfold writeBody; split
    · exact h.memory _ _ _ hs
    · exact h.discardWrite hs

/-! ### The soft reset -/

theorem setExchange (x : Exchange) {s : State} (hx : PortStep s.port { s.port with exchange := x }) (hs : P s) :
    P (setExchange x s) := h.memory _ _ _ (h.port _ _ hx hs)

theorem resetEntry (i : SpoutId) {s : State} (hs : P s) : P (resetEntry i s) := by
  unfold Machine.resetEntry; split
  · exact h.writeEntryCode _ _ _ hs
  · exact hs

theorem softResetContext (o : SpoutId) {s : State} (hs : P s) : P (softResetContext o s) := by
  have hm : P (markReset o s) := h.updateOrder _ _ hs
  have hc : P (setResetCause o (markReset o s)) := h.updateCompartment _ _ hm
  have hw : P (leaderWaits o (setResetCause o (markReset o s))) := h.leaderWaits _ hc
  unfold Machine.softResetContext; split
  · exact hs
  · exact hs
  iterate 3 · exact h.resetRest _ hm
  · exact h.resetRest _ (h.resetEntry _ hm)
  · exact h.restContext _ hs
  iterate 4 · exact h.cut _ _ hm
  · dsimp only; split
    · exact hw
    · exact hc
  · dsimp only; split
    · exact hw
    · exact h.finishCompartment h.react _ _ hc

theorem softResetFollower (f : SpoutId) {s : State} (hs : P s) : P (softResetFollower f s) := by
  unfold Machine.softResetFollower; split
  · exact h.leaveBound _ (h.endIntegration _ hs)
  · exact hs

theorem softResetPair (o : SpoutId) {s : State} (hs : P s) : P (softResetPair o s) := by
  unfold Machine.softResetPair; dsimp only; split
  · exact h.resetCheck h.react _ (h.softResetFollower _ (h.softResetContext _ hs))
  · exact h.resetCheck h.react _ (h.softResetContext _ (h.softResetContext _ hs))

theorem softResetPreact {s : State} (hs : P s) : P (softResetPreact s) :=
  forEntries_kept (fun _ _ ht => h.changePreact _ _ (.reset _ _) ht) hs

theorem softResetBlocks {s : State} (hs : P s) : P (softResetBlocks s) :=
  forSpouts_kept (fun _ _ ht => h.dropAerate _ ht) (h.softResetPreact
    (forSpouts_kept (fun _ _ ht => h.calibrationReset _ _ ht)
      (forSpouts_kept (fun _ _ ht => h.softResetPositioner h.react _ ht)
        (foldl_kept _ (fun _ _ ht => h.softResetPair _ ht) _ hs))))

theorem beginSoftReset {s : State} (hx : s.port.exchange = .running) (hs : P s) : P (beginSoftReset s) :=
  h.softResetBlocks (h.port _ _ (.clearCount _) (h.setExchange _ (.softReset _ hx) hs))

omit h in
theorem returnReset_kept {Q : State → Prop} (hq : Kept Q) (n : SlotId) {s : State} (hs : Q s) : Q (returnReset n s) := by
  unfold Machine.returnReset resetZeroFields; dsimp only; split_ifs
  · exact hq.markDone _ _ (hq.writeZeroFields _ _ _ _ hs)
  · exact hq.markDone _ _ hs
  · exact hq.endWithoutRunning _ _ hs
  · exact hs

theorem endSoftReset {s : State} (hx : s.port.exchange = .resetting) (hs : P s) : P (endSoftReset s) := by
  unfold Machine.endSoftReset; dsimp only
  have h1 := foldl_kept (P := fun t => P t ∧ t.port.exchange = .resetting) (fun t n => returnReset n t)
    (fun t n ht => returnReset_kept (h.toKept.andExchange _) n ht) allSlots ⟨hs, hx⟩
  have h2 := forSpouts_kept (P := fun t => P t ∧ t.port.exchange = .resetting)
    (f := fun i t => (t.setQueue i []).updateChannel i Channel.reset)
    (fun i t ht => ⟨h.channelReset _ _ (h.queue _ _ _ (List.nil_sublist _) ht.1), ht.2⟩) h1
  exact h.backlogPass (h.setExchange _ (.resume _ h2.2) h2.1)

/-! ### The end of start-up -/

omit h in
theorem writeHeader_kept {Q : State → Prop} (hq : Kept Q) {s : State} (hs : Q s) : Q (writeHeader s) :=
  forSpouts_kept (f := Machine.writeLinkState) (fun _ _ ht => hq.writeLinkState _ ht) (hq.memory _ _ _ hs)

omit h in
theorem writeRegions_kept {Q : State → Prop} (hq : Kept Q) {s : State} (hs : Q s) : Q (writeRegions s) := by
  unfold writeRegions; dsimp only
  refine forEntries_kept (f := Machine.writePreactImage) (fun _ _ ht => hq.writePreactImage _ ht) ?_
  refine foldl_kept (fun t p => Machine.writeProductImage p t) (fun _ _ ht => hq.writeProductImage _ ht) _ ?_
  refine forSpouts_kept (f := Machine.writeProfileImage) (fun _ _ ht => hq.writeProfileImage _ ht) ?_
  exact forSpouts_kept (f := Machine.refreshPanel) (fun _ _ ht => hq.refreshPanel _ ht) (writeHeader_kept hq hs)

theorem enterRunning {s : State} (hx : s.port.exchange = .starting) (hs : P s) : P (enterRunning s) := by
  have hr := writeRegions_kept h.toKept (h.port s
    (fun p => { p with exchange := .running, presenceWindow := none }) (.run _ hx) hs)
  unfold Machine.enterRunning; dsimp only
  exact h.port _ _ (.startUp _) (forSpouts_kept
    (f := fun i t => t.updateSpout i fun p => { p with panelTimer := some Config.panelTimerMs })
    (fun _ _ ht => h.panelTimer _ _ _ ht) hr)

/-! ### The dispatch -/

theorem hostWrite (address : Nat) (value : Word) {s : State} (hs : P s) : P (hostWrite address value s) := by
  unfold Machine.hostWrite; split_ifs
  · exact h.writeSlot _ _ _ hs
  · unfold writeControl; split_ifs with hx
    · exact h.beginSoftReset hx hs
    · exact h.applyAllStop hs
    · exact hs
    · exact hs
  · exact h.discardWrite hs

theorem readAttention {s : State} (hs : P s) : P (readAttention s) := by
  unfold Machine.readAttention; dsimp only
  refine h.port _ _ ?_ hs
  split
  · exact .read _ _
  · exact .readIdle _ _

theorem memoryTest (passed : Bool) {s t : State} (hs : P s) (e : execMemoryTestComplete passed s = .next t) : P t := by
  unfold execMemoryTestComplete at e
  split_ifs at e with hx hp <;> injection e with e <;> subst e
  · exact forSpouts_kept (fun _ _ ht => h.receiver _ _ _ (.watch _ _) ht)
      (h.port _ _ (.startWindow _ hx.1) (h.clearMemory _ hs))
  · exact h.port _ _ (.halt _ hx.1 hx.2) (h.clearMemory _ hs)
  · exact hs

theorem presenceWindow {s t : State} (hs : P s) (e : execPresenceWindowExpiry s = .next t) : P t := by
  unfold execPresenceWindowExpiry at e
  split_ifs at e with hx <;> injection e with e <;> subst e
  · have := forSpouts_kept (P := fun t => P t ∧ t.port.exchange = .starting) (f := endSearch)
      (fun i t ht => (h.toKeptByLines.andExchange _).endSearch i ht) ⟨hs, hx.1⟩
    exact h.enterRunning this.2 this.1
  · exact hs

/-- What every command keeps; a power-on or hard reset puts the property to the test anew. -/
theorem exec (c : Instr) {s t : State} (hr : c = .powerOn ∨ c = .hardReset → P (fullReset s)) (hs : P s)
    (e : exec c s = .next t) : P t := by
  cases c with
  | powerOn => injection e with e; subst e; exact hr (.inl rfl)
  | hardReset => injection e with e; subst e; exact hr (.inr rfl)
  | memoryTestComplete passed => exact h.memoryTest _ hs e
  | presenceWindowExpiry => exact h.presenceWindow hs e
  | slotWrite n word value => injection e with e; subst e; exact h.writeSlot _ _ _ hs
  | returnSlot n kind => injection e with e; subst e; exact h.freeSlot _ _ hs
  | discardedWrite line value => injection e with e; subst e; exact h.hostWrite _ _ hs
  | attentionRead => injection e with e; subst e; exact h.readAttention hs
  | softReset =>
    simp only [Machine.exec, execSoftReset] at e
    injection e with e; subst e
    split_ifs with hx
    · exact h.beginSoftReset hx hs
    · exact hs
  | allStop =>
    injection e with e; subst e
    unfold controlAllStop; split
    · exact h.applyAllStop hs
    · exact hs
  | softResetEnd =>
    simp only [Machine.exec, execSoftResetEnd] at e
    injection e with e; subst e
    split_ifs with hx
    · exact h.endSoftReset hx.1 hs
    · exact hs
  | load n => injection e with e; subst e; exact h.postSlot _ _ (fun _ ht => h.takeLoad _ ht) hs
  | twin n => injection e with e; subst e; exact h.postSlot _ _ (fun _ ht => h.takeTwin _ ht) hs
  | zero n => injection e with e; subst e; exact h.postSlot _ _ (fun _ ht => h.takeZero _ ht) hs
  | reconcile n => injection e with e; subst e; exact h.postSlot _ _ (fun _ ht => h.takeReconcile _ ht) hs
  | profile n => injection e with e; subst e; exact h.postSlot _ _ (fun _ ht => h.takeProfile _ ht) hs
  | seed n => injection e with e; subst e; exact h.postSlot _ _ (fun _ ht => h.takeSeed _ ht) hs
  | stop n => injection e with e; subst e; exact h.postSlot _ _ (fun _ ht => h.takeStop _ ht) hs
  | product n => injection e with e; subst e; exact h.postSlot _ _ (fun _ ht => h.takeProduct _ ht) hs
  | keep n => injection e with e; subst e; exact h.postSlot _ _ (fun _ ht => h.takeKeep _ ht) hs
  | clear n => injection e with e; subst e; exact h.postSlot _ _ (fun _ ht => h.takeClear _ ht) hs
  | unknownKindPosting n kind => injection e with e; subst e; exact h.postSlot _ _ (fun _ ht => h.takePosting _ ht) hs
  | initialTaking => exact h.toKeptByLines.exec _ rfl hs e
  | frame => exact h.toKeptByLines.exec _ rfl hs e
  | framingError => exact h.toKeptByLines.exec _ rfl hs e
  | interCharacterTimeout => exact h.toKeptByLines.exec _ rfl hs e
  | silenceTimerExpiry => exact h.toKeptByLines.exec _ rfl hs e
  | goodFrameWatchExpiry => exact h.toKeptByLines.exec _ rfl hs e
  | inputChange => exact h.toKeptByLines.exec _ rfl hs e
  | debounceExpiry => exact h.toKeptByLines.exec _ rfl hs e
  | openingTimerExpiry => exact h.toKeptByLines.exec _ rfl hs e
  | closeTimerExpiry => exact h.toKeptByLines.exec _ rfl hs e
  | retryPauseExpiry => exact h.toKeptByLines.exec _ rfl hs e
  | closeHoldExpiry => exact h.toKeptByLines.exec _ rfl hs e
  | starveTimerExpiry => exact h.toKeptByLines.exec _ rfl hs e
  | aerateTimerExpiry => exact h.toKeptByLines.exec _ rfl hs e
  | travelTimerExpiry => exact h.toKeptByLines.exec _ rfl hs e
  | indexTimerExpiry => exact h.toKeptByLines.exec _ rfl hs e
  | zeroIntervalExpiry => exact h.toKeptByLines.exec _ rfl hs e
  | zeroTimeoutExpiry => exact h.toKeptByLines.exec _ rfl hs e
  | panelTimerExpiry => exact h.toKeptByLines.exec _ rfl hs e
  | characterReceived => exact h.toKeptByLines.exec _ rfl hs e

/-- What every step keeps. -/
theorem step (hr : ∀ s, P s → P (fullReset s)) (ht : ∀ s q, P s → P { s with pending := q }) {s t : State} (hs : P s)
    (e : step s = .next t) : P t := by
  unfold Machine.step at e; split at e
  · injection e with e; subst e; exact hs
  · exact h.exec _ (fun _ => hr _ (ht _ _ hs)) (ht _ _ hs) e

end KeptAll

end Sys2Proof.Machine
end

