-- ==== Sys2Proof/Laws/Reaction.lean ====
section
/-! SUPPORT. One lemma for what each shared step of the handling does: updates of one spout that follow each other, the reactions
of one action, a posting, its acceptance and its answer. -/

namespace Sys2Proof.Machine

/-! ## Two updates of one spout -/

theorem State.updateSpout_updateSpout (s : State) (i : SpoutId) (f g : Spout → Spout) :
    (s.updateSpout i f).updateSpout i g = s.updateSpout i fun p => g (f p) := by
  simp [State.updateSpout]

theorem State.updateReceiver_updateReceiver (s : State) (i : SpoutId) (f g : Receiver → Receiver) :
    (s.updateReceiver i f).updateReceiver i g = s.updateReceiver i fun r => g (f r) :=
  s.updateSpout_updateSpout i _ _

theorem State.updateField_updateField (s : State) (i : SpoutId) (f g : FieldGroup → FieldGroup) :
    (s.updateField i f).updateField i g = s.updateField i fun r => g (f r) := s.updateSpout_updateSpout i _ _

theorem State.updateCalibration_updateCalibration (s : State) (i : SpoutId) (f g : Calibration → Calibration) :
    (s.updateCalibration i f).updateCalibration i g = s.updateCalibration i fun r => g (f r) :=
  s.updateSpout_updateSpout i _ _

theorem State.updateContext_updateContext (s : State) (i : SpoutId) (f g : Context → Context) :
    (s.updateContext i f).updateContext i g = s.updateContext i fun r => g (f r) := s.updateSpout_updateSpout i _ _

theorem State.updateSpout_id (s : State) (i : SpoutId) (f : Spout → Spout) (h : f (s.spout i) = s.spout i) :
    s.updateSpout i f = s := by
  have : f s.spouts[i] = s.spouts[i] := h
  simp only [State.updateSpout, this]
  have e : s.spouts.set i s.spouts[i] = s.spouts := by simp
  rw [e]

/-- Two states with the same spouts have the same vector of spouts. -/
theorem State.spouts_eq_of_spout {s t : State} (h : ∀ j, t.spout j = s.spout j) : t.spouts = s.spouts := by
  apply Vector.ext; intro j hj
  exact h ⟨j, hj⟩

@[simp] theorem FieldGroup.line_setLine (g : FieldGroup) (n : InputName) (l : InputLine) : (g.setLine n l).line n = l := by
  cases n <;> rfl

@[simp] theorem FieldGroup.setLine_setLine (g : FieldGroup) (n : InputName) (l l' : InputLine) :
    (g.setLine n l).setLine n l' = g.setLine n l' := by
  cases n <;> rfl

/-! ## The same update on every spout -/

theorem foldl_updateSpout (g : SpoutId → Spout → Spout) (l : List SpoutId) (hl : l.Nodup) (s : State) (j : SpoutId) :
    (l.foldl (fun t i => t.updateSpout i (g i)) s).spout j = if j ∈ l then g j (s.spout j) else s.spout j := by
  induction l generalizing s with
  | nil => simp
  | cons a l ih =>
    rw [List.foldl_cons, ih (List.nodup_cons.mp hl).2]
    by_cases e : j = a
    · subst e; simp [(List.nodup_cons.mp hl).1]
    · simp [e]

/-- An update made for every spout in turn reaches each spout once. -/
theorem spout_forSpouts (g : SpoutId → Spout → Spout) (s : State) (j : SpoutId) :
    (forSpouts (fun i t => t.updateSpout i (g i)) s).spout j = g j (s.spout j) := by
  unfold forSpouts
  rw [foldl_updateSpout g allSpouts (by decide), if_pos (by revert j; decide)]

/-- What one handling per spout leaves alone, the handlings of all eight leave alone. -/
theorem forSpouts_same {α : Type} (g : State → α) (f : SpoutId → State → State) (h : ∀ i t, g (f i t) = g t) (s : State) :
    g (forSpouts f s) = g s := by
  unfold forSpouts
  generalize allSpouts = l
  induction l generalizing s with
  | nil => rfl
  | cons a l ih => rw [List.foldl_cons, ih, h]

/-! ## The reactions of one action -/

theorem react_idle (i : SpoutId) (s : State) : react (.idle i) s = onIdle (reactTo 63) i s := rfl
theorem react_engaged (i : SpoutId) (s : State) : react (.engaged i) s = onEngaged (reactTo 63) i s := rfl
theorem react_released (i : SpoutId) (s : State) : react (.released i) s = onReleased (reactTo 63) i s := rfl
theorem react_faultReport (i : SpoutId) (s : State) : react (.faultReport i) s = onFaultReport (reactTo 63) i s := rfl
theorem reactTo_idle (d : Nat) (i : SpoutId) (s : State) : reactTo (d + 1) (.idle i) s = onIdle (reactTo d) i s := rfl

/-- A context that is not IDLE serves nothing. -/
theorem onIdle_of_stage_ne (k : Reaction) {i : SpoutId} {s : State} (h : s.stage i ≠ .idle) : onIdle k i s = s := by
  simp [onIdle, h]

/-- Outside RUNNING nothing is served. -/
theorem onIdle_of_exchange_ne (k : Reaction) {i : SpoutId} {s : State} (h : s.port.exchange ≠ .running) : onIdle k i s = s := by
  simp [onIdle, h]

/-- With no claim and an empty queue there is nothing to serve. -/
theorem onIdle_of_nothing (k : Reaction) {i : SpoutId} {s : State} (hc : (s.context i).claim = none) (hq : s.queue i = []) :
    onIdle k i s = s := by
  simp [onIdle, hc, hq]

theorem reactTo_idle_of_stage_ne (d : Nat) {i : SpoutId} {s : State} (h : s.stage i ≠ .idle) :
    reactTo d (.idle i) s = s := by
  cases d with
  | zero => rfl
  | succ d => exact onIdle_of_stage_ne _ h

theorem reactTo_idle_of_nothing (d : Nat) {i : SpoutId} {s : State} (hc : (s.context i).claim = none) (hq : s.queue i = []) :
    reactTo d (.idle i) s = s := by
  cases d with
  | zero => rfl
  | succ d => exact onIdle_of_nothing _ hc hq

/-- The head of a queue is served by a context that is IDLE and has no claim. -/
theorem onIdle_head (k : Reaction) {i : SpoutId} {n : SlotId} {rest : List SlotId} {s : State}
    (hx : s.port.exchange = .running) (hs : s.stage i = .idle) (hc : (s.context i).claim = none) (hq : s.queue i = n :: rest) :
    onIdle k i s = serveHead k i n (s.setQueue i rest) := by
  simp [onIdle, hx, hs, hc, hq]

/-! ## Postings -/

theorem takeOrder_accepted (n : SlotId) (accept : State → State) (s : State) : takeOrder n none accept s = accept s := rfl

theorem takeOrder_refused (n : SlotId) (why : Reason) (index : Nat) (accept : State → State) (s : State) :
    takeOrder n (some (why, index)) accept s = refuseSlot n why index s := rfl

/-- A posting in RUNNING is accepted and taken. -/
theorem postSlot_taken {n : SlotId} {s : State} (h : s.takesPosting n) (kind : Nat) (take : State → State) :
    postSlot n kind take s = take (s.posted n kind) := by
  obtain ⟨hx, hf⟩ := h
  have hv : (s.port.visible && s.slotIs n .free) = true := by
    simp [Port.visible, hx, State.slotIs, hf, SlotState.value]
  have hx' : (s.writeMemory (Config.slotBase n) (u8Bytes SlotState.posted.value ++ u8Bytes kind)).port.exchange = .running := hx
  unfold postSlot
  rw [if_pos hv]; dsimp only; rw [if_pos hx']
  rfl

/-- The three result fields, the state DONE and the done count. -/
theorem finishSlot_eq (n : SlotId) (r : Result) (why : Reason) (index : Nat) (s : State) :
    finishSlot n r why index s = s.answered n r.value why.value index := rfl

theorem markDone_eq (n : SlotId) (r : Result) (s : State) : markDone n r s = s.answered n r.value 0 0xFF := rfl

theorem refuseSlot_eq (n : SlotId) (why : Reason) (index : Nat) (s : State) :
    refuseSlot n why index s = s.answered n 8 why.value index := rfl

/-- A slot lies in its own 256 bytes, above the images. -/
theorem slotBase_eq (n : SlotId) : Config.slotBase n = 4096 + n.val * 256 := rfl

/-- Fields of a slot beyond word 0 are those of the state before a write to word 0. -/
theorem u8_posted (s : State) (n m : SlotId) (kind off : Nat) (h : n ≠ m ∨ 2 ≤ off) (ho : off < 256) :
    (s.posted n kind).slotU8 m off = s.slotU8 m off := by
  have hv : n.val ≠ m.val ∨ 2 ≤ off := h.imp (fun e c => e (Fin.ext c)) id
  refine Memory.u8_writeBytes_other _ _ _ ?_
  simp only [slotBase_eq, List.length_cons, List.length_nil]
  omega

theorem u16_posted (s : State) (n : SlotId) (kind off : Nat) (h : 2 ≤ off) :
    (s.posted n kind).slotU16 n off = s.slotU16 n off := by
  refine Memory.u16_writeBytes_other _ _ _ ?_
  simp only [slotBase_eq, List.length_cons, List.length_nil]
  omega

theorem u32_posted (s : State) (n : SlotId) (kind off : Nat) (h : 2 ≤ off) :
    (s.posted n kind).slotU32 n off = s.slotU32 n off := by
  refine Memory.u32_writeBytes_other _ _ _ ?_
  simp only [slotBase_eq, List.length_cons, List.length_nil]
  omega

theorem slotSpoutByte_posted (s : State) (n : SlotId) (kind : Nat) : (s.posted n kind).slotSpoutByte n = s.slotSpoutByte n :=
  u8_posted s n n kind 2 (.inr (by omega)) (by omega)

end Sys2Proof.Machine
end

