-- ==== Sys2Proof/Laws/Records.lean ====
section
/-! SUPPORT. Bytes that stand in the exchange memory: what a write leaves there, and what a field of a record reads from them. -/

namespace Sys2Proof.Machine

/-- A write leaves its bytes at its address. -/
theorem State.holds_writeMemory {s : State} (hm : s.memory.wf = true) (a : Nat) (bytes : List Byte) :
    (s.writeMemory a bytes).holds a bytes := fun k hk => Memory.read_writeBytes_in hm a bytes k hk

/-- A write elsewhere leaves the bytes that stand. -/
theorem State.holds.writeMemory_other {s : State} {a b : Nat} {bytes other : List Byte} (h : s.holds a bytes)
    (apart : a + bytes.length ≤ b ∨ b + other.length ≤ a) : (s.writeMemory b other).holds a bytes := fun k hk =>
  (Memory.read_writeBytes_other s.memory b other (by omega)).trans (h k hk)

/-- One byte of those that stand. -/
theorem State.holds.u8 {s : State} {a : Nat} {bytes : List Byte} (h : s.holds a bytes) {k : Nat} {b : Byte}
    (hb : bytes[k]? = some b) : s.memory.u8 (a + k) = b.toNat := by
  obtain ⟨hk, rfl⟩ := List.getElem?_eq_some_iff.1 hb
  rw [Memory.u8, h k hk]

theorem Memory.u8_lt (m : Memory) (a : Nat) : m.u8 a < 256 := (m.read a).isLt

theorem Memory.u16_lt (m : Memory) (a : Nat) : m.u16 a < 65536 := by
  have low := m.u8_lt a
  have high := m.u8_lt (a + 1)
  unfold Memory.u16; omega

theorem Memory.u32_lt (m : Memory) (a : Nat) : m.u32 a < 4294967296 := by
  have low := m.u16_lt a
  have high := m.u16_lt (a + 2)
  unfold Memory.u32; omega

/-! ## The entry in hand under a soft reset -/

theorem sameButMemory_writeEntryCode (n : SlotId) (e : Nat) (code : Code) (s : State) :
    SameButMemory s (writeEntryCode n e code s) := sameButMemory_writeMemory ..

theorem sameButMemory_resetEntry (i : SpoutId) (s : State) : SameButMemory s (resetEntry i s) := by
  unfold resetEntry; split
  · exact sameButMemory_writeEntryCode ..
  · exact .refl s

end Sys2Proof.Machine
end

