-- ==== Sys2Proof/Tests/Slice0.lean ====
section
/-! SUPPORT. The model's own tests: the WellFormed smoke, worked values of the spec, and for every statement with hypotheses a
state and operands that meet them, at a boundary of their range where there is one. -/

namespace Sys2Proof.Tests

open Sys2Proof.Machine

/-! ## Small states -/

/-- The part in RUNNING, with nothing else changed since reset. -/
def running : State := { State.reset with port := { exchange := .running, testing := false } }

/-- The presence window runs. -/
def starting : State := { State.reset with port := { testing := false, presenceWindow := some 500 } }

/-- A profile with every field in its range. -/
def someProfile : Profile where
  zeroRef := 400
  zeroLimit := 60
  zeroBand := 40
  creepBand := 6
  spanRef := 3400
  window := 16
  zeroStep := 2
  zeroInterval := 300
  zeroTimeout := 20000
  surgeLimit := 60000
  surgeCount := 3
  starveRate := 2000
  starveWindow := 4000
  aerationTime := 3000
  settleBand := 50
  settleCount := 200
  gateOpenTime := 1500
  gateCloseTime := 2000
  travelTime := 20000
  indexTimeout := 300
  debounce := 15
  leakThreshold := 20
  leakLimit := 50
  learnGain := 4
  learnMaxStep := 200
  learnMinRate := 3000

/-- A product with every field in its range. -/
def someProduct : Product :=
  { set := true, defaultLag := 1200, offset := 120, fineBand := 500, underTol := 20, overTol := 20, maxTrims := 2
    trimRate := 6000 }

def calibrated : Calibration :=
  { profileValid := true, profile := someProfile, zero := 400, span := 3400, debt := 0, interval := some 300000 }

/-- Profiled, released, gate shut as taken: a spout at rest. -/
def atRest : Spout where
  calibration := calibrated
  positioner := { position := .released }
  receiver := { link := .present, silence := some 20, lastSequence := some 0 }
  field := { gateClosed := { taken := true, initiallyTaken := true }, spoutRaised := { taken := true, initiallyTaken := true } }

/-- Every spout at rest, product 4 SET. -/
def resting : State :=
  { running with spouts := Vector.replicate 8 atRest, products := (Vector.replicate 16 {}).set 4 someProduct }

/-- A slot FREE with a spout byte and words of its body. -/
def slotWith (n : SlotId) (spout : Nat) (offset : Nat) (body : List Byte) (s : State) : State :=
  (s.writeMemory (Config.slotBase n + 2) (u8Bytes spout)).writeMemory (Config.slotBase n + offset) body

/-- A LOAD or TWIN body for spout 0: product 4, one compartment of 1500 g, limit 2000 g. -/
def loadSlot (s : State) : State :=
  (slotWith 3 0 0x10 (u8Bytes 4 ++ u8Bytes 1 ++ u16Bytes 0 ++ u32Bytes 2000) s).writeMemory (Config.slotBase 3 + 0x40)
    (u32Bytes 1500)

/-- A frame of spout 0 that waits for its check character. -/
def framed (sequence status low high : Byte) (s : State) : State :=
  s.updateReceiver 0 fun r => { r with assembly := [0xA5, sequence, status, low, high] }

/-! ## Well-formed commands -/

theorem test_illFormed_discardedWrite : (Instr.discardedWrite 0x800 0).wellFormed = false := by decide
theorem test_illFormed_control : (Instr.discardedWrite 0x1801 0).wellFormed = false := by decide
theorem test_wellFormed_discardedWrite :
    (Instr.discardedWrite 0x7FF 0).wellFormed = true ∧ (Instr.discardedWrite 0x1800 0).wellFormed = true
      ∧ (Instr.discardedWrite 0x1802 0).wellFormed = true ∧ (Instr.discardedWrite 0x1FFF 0).wellFormed = true := by decide
theorem test_illFormed_unknownKindPosting :
    (Instr.unknownKindPosting 0 1).wellFormed = false ∧ (Instr.unknownKindPosting 0 10).wellFormed = false := by decide
theorem test_wellFormed_unknownKindPosting :
    (Instr.unknownKindPosting 0 0).wellFormed = true ∧ (Instr.unknownKindPosting 0 11).wellFormed = true := by decide

/-! ## Worked values of the spec -/

set_option maxRecDepth 4000 in
/-- R142's frame: sequence 0, raw sample 9412. -/
theorem test_crc_of_R142 : crc8 [0xA5] = 0x72 ∧ crc8 [0xA5, 0, 0, 0xC4, 0x24] = 0x5B := by decide

/-- R3: the largest increment, and a net value at the creep band. -/
theorem test_increment : increment 65535 0 65535 = 4194176 ∧ increment 6 6 3400 = 0 ∧ increment 9000 6 3400 = 29883 := by
  decide

/-- The table of R6. -/
theorem test_addMilligrams :
    addMilligrams 0 0 29997 = (29, 997) ∧ addMilligrams 29 997 0 = (29, 997) ∧ addMilligrams 29 997 16665 = (46, 662)
      ∧ addMilligrams 4294967290 500 29997 = (4294967295, 497) := by decide

/-- The table of R83. -/
theorem test_completeShort :
    let z := fun (zero sum : Int) (step : Nat) (ref : Int) =>
      let c := { calibrated with zero := zero, captureSum := sum, profile := { someProfile with zeroRef := ref, zeroStep := step } }
      (c.completeShort.zero, c.completeShort.zeroLimit)
    z 412 26560 2 400 = (414, false) ∧ z 414 26560 2 400 = (415, false) ∧ z 415 26336 2 400 = (413, false)
      ∧ z (-18) (-1300) 2 0 = (-20, false) ∧ z 459 29568 5 400 = (460, true) := by decide

/-- R71's truncations. -/
theorem test_learnStep : learnStep 0 1450 4 400 = -362 ∧ learnStep 1960 1450 4 400 = 127 ∧ learnStep 9000 0 16 200 = 200 := by
  decide

/-- R196 of the intake: the kinds by value. -/
theorem test_kinds : Kind.ofValue 1 = some .load ∧ Kind.ofValue 10 = some .stop ∧ Kind.ofValue 0 = none
    ∧ Kind.ofValue 11 = none := by decide

/-! ## States that meet the hypotheses of the statements -/

/-- An input's change to a level, wired for its debounce time. -/
def due (i : SpoutId) (n : InputName) (level : Bool) (s : State) : State :=
  s.updateField i fun g => g.setLine n { taken := !level, wired := level, timer := some 15, initiallyTaken := true }

/-- An input taken at a level. -/
def taken (i : SpoutId) (n : InputName) (level : Bool) (s : State) : State :=
  s.updateField i fun g => g.setLine n { taken := level, wired := level, initiallyTaken := true }

/-- A spout in a position, its drive and travel timer with it. -/
def placed (i : SpoutId) (x : Position) (s : State) : State :=
  s.updatePositioner i fun p => { p with
    position := x
    drive := if x = .lowering then .lower else if x = .raising then .raise else .none
    travel := if x = .lowering ∨ x = .raising then some 20000 else none
    cause := if x = .faulted then .gateFault else .none }

/-- A spout ENGAGED and away from its upper switch, with PERMIT and INDEX_READY present. -/
def seated (i : SpoutId) (s : State) : State :=
  placed i .engaged (taken i .spoutRaised false (taken i .spoutLowered true (taken i .permit true (taken i .indexReady true s))))

/-- Slot 7 RUNNING on spout 0, in a stage: one compartment of 1500 g. -/
def waiting (x : Stage) : State :=
  (resting.updateContext 0 fun c => { c with
    stage := x, slot := some 7, compartment := { effectiveTarget := 1500 }
    order := if x = .zeroRun then {} else
      { product := 4, limit := 2000, count := 1, entries := [{ target := 1500, skip := false }], indexTimer := some 300000
        fineBand := 500, underTol := 20, overTol := 20, maxTrims := 2, trimRate := 6000 } }).writeMemory
    (Config.slotBase 7) [3, if x = .zeroRun then 3 else 1]

/-- The same for a compartment in an open or a closed stage, its spout seated. -/
def opened (x : Stage) (g : GateUnit) : State :=
  ((seated 0 (waiting x)).updateGate 0 fun _ => g).updateCompartment 0 fun c => { c with opened := true }

/-- A gate in fine feed, verified; a gate that closes; a gate whose close has ended. -/
def fineFeed : GateUnit := { output := .openFine, starve := some 4000 }
def closingGate : GateUnit := { output := .close, close := some 2000 }
def shutGate : GateUnit := { output := .close, hold := some 500 }

/-- Slot 7 RUNNING as a TWIN on spouts 0 and 1: the leader's stage, the follower's phase and the two gates. -/
def paired (x : Stage) (phase : Phase) (g h : GateUnit) : State :=
  (((seated 1 (opened x g)).updateOrder 0 fun o => { o with twin := true }).updateContext 1 fun c => { c with
    stage := .bound, slot := some 7, claim := some { leader := 0, slot := 7 }, phase := phase, gate := h }).writeMemory
    (Config.slotBase 7) [3, 2]

/-- The part in RESETTING. -/
def resetting (s : State) : State := { s with port := { s.port with exchange := .resetting } }

/-! ### The machine, start-up and soft reset -/

theorem meets_StepTakesTheFrontCommand :
    ({ running with pending := [.attentionRead] } : State).pending = .attentionRead :: [] ∧ running.pending = [] := by decide

theorem meets_MemoryTestOpensTheWindowOrHalts :
    State.reset.port.exchange = .starting ∧ State.reset.port.testing = true := by decide

/-- One input left to take, or two. -/
def almostTaken (left : List InputName) : State :=
  [InputName.gateClosed, .gateOpen, .spoutRaised, .spoutLowered, .levelHigh, .indexReady, .permit].foldl
    (fun t n => if left.contains n then t
      else t.updateField 0 fun g => g.setLine n { initiallyTaken := true, taken := n == .spoutRaised }) starting

theorem meets_InitialTakingAndSpoutStartUp :
    (let s := almostTaken [.gateClosed, .permit]
     s.port.linesLive = true ∧ (s.line 0 .permit).initiallyTaken = false
       ∧ ((s.field 0).setLine .permit { taken := true, wired := true, initiallyTaken := true }).allTaken = false) ∧
    (let s := almostTaken [.gateClosed]
     let g := (s.field 0).setLine .gateClosed { taken := false, wired := false, initiallyTaken := true }
     s.port.linesLive = true ∧ (s.line 0 .gateClosed).initiallyTaken = false ∧ g.allTaken = true
       ∧ g.gateClosed.taken = false ∧ g.spoutRaised.taken = true
       ∧ (s.positioner 0).position = .notStarted ∧ (s.positioner 0).requests = []) ∧
    (let s := almostTaken [.spoutRaised]
     let g := (s.field 0).setLine .spoutRaised { taken := false, wired := false, initiallyTaken := true }
     g.allTaken = true ∧ g.spoutRaised.taken = false) := by decide

theorem meets_PresenceWindowExpiryEntersRunning :
    starting.memory.wf = true ∧ starting.port.exchange = .starting ∧ starting.port.presenceWindow.isSome = true
      ∧ starting.port.protocolFaults ≤ 65535 ∧ (starting.receiver 7).link = .searching ∧ starting.isFaulted 7 = false := by
  decide

theorem meets_SoftResetEntersResetting :
    (resting.port.exchange = .running ∧ resting.preact[(127 : Fin 128)].keep = false
      ∧ (resting.positioner 0).position = .released) ∧
    (let s := seated 0 resting
     (s.positioner 0).position = .engaged ∧ s.present 0 .spoutRaised = false) ∧
    (placed 7 .lowering resting).present 7 .spoutRaised = true := by decide

theorem meets_SoftResetReachesEachContext :
    (resting.port.exchange = .running ∧ resting.single 0 ∧ resting.stage 0 = .idle) ∧
    ((waiting .zeroRun).port.exchange = .running ∧ (waiting .zeroRun).single 0 ∧ (waiting .zeroRun).stage 0 = .zeroRun) ∧
    (let s := opened .trim fineFeed
     s.single 0 ∧ (s.stage 0).isOpen = true ∧ (s.gate 0).isOpen = true ∧ s.hasProfile 0 = true) ∧
    (opened .closing closingGate).stage 0 = .closing := by
  unfold State.single; decide

/-- Slot 31 QUEUED at spout 0, a ZERO. -/
def queued : State := (resting.writeMemory (Config.slotBase 31) [2, 3, 0]).setQueue 0 [31]

theorem meets_AllStopEmptiesEveryQueue :
    (resting.port.exchange = .running ∧ (∀ i, (resting.context i).slot = none)) ∧
    starting.port.exchange ≠ .running := by decide

theorem meets_SoftResetEndReturnsOrders :
    let s := resetting ((queued.writeMemory (Config.slotBase 7) [3, 3]).writeMemory (Config.slotBase 8) [2, 1])
    s.memory.wf = true ∧ s.port.exchange = .resetting ∧ (∀ i, s.stage i = .idle) ∧ s.port.doneCount ≤ 255
      ∧ (∀ n, s.slotStateByte n ≠ 1)
      ∧ (∀ n, s.slotStateByte n = 2 → s.slotKind n = 1 ∨ s.slotKind n = 2 → s.loadCount n ≤ 12)
      ∧ s.slotStateByte 7 = 3 ∧ s.slotKind 7 = 3 ∧ s.slotStateByte 8 = 2 ∧ s.slotKind 8 = 1 := by decide

theorem meets_BacklogIsTakenInSlotOrder :
    let s := resetting (resting.writeMemory (Config.slotBase 31) [1])
    s.port.exchange = .resetting ∧ (∀ i, s.stage i = .idle) ∧ (∀ n, s.slotStateByte n ≠ 2 ∧ s.slotStateByte n ≠ 3) := by
  decide

theorem meets_BacklogIsTakenInSlotOrder_resetting :
    (resetting resting).port.exchange = .resetting ∧ (resetting resting).slotStateByte 31 = 0 := by decide

/-! ### The exchange port and the postings -/

theorem meets_HostWritesFollowOwnership :
    (running.port.visible = true ∧ running.slotStateByte 31 = 0 ∧ (127 : Fin 128) ≠ 0) ∧
    (let s := running.writeMemory (Config.slotBase 31) [3]
     s.port.visible = true ∧ s.slotStateByte 31 ≠ 0 ∧ s.slotStateByte 31 = 3 ∧ (2 : Word).toNat % 256 = 2
       ∧ (0x0A01 : Word).toNat % 256 = 1) ∧
    (running.writeMemory (Config.slotBase 0) [4]).slotStateByte 0 = 4 ∧
    discardedByAddress (2 * (0x1FFF : BitVec 13).toNat) = true ∧ starting.port.visible = false := by decide

theorem meets_AttentionReadsAndLine :
    running.port.exchange = .running ∧ starting.port.exchange = .starting
      ∧ ({ running with port := { exchange := .halted, halted := true } } : State).port.exchange = .halted := by decide

/-- A LOAD or TWIN body for spout 0 whose product, count, limit, target or skip mark is another. -/
def loadBody (spout product count limit target skip : Nat) (s : State) : State :=
  (slotWith 3 spout 0x10 (u8Bytes product ++ u8Bytes count ++ u16Bytes 0 ++ u32Bytes limit) s).writeMemory
    (Config.slotBase 3 + 0x40) (u32Bytes target ++ u8Bytes skip)

theorem meets_PostingsAreRefusedInOrder_fields :
    (running.memory.wf = true ∧ running.takesPosting 3 ∧ unknownKind 0 = true ∧ unknownKind 255 = true) ∧
    8 ≤ (slotWith 3 8 0x10 [] running).slotSpoutByte 3 ∧ (slotWith 3 1 0x10 [] running).slotSpoutByte 3 % 2 = 1 ∧
    15 < (loadBody 0 16 1 2000 1500 0 resting).slotU8 3 0x10 ∧
    (loadBody 0 15 0 2000 1500 0 resting).slotU8 3 0x11 = 0 ∧ 12 < (loadBody 0 15 13 2000 1500 0 resting).slotU8 3 0x11 ∧
    (loadBody 0 15 12 999 1500 0 resting).slotU32 3 0x14 < 1000 ∧
    150000000 < (loadBody 0 15 12 150000001 1500 0 resting).slotU32 3 0x14 ∧
    (let s := loadBody 0 15 1 2000 999 0 resting
     ¬ (1000 ≤ s.slotU32 3 0x40) ∧ 0 ∈ List.range (s.slotU8 3 0x11)) ∧
    (let s := loadBody 0 15 1 2000 1000 2 resting
     1000 ≤ s.slotU32 3 0x40 ∧ ¬ (s.slotU8 3 0x44 ≤ 1)) := by
  unfold State.takesPosting; decide

theorem meets_PostingsAreRefusedInOrder_states :
    let good := loadBody 6 4 1 2000 1500 0
    let unprofiled := fun i (s : State) => s.updateCalibration i fun c => { c with profileValid := false }
    (∀ c ∈ (good resting).loadChecks 3, c.2 = true) ∧ (good resting).slotSpoutByte 3 = (6 : SpoutId).val
      ∧ (good resting).takesPosting 3
      ∧ (unprofiled 6 (good resting)).hasProfile 6 = false
      ∧ (unprofiled 7 (good resting)).hasProfile 6 = true ∧ (unprofiled 7 (good resting)).hasProfile (followerOf 6) = false
      ∧ (loadBody 6 3 1 2000 1500 0 resting).products[(loadBody 6 3 1 2000 1500 0 resting).loadProduct 3].set = false
      ∧ (good resting).products[(good resting).loadProduct 3].set = true
      ∧ (placed 6 .faulted (good resting)).isFaulted 6 = true
      ∧ (placed 7 .faulted (good resting)).isFaulted 6 = false ∧ (placed 7 .faulted (good resting)).isFaulted (followerOf 6) = true
      ∧ 4 ≤ (((good resting).setQueue 6 [8, 9, 10, 11]).queue 6).length := by
  unfold State.takesPosting; decide

/-- A LOAD on an odd spout whose partner has no profile and is FAULTED: what refuses it is its own spout's alone. -/
theorem meets_PostingsAreRefusedInOrder_loads :
    let good := loadBody 7 4 1 2000 1500 0
    let alone := fun (s : State) => placed 6 .faulted (s.updateCalibration 6 fun c => { c with profileValid := false })
    let s := alone (good resting)
    (∀ c ∈ s.loadChecks 3, c.2 = true) ∧ s.slotSpoutByte 3 = (7 : SpoutId).val ∧ s.takesPosting 3 ∧ s.hasProfile 7 = true
      ∧ s.products[s.loadProduct 3].set = true ∧ (placed 7 .faulted s).isFaulted 7 = true ∧ s.isFaulted 7 = false
      ∧ 4 ≤ ((s.setQueue 7 [8, 9, 10, 11]).queue 7).length := by
  unfold State.takesPosting; decide

/-- A profile record in slot 3: stamp, then the fields. -/
def profileSlot (p : Profile) (s : State) : State := slotWith 3 0 0x12 (profileFields true p) s

theorem meets_PostingsAreRefusedInOrder_others :
    (slotWith 3 0 0x10 [] resting).slotU32 3 0x10 = 0 ∧
    (let s := profileSlot { someProfile with window := 0 } resting
     ∃ index ∈ List.range 256, firstBad (profileChecks 0x10 (s.memory.profileAt (Config.slotBase 3 + 0x10))) = some index) ∧
    (slotWith 3 0 0x10 (u16Bytes 16) resting).slotU8 3 0x10 = 16 ∧
    (slotWith 3 0 0x10 (u16Bytes 15 ++ u16Bytes 5001) resting).slotU16 3 0x12 = 5001 ∧
    (let s := slotWith 3 0 0x10 (u8Bytes 16) resting
     ∃ index ∈ List.range 256, firstBad ((0x10, decide (s.slotU8 3 0x10 ≤ 15))
       :: productChecks 0x20 (s.memory.productAt (Config.slotBase 3 + 0x20))) = some index) ∧
    (let s := slotWith 3 0 0x10 (u8Bytes 4) (((opened .fine fineFeed).writeMemory (Config.slotBase 7 + 0x10) [4]).writeMemory
       (Config.slotBase 3 + 0x22) (productFields someProduct))
     (∀ c ∈ (0x10, decide (s.slotU8 3 0x10 ≤ 15)) :: productChecks 0x20 (s.memory.productAt (Config.slotBase 3 + 0x20)), c.2 = true)
       ∧ s.productInUse (s.slotU8 3 0x10) = true) ∧
    (slotWith 3 0 0x10 [8] resting).slotU8 3 0x10 = 8 ∧ (slotWith 3 0 0x10 [0xFF, 16] resting).slotU8 3 0x11 = 16 ∧
    (slotWith 3 0 0x10 [7, 0xFF, 2] resting).slotU8 3 0x12 = 2 := by decide

/-- The four kinds of record written at their places in the memory, and a profile record of an order in slot 3. -/
theorem meets_PresenceWindowExpiryEntersRunning_records :
    let s := resting
    (s.writeMemory 0x1C2 (panelFields (s.spout 3))).holds 0x1C2 (panelFields (s.spout 3))
      ∧ (s.writeMemory 0x302 (profileFields true (s.profile 0))).holds 0x302 (profileFields true (s.profile 0))
      ∧ (s.writeMemory 0x682 (productFields s.products[4])).holds 0x682 (productFields s.products[4])
      ∧ (s.writeMemory 0xFF2 (preactFields s.preact[127])).holds 0xFF2 (preactFields s.preact[127])
      ∧ (profileSlot someProfile s).memory.u16 (Config.slotBase 3 + 0x12) = 1 := by
  unfold State.holds; decide

/-- Spout 0 at work, with an order's body in slot 3. -/
def busy (body : List Byte) : State := slotWith 3 0 0x10 body (opened .fine fineFeed)

theorem meets_OrdersJoinTheQueueOfASpoutAtWork :
    (let s := busy (u32Bytes 1)
     s.memory.wf = true ∧ s.takesPosting 3 ∧ s.slotSpoutByte 3 = (0 : SpoutId).val
       ∧ s.isFaulted 0 = false ∧ (s.queue 0).length < 4 ∧ s.stage 0 ≠ .idle ∧ s.hasProfile 0 = true ∧ 1 ≤ s.slotU32 3 0x10) ∧
    (let s := busy (u16Bytes 15 ++ u16Bytes 5000)
     s.slotU8 3 0x10 ≤ 15 ∧ s.slotU16 3 0x12 ≤ 5000) ∧
    (∀ c ∈ profileChecks 0x10 ((profileSlot someProfile (busy [])).memory.profileAt (Config.slotBase 3 + 0x10)), c.2 = true) := by
  unfold State.takesPosting; decide

theorem meets_OrdersJoinTheQueueOfASpoutAtWork_loads :
    let s := loadSlot (opened .fine fineFeed)
    s.memory.wf = true ∧ s.takesPosting 3 ∧ s.slotSpoutByte 3 = (0 : SpoutId).val ∧ (0 : SpoutId).val % 2 = 0
      ∧ (∀ c ∈ s.loadChecks 3, c.2 = true) ∧ s.hasProfile 0 = true ∧ s.hasProfile (followerOf 0) = true
      ∧ s.products[s.loadProduct 3].set = true ∧ s.isFaulted 0 = false ∧ s.isFaulted (followerOf 0) = false
      ∧ (s.queue 0).length < 4 ∧ s.stage 0 ≠ .idle := by
  unfold State.takesPosting; decide

/-- A LOAD body for spout 0: product 4, two compartments, the first skip-marked, the second by its mark. -/
def skipSlot (second : Nat) (s : State) : State :=
  ((loadSlot s).writeMemory (Config.slotBase 3 + 0x11) [2]).writeMemory (Config.slotBase 3 + 0x44)
    ([1, 0] ++ u16Bytes 0 ++ u32Bytes 0 ++ u32Bytes 0 ++ u32Bytes 1000 ++ u8Bytes second)

theorem meets_LoadRunsOnASpoutAtRest :
    (let s := loadSlot resting
     s.memory.wf = true ∧ s.takesPosting 3 ∧ s.slotSpoutByte 3 = (0 : SpoutId).val ∧ (∀ c ∈ s.loadChecks 3, c.2 = true)
       ∧ s.hasProfile 0 = true ∧ s.products[s.loadProduct 3].set = true ∧ s.isFaulted 0 = false ∧ s.rests 0
       ∧ 0 < s.loadCount 3 ∧ s.slotU8 3 0x44 = 0 ∧ s.present 0 .indexReady = false) ∧
    (let s := skipSlot 0 (taken 0 .indexReady true resting)
     s.memory.wf = true ∧ s.takesPosting 3 ∧ (∀ c ∈ s.loadChecks 3, c.2 = true) ∧ s.rests 0 ∧ s.loadCount 3 = 2
       ∧ s.slotU8 3 0x44 = 1 ∧ s.slotU8 3 0x54 = 0 ∧ s.present 0 .indexReady = true ∧ (s.positioner 0).position = .released
       ∧ s.present 0 .spoutRaised = true) ∧
    (let s := skipSlot 1 resting
     s.memory.wf = true ∧ s.takesPosting 3 ∧ s.slotSpoutByte 3 = (0 : SpoutId).val ∧ (∀ c ∈ s.loadChecks 3, c.2 = true)
       ∧ s.rests 0 ∧ ∀ e ∈ List.range (s.loadCount 3), s.slotU8 3 (0x44 + 16 * e) = 1) := by
  unfold State.takesPosting State.rests; decide

theorem meets_TwinBindsAFollowerAtRest :
    let s := loadSlot resting
    s.hasProfile (followerOf 0) = true ∧ s.isFaulted (followerOf 0) = false ∧ s.stage (followerOf 0) = .idle
      ∧ (s.context (followerOf 0)).claim = none ∧ s.slotSpoutByte 3 = (0 : SpoutId).val := by decide

/-- Slot 8 RUNNING as a LOAD on spout 1, waiting for its hatch; slot 7 RUNNING as a TWIN on spout 0, its claim on spout 1 pending. -/
def claiming : State :=
  let o : OrderState := { product := 4, limit := 2000, count := 1, entries := [{ target := 1500, skip := false }] }
  (((resting.updateContext 0 fun c => { c with
      stage := .waitIndex, slot := some 7, compartment := { effectiveTarget := 1500 }, order := { o with twin := true } }).updateContext 1
    fun c => { c with
      stage := .waitIndex, slot := some 8, claim := some { leader := 0, slot := 7 }, compartment := { effectiveTarget := 1500 }
      order := { o with indexTimer := some 300000 } }).writeMemory (Config.slotBase 7) [3, 2]).writeMemory
    (Config.slotBase 8) [3, 1]

theorem meets_TwinBindsAFollowerAtRest_busy :
    let s := loadSlot (resting.updateContext 1 fun c => { c with stage := .waitIndex, slot := some 8 })
    s.memory.wf = true ∧ s.takesPosting 3 ∧ s.slotSpoutByte 3 = (0 : SpoutId).val ∧ (∀ c ∈ s.loadChecks 3, c.2 = true)
      ∧ s.hasProfile 0 = true ∧ s.hasProfile (followerOf 0) = true ∧ s.products[s.loadProduct 3].set = true
      ∧ s.isFaulted 0 = false ∧ s.isFaulted (followerOf 0) = false ∧ s.rests 0 ∧ s.stage (followerOf 0) ≠ .idle
      ∧ s.isBound (followerOf 0) = false ∧ s.slotU8 3 0x44 = 0 := by
  unfold State.takesPosting State.rests; decide

/-- The index timer of an order that a spout runs by itself in WAIT_INDEX ends it. -/
theorem indexTimerEnds (s : State) (i : SpoutId) (n : SlotId)
    (h : (s.context i).slot = some n ∧ s.isTwin i = false ∧ s.isBound i = false ∧ s.port.exchange = .running
      ∧ s.slotStateByte n = 3 ∧ (s.order i).count ≤ 12 ∧ (s.compartment i).index < 12 ∧ (s.order i).mark ≠ .reset
      ∧ s.stage i = .waitIndex ∧ (s.order i).indexTimer.isSome = true) : s.endsOrder (.indexTimerExpiry i) i n :=
  ⟨h.1, ⟨h.2.1, h.2.2.1⟩, h.2.2.2.1, h.2.2.2.2.1, h.2.2.2.2.2.1, h.2.2.2.2.2.2.1, h.2.2.2.2.2.2.2.1,
    .inl ⟨rfl, h.2.2.2.2.2.2.2.2.1, h.2.2.2.2.2.2.2.2.2⟩⟩

theorem meets_TwinBindsAFollowerAtRest_granted :
    claiming.endsOrder (.indexTimerExpiry (followerOf 0)) (followerOf 0) 8
      ∧ (taken 0 .indexReady true claiming).endsOrder (.indexTimerExpiry (followerOf 0)) (followerOf 0) 8 :=
  ⟨indexTimerEnds _ _ _ (by decide), indexTimerEnds _ _ _ (by decide)⟩

theorem meets_TwinBindsAFollowerAtRest_granted_rest :
    (claiming.memory.wf = true ∧ (claiming.context (followerOf 0)).claim = some { leader := 0, slot := 7 }
      ∧ claiming.isTwin 0 = true ∧ claiming.isBound 0 = false ∧ claiming.stage 0 = .waitIndex ∧ claiming.hasProfile 0 = true
      ∧ indexCondition (claiming.order 0).watch (claiming.present 0 .indexReady) = false) ∧
    (let s := taken 0 .indexReady true claiming
     indexCondition (s.order 0).watch (s.present 0 .indexReady) = true ∧ (s.positioner 0).position = .released
       ∧ s.present 0 .spoutRaised = true ∧ s.isFaulted (followerOf 0) = false
       ∧ (s.compartment 0).engagedReported = false) := by decide

theorem meets_ZeroRunsOrIsBusy :
    (resting.memory.wf = true ∧ resting.takesPosting 3 ∧ resting.slotSpoutByte 3 = (0 : SpoutId).val ∧ resting.hasProfile 0 = true
      ∧ resting.isFaulted 0 = false ∧ resting.rests 0 ∧ resting.present 0 .gateClosed = true) ∧
    (taken 0 .gateClosed false resting).present 0 .gateClosed = false := by
  unfold State.takesPosting State.rests; decide

theorem meets_ReconcileCorrectsTheSpan :
    (let s := slotWith 3 0 0x10 (u32Bytes 100000 ++ u32Bytes 105000) resting
     1 ≤ s.slotU32 3 0x10 ∧ 1 ≤ (s.profile 0).spanRef
       ∧ (s.slotU32 3 0x14 * 1000000 + s.slotU32 3 0x10 / 2) / s.slotU32 3 0x10 = 1050000) ∧
    (let s := slotWith 3 0 0x10 (u32Bytes 100000) resting
     (s.slotU32 3 0x14 * 1000000 + s.slotU32 3 0x10 / 2) / s.slotU32 3 0x10 < 950000) := by decide

theorem meets_calibration_lawful : calibrated.Lawful :=
  ⟨by decide, by decide, by decide, by decide, by decide, by decide, by decide, by decide⟩

theorem meets_ProfileAndSeedAreApplied :
    (let s := profileSlot someProfile resting
     s.memory.wf = true ∧ s.takesPosting 3 ∧ s.slotSpoutByte 3 = (0 : SpoutId).val ∧ s.isFaulted 0 = false ∧ s.rests 0
       ∧ ∀ c ∈ profileChecks 0x10 (s.memory.profileAt (Config.slotBase 3 + 0x10)), c.2 = true) ∧
    (let s := slotWith 3 0 0x10 (u16Bytes 15 ++ u16Bytes 5000) resting
     s.slotU8 3 0x10 = (15 : ProductId).val ∧ s.slotU16 3 0x12 ≤ 5000 ∧ s.slotSpoutByte 3 = (0 : SpoutId).val
       ∧ s.memory.wf = true ∧ s.takesPosting 3 ∧ s.rests 0) := by
  unfold State.takesPosting State.rests; decide

theorem meets_ProfileAndSeedAreApplied_capture :
    let s := profileSlot someProfile (resting.updateCalibration 0 fun c => { c with capture := .shortInterval, captureCount := 63 })
    s.rests 0 ∧ (s.calibration 0).capture = .shortInterval := by
  unfold State.rests; decide

theorem meets_StopActsByItsTarget :
    (let s := slotWith 3 0 0x10 (u8Bytes 31) resting
     s.takesPosting 3 ∧ s.slotU8 3 0x10 = (31 : SlotId).val ∧ s.slotStateByte 31 ≠ 2 ∧ s.slotStateByte 31 ≠ 3) ∧
    (slotWith 3 0 0x10 (u8Bytes 3) resting).slotU8 3 0x10 = (3 : SlotId).val ∧
    32 ≤ (slotWith 3 0 0x10 (u8Bytes 32) resting).slotU8 3 0x10 ∧
    (let s := (slotWith 3 0 0x10 (u8Bytes 31) resting).writeMemory (Config.slotBase 31) [2, 1]
     s.memory.wf = true ∧ s.takesPosting 3 ∧ s.slotStateByte 31 = 2 ∧ s.slotKind 31 = 1 ∧ s.loadCount 31 ≤ 12
       ∧ ∀ e ∈ List.range (s.loadCount 31), s.entryCode 31 e = 0) ∧
    (let s := slotWith 3 0 0x10 (u8Bytes 7) (waiting .zeroRun)
     s.memory.wf = true ∧ s.takesPosting 3 ∧ s.slotU8 3 0x10 = (7 : SlotId).val ∧ s.slotStateByte 7 = 3
       ∧ (∀ j, s.runs j 7 = true ↔ j = 0) ∧ s.stage 0 = .zeroRun ∧ s.queue 0 = [] ∧ (s.context 0).claim = none) := by
  unfold State.takesPosting; decide

/-- A STOP in slot 3 stops the order of slot 7. -/
theorem stopsSlotSeven (s : State)
    (h : (s.context 0).slot = some 7 ∧ s.isBound 0 = false ∧ s.slotStateByte 7 = 3 ∧ s.port.exchange = .running
      ∧ s.slotStateByte 3 = 0 ∧ s.slotU8 3 0x10 = 7 ∧ ∀ j, s.runs j 7 = true ↔ j = 0) : s.stopsOrder (.stop 3) 0 7 :=
  ⟨h.1, h.2.1, h.2.2.1, h.2.2.2.1, .inl ⟨3, rfl, h.2.2.2.2.1, h.2.2.2.2.2.1, h.2.2.2.2.2.2⟩⟩

/-- ALL_STOP stops the order of slot 7. -/
theorem allStopsSlotSeven (s : State)
    (h : (s.context 0).slot = some 7 ∧ s.isBound 0 = false ∧ s.slotStateByte 7 = 3 ∧ s.port.exchange = .running
      ∧ (∀ j, s.queue j = []) ∧ ∀ j, j ≠ 0 → (s.context j).slot = none ∨ s.isBound j = true) : s.stopsOrder .allStop 0 7 :=
  ⟨h.1, h.2.1, h.2.2.1, h.2.2.2.1, .inr ⟨rfl, h.2.2.2.2.1, h.2.2.2.2.2⟩⟩

/-- A STOP of slot 7 in slot 3. -/
def stopSlot (s : State) : State := slotWith 3 0 0x10 (u8Bytes 7) s

theorem meets_StopActsByTheStage :
    ((stopSlot (waiting .waitIndex)).stopsOrder (.stop 3) 0 7) ∧ (stopSlot (seated 0 (waiting .engaging))).stopsOrder (.stop 3) 0 7
      ∧ (stopSlot (opened .coarse fineFeed)).stopsOrder (.stop 3) 0 7
      ∧ (stopSlot (opened .settling shutGate)).stopsOrder (.stop 3) 0 7
      ∧ (stopSlot (waiting .releasing)).stopsOrder (.stop 3) 0 7 ∧ (waiting .waitIndex).stopsOrder .allStop 0 7 :=
  ⟨stopsSlotSeven _ (by decide), stopsSlotSeven _ (by decide), stopsSlotSeven _ (by decide), stopsSlotSeven _ (by decide),
    stopsSlotSeven _ (by decide), allStopsSlotSeven _ (by decide)⟩

theorem meets_StopActsByTheStage_rest :
    (let s := stopSlot (waiting .waitIndex)
     s.memory.wf = true ∧ s.single 0 ∧ (s.order 0).mark = .none ∧ (s.order 0).stopTaken = false ∧ s.hasProfile 0 = true
       ∧ (s.order 0).count ≤ 12 ∧ s.queue 0 = [] ∧ (s.context 0).claim = none) ∧
    (stopSlot (seated 0 (waiting .engaging))).willRaise 0 ∧
    (((stopSlot (waiting .releasing)).updateOrder 0 fun o => { o with stopTaken := true }).order 0).stopTaken = true := by
  unfold State.single State.willRaise; decide

theorem meets_ProductAndKeepAreApplied :
    (let s := slotWith 3 0 0x10 (u8Bytes 15) (resting.writeMemory (Config.slotBase 3 + 0x22) (productFields someProduct))
     s.memory.wf = true ∧ s.takesPosting 3 ∧ s.slotU8 3 0x10 = (15 : ProductId).val
       ∧ (∀ c ∈ productChecks 0x20 (s.memory.productAt (Config.slotBase 3 + 0x20)), c.2 = true)
       ∧ s.productInUse 15 = false) ∧
    (let s := slotWith 3 0 0x10 [7, 0xFF, 1] resting
     s.memory.wf = true ∧ s.takesPosting 3 ∧ s.slotU8 3 0x10 ≤ 7 ∧ s.slotU8 3 0x11 = 0xFF ∧ s.slotU8 3 0x12 ≤ 1) := by
  unfold State.takesPosting; decide

/-- Spout 7 FAULTED after a failed close, CLOSE still held. -/
def failedGate : State :=
  (placed 7 .faulted (slotWith 3 7 0x10 [] resting)).updateGate 7 fun g => { g with output := .close, failed := true }

theorem meets_ClearIsAnswered :
    resting.isFaulted 0 = false ∧
    (let s := taken 7 .gateClosed false failedGate
     s.isFaulted 7 = true ∧ (s.gate 7).failed = true ∧ s.present 7 .gateClosed = false ∧ s.takesPosting 3) ∧
    (failedGate.memory.wf = true ∧ failedGate.slotSpoutByte 3 = (7 : SpoutId).val ∧ failedGate.isFaulted 7 = true
      ∧ failedGate.stage 7 = .idle ∧ ((failedGate.receiver 7).link = .lost ∨ (failedGate.receiver 7).link = .absent →
          100 ≤ (failedGate.receiver 7).goodRun)
      ∧ ((failedGate.gate 7).failed = true → failedGate.present 7 .gateClosed = true)) ∧
    (let s := (failedGate.updateReceiver 7 fun r => { r with link := .lost, goodRun := 100, silence := none }).updatePositioner 7
       fun p => { p with cause := .sensorLost }
     s.isFaulted 7 = true ∧ 100 ≤ (s.receiver 7).goodRun ∧ (s.positioner 7).cause = .sensorLost) := by
  unfold State.takesPosting; decide

/-! ### The sensor lines -/

set_option maxRecDepth 4000 in
theorem meets_CharactersAndFramesAreChecked :
    (starting.port.linesLive = true ∧ (starting.receiver 0).assembly = [] ∧ (starting.receiver 0).huntCounted = false) ∧
    ((starting.updateReceiver 0 fun r => { r with huntCounted := true }).receiver 0).huntCounted = true ∧
    (let s := starting.updateReceiver 0 fun r => { r with assembly := [0xA5, 0, 0, 0] }
     (s.receiver 0).assembly ≠ [] ∧ (s.receiver 0).assembly.length < 5) ∧
    (let s := framed 0 0 0xC4 0x24 resting
     s.port.linesLive = true ∧ (s.receiver 0).assembly = [0xA5, 0, 0, 0xC4, 0x24] ∧ (s.receiver 0).lastSequence = some 0) ∧
    (0x00 : Byte) ≠ crc8 [0xA5, 0, 0, 0xC4, 0x24] := by decide

theorem meets_FrameDeliversItsSamples :
    (let s := framed 5 2 0xC4 0x24 (resting.updateReceiver 0 fun r => { r with missingRun := 0 })
     s.port.linesLive = true ∧ (s.receiver 0).link = .present ∧ (s.receiver 0).lastSequence = some 0
       ∧ ((5 : Byte) - 0 - 1).toNat = 4 ∧ (s.receiver 0).missingRun + 4 ≤ 4) ∧
    (let s := framed 1 2 0xC4 0x24 resting
     (2 : Byte).getLsbD 1 = true ∧ (s.receiver 0).missingRun + 0 + 1 ≤ 4) ∧
    (let s := framed (0 + 1) 1 0xC4 0x24 resting
     s.port.linesLive = true ∧ (s.receiver 0).link = .present ∧ (s.receiver 0).lastSequence = some 0
       ∧ (1 : Byte).getLsbD 1 = false ∧ (s.receiver 0).missingRun ≤ 4 ∧ s.stage 0 = .idle ∧ (s.gate 0).starve = none
       ∧ (s.calibration 0).capture = .none) := by decide

/-- A sample that sets LEAK: 3000 counts on a shut gate, the accumulator at its limit of 50 g. -/
theorem meets_FrameDeliversItsSamples_leak :
    let s := resting.updateChannel 0 fun c => { c with leakTotal := 50, leakRemainder := 995 }
    let c := (s.channel 0).process { raw := 3000, overRange := false, substituted := false } (s.sampleSettings 0)
    c.leak = true ∧ (s.channel 0).leak = false := by decide

theorem meets_RecoveryAndPresence :
    (let s := framed (255 + 1) 0 0 0x80 (resting.updateReceiver 0 fun r =>
       { r with link := .lost, lastSequence := some 255, silence := none, watch := some 20 })
     s.port.linesLive = true ∧ (s.receiver 0).link = .lost ∧ (s.receiver 0).lastSequence = some 255
       ∧ (s.receiver 0).watch.isSome = true ∧ (0 : Byte).getLsbD 1 = false) ∧
    (let s := framed 9 0 0 0 starting
     s.memory.wf = true ∧ s.port.linesLive = true ∧ (s.receiver 0).link = .searching ∧ (s.receiver 0).lastSequence = none
       ∧ (s.receiver 0).goodRun + 1 < 16 ∧ s.stage 0 = .idle ∧ (s.gate 0).starve = none ∧ (s.calibration 0).capture = .none) ∧
    16 ≤ ((framed 9 0 0 0 (starting.updateReceiver 0 fun r => { r with goodRun := 15 })).receiver 0).goodRun + 1 := by decide

theorem meets_PresentLinkIsLost :
    ((resting.receiver 0).link = .present ∧ (resting.receiver 0).silence.isSome = true ∧ resting.isFaulted 0 = false) ∧
    (let s := framed 6 0 0 0 resting
     (s.receiver 0).lastSequence = some 0 ∧ 5 ≤ ((6 : Byte) - 0 - 1).toNat ∧ ((6 : Byte) - 0 - 1).toNat ≤ 254) ∧
    (let s := framed 1 2 0 0 (resting.updateReceiver 0 fun r => { r with missingRun := 4 })
     (2 : Byte).getLsbD 1 = true ∧ 4 ≤ (s.receiver 0).missingRun + ((1 : Byte) - 0 - 1).toNat) := by decide

theorem meets_PresentLinkIsLost_alone :
    (let s := opened .trim fineFeed
     s.memory.wf = true ∧ s.port.exchange = .running ∧ s.single 0 ∧ (s.context 0).slot = some 7 ∧ (s.context 0).claim = none
       ∧ s.queue 0 = [] ∧ s.isFaulted 0 = false ∧ (s.receiver 0).link = .present ∧ (s.receiver 0).silence.isSome = true
       ∧ (s.order 0).mark ≠ .reset ∧ (s.compartment 0).index < (s.order 0).count ∧ (s.order 0).count ≤ 12
       ∧ (s.stage 0).isOpen = true ∧ (s.gate 0).isOpen = true ∧ s.hasProfile 0 = true) ∧
    (let s := opened .settling shutGate
     s.stage 0 = .settling ∧ (s.compartment 0).opened = true ∧ (s.compartment 0).trimsUsed ≤ 3
       ∧ (s.channel 0).delivered ≤ 4294967295 ∧ (s.compartment 0).cause ≠ some .reset
       ∧ (s.compartment 0).cause ≠ some .pending) ∧
    (opened .closing closingGate).stage 0 = .closing ∧
    (let s := seated 0 (waiting .zeroing)
     s.stage 0 = .zeroing ∧ (s.compartment 0).cause = none ∧ (s.compartment 0).opened = false) ∧
    (waiting .waitIndex).stage 0 = .waitIndex ∧ (waiting .releasing).stage 0 = .releasing
      ∧ (waiting .zeroRun).stage 0 = .zeroRun := by
  unfold State.single; decide

/-- A LOAD waits in slot 5 at spout 0 behind the one that runs there in slot 7. -/
def queuedBehind (s : State) : State :=
  ((loadBody 0 4 1 2000 1500 0 s).writeMemory (Config.slotBase 5) [2, 1, 0]).setQueue 0 [5]

theorem meets_PresentLinkIsLost_queue :
    let s := queuedBehind (opened .trim fineFeed)
    s.isFaulted 0 = false ∧ s.port.exchange ≠ .resetting ∧ s.queue 0 = [5] ∧ (s.context 0).slot = some 7
      ∧ ∀ q ∈ s.queue 0, q ≠ 7 ∧ (s.slotKind q = 1 ∨ s.slotKind q = 2 → s.loadCount q ≤ 12) := by decide

/-! ### The field lines -/

theorem meets_InputChangesAreDebouncedOrTakenAtOnce :
    (resting.port.linesLive = true ∧ (resting.line 0 .permit).initiallyTaken = false) ∧
    ((resting.line 0 .gateClosed).initiallyTaken = true ∧ true = (resting.line 0 .gateClosed).taken) ∧
    (false ≠ (resting.line 0 .gateClosed).taken ∧ (resting.line 0 .gateClosed).timer = none
      ∧ (if resting.hasProfile 0 then (resting.profile 0).debounce else 20) ≠ 0) ∧
    (let s := due 0 .gateClosed false resting
     (s.line 0 .gateClosed).initiallyTaken = true ∧ false ≠ (s.line 0 .gateClosed).taken
       ∧ (s.line 0 .gateClosed).timer.isSome = true) ∧
    (let s := resting.updateCalibration 0 fun c => { c with profile := { someProfile with debounce := 0 } }
     (if s.hasProfile 0 then (s.profile 0).debounce else 20) = 0) := by decide

theorem meets_InputChangesAreDebouncedOrTakenAtOnce_cuts :
    let s := taken 0 .levelHigh false (opened .trim fineFeed)
    s.port.linesLive = true ∧ (s.line 0 .permit).initiallyTaken = true ∧ (s.line 0 .permit).taken = !false
      ∧ (s.line 0 .levelHigh).initiallyTaken = true ∧ (s.line 0 .levelHigh).taken = !true
      ∧ (s.stage 0).isOpen = true ∧ s.isTwin 0 = false ∧ (s.gate 0).isOpen = true ∧ s.hasProfile 0 = true := by decide

theorem meets_DebounceExpiryTakesTheChange :
    (due 7 .permit false resting).changeDue 7 .permit false ∧ (due 0 .levelHigh false resting).changeDue 0 .levelHigh false ∧
    (let s := due 0 .gateOpen true (opened .opening { output := .openFull, opening := some 1500 })
     s.changeDue 0 .gateOpen true ∧ s.isTwin 0 = false ∧ (s.gate 0).opening.isSome = true ∧ s.stage 0 = .opening
       ∧ (s.gate 0).output = .openFull) ∧
    (let s := due 0 .gateClosed false (opened .trim { output := .openFine, opening := some 1500 })
     s.changeDue 0 .gateClosed false ∧ s.stage 0 = .trim ∧ (s.gate 0).output = .openFine ∧ (s.gate 0).opening.isSome = true) := by
  unfold State.changeDue; decide

/-- Every input of spout 0 taken. -/
def allInputsTaken : State :=
  [InputName.gateOpen, .spoutLowered, .levelHigh, .indexReady, .permit].foldl (fun t n => taken 0 n false t) resting

theorem meets_DebounceExpiryTakesTheChange_recloses :
    let s := due 0 .gateClosed false allInputsTaken
    s.changeDue 0 .gateClosed false ∧ s.inputsTaken 0 = true ∧ s.isBound 0 = false ∧ (s.gate 0).isOpen = false
      ∧ (s.gate 0).failed = false ∧ (s.gate 0).close = none ∧ (s.gate 0).retry = none := by
  unfold State.changeDue; decide

/-- Spout `i` is about to report ENGAGED. -/
def landing (i : SpoutId) (s : State) : State := due i .spoutLowered true (placed i .lowering s)

theorem landing_reportsEngaged (i : SpoutId) (s : State) (h : s.present i .spoutRaised = false)
    (h₁ : (landing i s).present i .spoutRaised = s.present i .spoutRaised)
    (h₂ : ((landing i s).positioner i).position = .lowering)
    (h₃ : (landing i s).changeDue i .spoutLowered true) :
    (landing i s).reportsEngaged (.debounceExpiry i .spoutLowered) i :=
  ⟨h₂, .inl ⟨rfl, h₃, h₁.trans h⟩⟩

theorem meets_SpoutSwitchesMoveThePositioner_engaged :
    (landing 0 (seated 0 resting)).reportsEngaged (.debounceExpiry 0 .spoutLowered) 0
      ∧ (landing 0 (seated 0 resting)).stage 0 ≠ .engaging ∧ (landing 0 (seated 0 resting)).isBound 0 = false :=
  ⟨landing_reportsEngaged 0 _ (by decide) (by decide) (by decide) (by unfold State.changeDue; decide), by decide, by decide⟩

theorem meets_SpoutSwitchesMoveThePositioner :
    (let s := due 0 .spoutRaised true (placed 0 .raising resting)
     s.changeDue 0 .spoutRaised true ∧ (s.positioner 0).position = .raising ∧ (s.positioner 0).engageWaiting = false
       ∧ s.stage 0 ≠ .releasing ∧ s.isBound 0 = false) ∧
    (((placed 0 .raising resting).updatePositioner 0 fun p => { p with engageWaiting := true }).positioner 0).engageWaiting = true ∧
    (let s := due 0 .spoutLowered false (seated 0 (waiting .engaging))
     s.changeDue 0 .spoutLowered false ∧ (s.positioner 0).position = .engaged ∧ s.stage 0 = .engaging
       ∧ (s.positioner 0).engageWaiting = false ∧ s.present 0 .spoutRaised = false) ∧
    (let s := due 0 .spoutRaised false resting
     s.changeDue 0 .spoutRaised false ∧ (s.positioner 0).position = .released) := by
  unfold State.changeDue; decide

theorem meets_SpoutSwitchesMoveThePositioner_lost :
    (let s := due 1 .spoutLowered false (paired .engaging .engaging {} {})
     s.changeDue 1 .spoutLowered false ∧ (s.positioner 1).position = .engaged ∧ s.isBound 1 = true
       ∧ s.stage (leaderOf 1) = .engaging ∧ (s.positioner 1).engageWaiting = false ∧ s.present 1 .spoutRaised = false) ∧
    (due 0 .spoutLowered false (seated 0 (waiting .zeroRun))).stage 0 = .zeroRun := by
  unfold State.changeDue; decide

theorem meets_IndexReadyEngagesAWaitingSpout :
    (let s := due 0 .indexReady false (waiting .releasing)
     s.changeDue 0 .indexReady false ∧ s.stage 0 = .releasing) ∧
    (let s := due 0 .indexReady true ((waiting .waitIndex).updateOrder 0 fun o => { o with watch := .awaitDrop })
     s.changeDue 0 .indexReady true ∧ s.stage 0 = .waitIndex ∧ (s.order 0).watch ≠ .awaitRise ∧ (s.order 0).watch ≠ .risen) ∧
    (let s := due 0 .indexReady true (waiting .waitIndex)
     s.changeDue 0 .indexReady true ∧ s.stage 0 = .waitIndex ∧ s.isTwin 0 = false ∧ (s.order 0).watch ≠ .awaitDrop
       ∧ (s.positioner 0).position = .released ∧ s.present 0 .spoutRaised = true) ∧
    ((placed 0 .raising (waiting .waitIndex)).positioner 0).position = .raising := by
  unfold State.changeDue; decide

/-- Both spouts of a TWIN RELEASED, at their upper switches. -/
def pairAtRest : State :=
  [(0 : SpoutId), 1].foldl (fun t i => placed i .released (taken i .spoutRaised true t)) (paired .waitIndex .waiting {} {})

theorem meets_IndexReadyEngagesAWaitingSpout_twin :
    let s := due 0 .indexReady true pairAtRest
    s.changeDue 0 .indexReady true ∧ s.pair 0 ∧ s.stage 0 = .waitIndex ∧ (s.order 0).watch ≠ .awaitDrop
      ∧ ∀ m, m = 0 ∨ m = followerOf 0 → (s.positioner m).position = .released ∧ s.present m .spoutRaised = true := by
  unfold State.changeDue State.pair; decide

/-! ### Compartments -/

/-- Spout 0 about to start its compartment, with a debt of zeroes. -/
def startingOne (debt : Nat) : State :=
  landing 0 ((seated 0 (waiting .engaging)).updateCalibration 0 fun c => { c with debt := debt })

theorem meets_EngagedStartsTheCompartment :
    (∀ debt ∈ [(0 : Nat), 8], (startingOne debt).reportsEngaged (.debounceExpiry 0 .spoutLowered) 0) ∧
    (let s := startingOne 0
     s.memory.wf = true ∧ s.stage 0 = .engaging ∧ s.single 0 ∧ (s.context 0).slot = some 7 ∧ (s.compartment 0).index < 12
       ∧ (s.compartment 0).effectiveTarget ≤ 65000000 ∧ (s.order 0).mark = .none ∧ (s.order 0).mark ≠ .reset ∧ s.mayOpen 0
       ∧ s.present 0 .indexReady = true ∧ (s.calibration 0).debt ≠ 8
       ∧ (s.order 0).fineBand < (s.compartment 0).effectiveTarget) ∧
    ((startingOne 8).calibration 0).debt = 8 ∧ (taken 0 .permit false (startingOne 0)).present 0 .permit = false
      ∧ (taken 0 .indexReady false (startingOne 0)).present 0 .indexReady = false
      ∧ (taken 0 .levelHigh true (startingOne 0)).present 0 .levelHigh = true
      ∧ (taken 0 .gateClosed false (startingOne 0)).present 0 .gateClosed = false := by
  refine ⟨fun debt h => ?_, ?_⟩
  · obtain rfl | rfl : debt = 0 ∨ debt = 8 := by simpa using h
    all_goals exact landing_reportsEngaged 0 _ (by decide) (by decide) (by decide) (by unfold State.changeDue; decide)
  · unfold State.single State.mayOpen; decide

/-- Spout 0 in ZEROING, its blocking capture one sample short. -/
def zeroing : State :=
  (seated 0 (waiting .zeroing)).updateCalibration 0 fun c => { c with
    debt := 8, capture := .longBlocking, captureCount := 1023, captureSum := 409200, zeroTimeout := some 20000 }

theorem meets_EngagedStartsTheCompartment_resumed :
    zeroing.stage 0 = .zeroing ∧ zeroing.single 0 ∧ (zeroing.calibration 0).capture = .longBlocking
      ∧ (zeroing.calibration 0).captureCount = 1023 ∧ ((440 : Int) - (zeroing.calibration 0).zero).natAbs ≤ (zeroing.profile 0).zeroBand
      ∧ zeroing.mayOpen 0 ∧ zeroing.present 0 .indexReady = true ∧ (zeroing.positioner 0).position = .engaged
      ∧ (zeroing.gate 0).starve = none := by
  unfold State.single State.mayOpen; decide

theorem meets_CompartmentEndsBeforeItsOpening :
    (let s := due 0 .indexReady false (due 0 .spoutLowered false zeroing)
     s.memory.wf = true ∧ s.single 0 ∧ (s.context 0).slot = some 7 ∧ (s.compartment 0).index < 12
       ∧ (s.compartment 0).cause = none ∧ (s.compartment 0).secondary = none ∧ (s.compartment 0).opened = false
       ∧ (s.compartment 0).trimsUsed = 0 ∧ (s.order 0).mark = .none ∧ s.willRaise 0 ∧ (s.positioner 0).engageWaiting = false
       ∧ s.changeDue 0 .indexReady false ∧ s.changeDue 0 .spoutLowered false ∧ s.stage 0 = .zeroing
       ∧ (s.calibration 0).zeroTimeout.isSome = true) ∧
    (let s := placed 0 .lowering (waiting .engaging)
     s.memory.wf = true ∧ s.single 0 ∧ (s.compartment 0).index < (s.order 0).count ∧ (s.order 0).count ≤ 12
       ∧ s.stage 0 = .engaging ∧ (s.positioner 0).position = .lowering ∧ (s.positioner 0).travel.isSome = true ∧ s.queue 0 = []
       ∧ (s.context 0).claim = none) := by
  unfold State.single State.willRaise State.changeDue; decide

/-- The follower about to report ENGAGED; the leader has, or has not. -/
def startingTwo (reported : Bool) (debt : Nat) : State :=
  landing 1 (([(0 : SpoutId), 1].foldl (fun t i => t.updateCalibration i fun c => { c with debt := debt })
    (paired .engaging .engaging {} {})).updateCompartment 0 fun c => { c with engagedReported := reported })

theorem meets_TwinCompartmentOpensOnBothSpouts :
    (∀ p ∈ [(false, 0), (true, 0), (true, 8)],
      (startingTwo p.1 p.2).reportsEngaged (.debounceExpiry 1 .spoutLowered) 1) ∧
    (let s := startingTwo true 0
     s.memory.wf = true ∧ s.pair 0 ∧ (1 : SpoutId) = followerOf 0 ∧ s.stage 0 = .engaging
       ∧ (s.context (followerOf 0)).phase = .engaging ∧ (s.context 0).slot = some 7 ∧ (s.compartment 0).index < 12
       ∧ (s.compartment 0).effectiveTarget ≤ 65000000 ∧ (s.compartment 0).engagedReported = true
       ∧ (s.calibration 0).debt ≠ 8 ∧ (s.calibration (followerOf 0)).debt ≠ 8 ∧ s.mayOpen 0 ∧ s.mayOpen (followerOf 0)
       ∧ s.present 0 .indexReady = true ∧ (s.positioner 0).position = .engaged
       ∧ s.present 0 .gateOpen = false ∧ s.present (followerOf 0) .gateOpen = false) ∧
    (taken 1 .gateClosed false (startingTwo true 0)).present 1 .gateClosed = false := by
  refine ⟨fun p h => ?_, ?_⟩
  · obtain rfl | rfl | rfl : p = (false, 0) ∨ p = (true, 0) ∨ p = (true, 8) := by simpa using h
    all_goals exact landing_reportsEngaged 1 _ (by decide) (by decide) (by decide) (by unfold State.changeDue; decide)
  · unfold State.pair State.mayOpen; decide

theorem meets_TwinCompartmentOpensOnBothSpouts_verified :
    let g : GateUnit := { output := .openFull, opening := some 1500 }
    let s := due 1 .gateOpen true (paired .opening .opening g g)
    s.pair 0 ∧ s.stage 0 = .opening ∧ s.changeDue 1 .gateOpen true ∧ (s.gate 1).output = .openFull
      ∧ (s.gate 0).output = .openFull ∧ (s.gate 1).opening.isSome = true := by
  unfold State.pair State.changeDue; decide

theorem meets_GateClosedEndsTheClose :
    (let s := due 0 .gateClosed true (opened .closing closingGate)
     s.changeDue 0 .gateClosed true ∧ s.stage 0 = .closing ∧ s.isTwin 0 = false ∧ (s.order 0).mark ≠ .reset
       ∧ (s.compartment 0).noSettle = false ∧ (s.gate 0).output = .close ∧ (s.gate 0).failed = false) ∧
    (((opened .closing { retry := some 200, secondTry := true }).gate 0).retry.isSome = true) ∧
    (((opened .closing closingGate).updateCompartment 0 fun c => { c with noSettle := true }).compartment 0).noSettle = true := by
  unfold State.changeDue; decide

theorem meets_GateClosedEndsTheClose_reset :
    let s := resetting ((due 0 .gateClosed true (opened .closing closingGate)).updateOrder 0 fun o => { o with mark := .reset })
    s.memory.wf = true ∧ s.changeDue 0 .gateClosed true ∧ s.stage 0 = .closing ∧ s.single 0 ∧ (s.gate 0).failed = false
      ∧ (s.gate 0).output = .close ∧ (s.order 0).mark = .reset ∧ (s.context 0).slot = some 7 ∧ s.slotStateByte 7 = 3
      ∧ (s.compartment 0).index < (s.order 0).count ∧ (s.order 0).count ≤ 12 ∧ (s.compartment 0).opened = true
      ∧ (s.compartment 0).trimsUsed ≤ 3 ∧ (s.channel 0).delivered ≤ 4294967295 := by
  unfold State.changeDue State.single; decide

/-- Spout 0 in COARSE, seated, with a due change on each of two inputs. -/
def aboutToCut : State :=
  due 0 .indexReady false (due 0 .spoutLowered false (taken 0 .levelHigh false (opened .coarse fineFeed)))

theorem meets_EventsCutAnOpenStage_events :
    aboutToCut.cutEvent (.inputChange 0 .permit false) 0 .permitLost
      ∧ aboutToCut.cutEvent (.inputChange 0 .levelHigh true) 0 .level
      ∧ aboutToCut.cutEvent (.debounceExpiry 0 .spoutLowered) 0 .seatLost
      ∧ aboutToCut.cutEvent (.debounceExpiry 0 .indexReady) 0 .vehicleMoved
      ∧ (opened .opening { output := .openFine, opening := some 1500 }).cutEvent (.openingTimerExpiry 0) 0 .noOpen
      ∧ ((opened .fine fineFeed).updateCompartment 0 fun c => { c with starveCount := 1 }).cutEvent (.starveTimerExpiry 0) 0
        .noFlow
      ∧ (opened .settling shutGate).cutEvent (.inputChange 0 .permit false) 0 .permitLost := by
  unfold State.cutEvent State.changeDue
  exact ⟨.inl (by decide), .inr (.inl (by decide)), .inr (.inr (.inl (by decide))), .inr (.inr (.inr (.inl (by decide)))),
    .inr (.inr (.inr (.inr (.inl (by decide))))), .inr (.inr (.inr (.inr (.inr (by decide))))), .inl (by decide)⟩

theorem meets_EventsCutAnOpenStage :
    (aboutToCut.isTwin 0 = false ∧ (aboutToCut.stage 0).isOpen = true ∧ (aboutToCut.gate 0).isOpen = true
      ∧ aboutToCut.hasProfile 0 = true ∧ aboutToCut.present 0 .spoutRaised = false) ∧
    ((opened .settling shutGate).stage 0 = .settling ∧ ((opened .settling shutGate).gate 0).isOpen = false) := by decide

/-! ### The timers -/

/-- Spout 0 idle with its gate closing again. -/
def reclosing : State := resting.updateGate 0 fun g => { g with output := .close, close := some 2000, secondTry := true }

theorem meets_StarveAndGateTimersExpire :
    (((opened .fine fineFeed).gate 0).starve.isSome = true ∧ ((opened .fine fineFeed).compartment 0).starveCount = 0) ∧
    ((resting.updateField 0 fun g => { g with aerate := true, aerateTimer := some 1 }).field 0).aerateTimer.isSome = true ∧
    (let s := reclosing.updateGate 0 fun g => { g with secondTry := false }
     (s.gate 0).close.isSome = true ∧ (s.gate 0).secondTry = false) ∧
    (let s := resting.updateGate 0 fun g => { g with retry := some 200, secondTry := true }
     (s.gate 0).retry.isSome = true ∧ s.hasProfile 0 = true) ∧
    (let s := resting.updateGate 0 fun _ => shutGate
     (s.gate 0).hold.isSome = true ∧ (s.gate 0).failed = false) ∧
    ((failedGate.updateGate 7 fun g => { g with hold := some 500 }).gate 7).failed = true := by decide

theorem meets_CloseFailureAndTravelExpiryFaultTheSpout :
    ((reclosing.gate 0).close.isSome = true ∧ (reclosing.gate 0).secondTry = true ∧ (reclosing.gate 0).output = .close
      ∧ reclosing.isFaulted 0 = false ∧ reclosing.stage 0 = .idle ∧ (reclosing.context 0).claim = none
      ∧ reclosing.port.exchange = .running ∧ reclosing.port.doneCount ≤ 255) ∧
    (((placed 0 .lowering resting).positioner 0).travel.isSome = true
      ∧ ((placed 0 .lowering resting).positioner 0).position = .lowering) ∧
    (let s := opened .closing { closingGate with secondTry := true }
     s.memory.wf = true ∧ (s.gate 0).close.isSome = true ∧ (s.gate 0).secondTry = true ∧ (s.gate 0).output = .close
       ∧ s.isFaulted 0 = false ∧ s.stage 0 = .closing ∧ s.single 0 ∧ (s.context 0).slot = some 7
       ∧ (s.compartment 0).index < (s.order 0).count ∧ (s.order 0).count ≤ 12 ∧ (s.compartment 0).opened = true
       ∧ (s.compartment 0).trimsUsed ≤ 3 ∧ (s.channel 0).delivered ≤ 4294967295 ∧ (s.order 0).mark ≠ .reset
       ∧ (s.compartment 0).cause ≠ some .reset ∧ (s.compartment 0).cause ≠ some .pending ∧ s.queue 0 = []
       ∧ (s.context 0).claim = none) := by
  unfold State.single; decide

theorem meets_CloseFailureAndTravelExpiryFaultTheSpout_queue :
    (queuedBehind reclosing).faults (.closeTimerExpiry 0) 0 ∧ (queuedBehind (placed 0 .raising resting)).faults (.travelTimerExpiry 0) 0
      ∧ (queuedBehind resting).faults (.silenceTimerExpiry 0) 0 :=
  ⟨⟨by decide, .inr (.inr (by decide))⟩, ⟨by decide, .inr (.inl (by decide))⟩, ⟨by decide, .inl (by decide)⟩⟩

theorem meets_CloseFailureAndTravelExpiryFaultTheSpout_queue_rest :
    let s := queuedBehind resting
    s.memory.wf = true ∧ s.stage 0 = .idle ∧ (s.context 0).claim = none ∧ s.port.exchange = .running
      ∧ ∀ q ∈ s.queue 0, s.slotKind q = 1 ∧ s.loadCount q ≤ 12 := by decide

theorem meets_IndexAndZeroTimersExpire :
    (let s := waiting .waitIndex
     s.memory.wf = true ∧ s.stage 0 = .waitIndex ∧ (s.order 0).indexTimer.isSome = true ∧ (s.context 0).slot = some 7
       ∧ s.isTwin 0 = false ∧ (s.order 0).mark = .none ∧ (s.compartment 0).index < (s.order 0).count
       ∧ (s.order 0).count ≤ 12 ∧ s.queue 0 = [] ∧ (s.context 0).claim = none) ∧
    ((resting.calibration 0).interval.isSome = true ∧ resting.stage 0 = .idle ∧ resting.present 0 .gateClosed = true
      ∧ resting.isFaulted 0 = false ∧ (resting.calibration 0).capture = .none ∧ (waiting .zeroing).stage 0 = .zeroing) ∧
    (let s := (waiting .zeroRun).updateCalibration 0 fun c => { c with capture := .longOrder, zeroTimeout := some 20000 }
     s.memory.wf = true ∧ s.stage 0 = .zeroRun ∧ (s.calibration 0).zeroTimeout.isSome = true ∧ (s.context 0).slot = some 7
       ∧ s.isTwin 0 = false ∧ s.queue 0 = [] ∧ (s.context 0).claim = none) := by decide

theorem meets_PanelTimerExpiryRefreshesThePanel :
    let s := resting.updateSpout 7 fun p => { p with panelTimer := some 100 }
    s.memory.wf = true ∧ (s.spout 7).panelTimer.isSome = true ∧ s.port.visible = true := by decide

/-! ### Metering, settle and release -/

theorem meets_SampleUpdatesTheChannel :
    let c : Channel := { window := [5], windowSum := 5, fillCount := 1 }
    c.Lawful ∧ c.window.length ≤ 1 ∧ 0 < 1 :=
  ⟨⟨by decide, by decide, by decide, by decide, by decide, by decide, by decide⟩, by decide, by decide⟩

theorem meets_SampleUpdatesTheChannel_settings :
    (resting.calibration 0).profileValid = true ∧ resting.stage 0 = .idle ∧ resting.present 0 .gateClosed = true
      ∧ (opened .fine fineFeed).stage 0 = .fine ∧ (running.calibration 0).profileValid = false := by decide

theorem meets_FeedIsSwitchedAndCutByPrediction :
    (let s := (opened .fine fineFeed).updateChannel 0 fun c => { c with delivered := 1500 }
     s.stage 0 = .fine ∧ s.isTwin 0 = false ∧ s.hasProfile 0 = true ∧ (s.gate 0).isOpen = true
       ∧ (s.compartment 0).effectiveTarget ≤ (s.channel 0).delivered) ∧
    (let s := (opened .coarse { fineFeed with output := .openFull }).updateChannel 0 fun c => { c with delivered := 1000 }
     s.stage 0 = .coarse ∧ (s.compartment 0).effectiveTarget ≤ (s.channel 0).delivered + (s.order 0).fineBand) ∧
    (let s := opened .trim fineFeed
     s.stage 0 = .trim ∧ s.isTwin 0 = false ∧ s.hasProfile 0 = true ∧ (s.gate 0).isOpen = true ∧ s.isBound 0 = false
       ∧ (s.stage 0).isOpen = true ∧ (s.calibration 0).capture = .none) ∧
    (let s := (opened .fine fineFeed).updateChannel 0 fun c => { c with surgeRun := 2 }
     let u := channelSample 0 { raw := 3000, overRange := true, substituted := false } s
     s.hasProfile 0 = true ∧ (s.profile 0).surgeCount ≤ (u.channel 0).surgeRun) := by decide

theorem meets_TwinFeedIsSwitchedAndCutOnTheCombinedMass :
    (let g := { fineFeed with output := .openFull }
     let s := (paired .coarse .feeding g g).updateChannel 1 fun c => { c with delivered := 1000 }
     s.pair 0 ∧ s.stage 0 = .coarse ∧ (s.gate 0).isOpen = true ∧ (s.gate (followerOf 0)).isOpen = true
       ∧ (s.compartment 0).effectiveTarget ≤ (s.channel 0).delivered + (s.channel (followerOf 0)).delivered + (s.order 0).fineBand
       ∧ (s.calibration (followerOf 0)).capture = .none ∧ (s.context (followerOf 0)).phase ≠ .settling) ∧
    (let s := (paired .fine .settling fineFeed shutGate).updateContext 1 fun c =>
       { c with closeRecord := some { rate := 3000, delivered := 400 } }
     s.pair 0 ∧ s.stage 0 = .fine ∧ (s.gate 0).isOpen = true ∧ (s.gate (followerOf 0)).isOpen = false
       ∧ (s.context (followerOf 0)).phase = .settling ∧ (s.context (followerOf 0)).closeRecord ≠ none
       ∧ (s.gate (followerOf 0)).starve = none ∧ (s.compartment (followerOf 0)).settleDone = false) ∧
    (let s := paired .trim .settled fineFeed {}
     s.pair 0 ∧ s.stage 0 = .trim ∧ (s.gate 0).isOpen = true ∧ (s.gate (followerOf 0)).isOpen = false) := by
  unfold State.pair; decide

/-- A TWIN opened in fine feed: its target lies within the fine band, and both gates are open. -/
theorem meets_TwinFeedIsSwitchedAndCutOnTheCombinedMass_fine :
    let s := (paired .fine .feeding fineFeed fineFeed).updateCompartment 0 fun c => { c with effectiveTarget := 500 }
    s.pair 0 ∧ s.stage 0 = .fine ∧ (s.gate 0).isOpen = true ∧ (s.gate (followerOf 0)).isOpen = true
      ∧ (s.compartment 0).effectiveTarget
        ≤ (s.channel 0).delivered + (s.channel (followerOf 0)).delivered + (s.order 0).fineBand := by
  unfold State.pair; decide

theorem meets_SettleEndTrimsOrEnds :
    (let s := opened .settling shutGate
     s.single 0 ∧ s.stage 0 = .settling ∧ (s.compartment 0).noSettle = false ∧ (s.compartment 0).settleDone = false
       ∧ (s.calibration 0).capture = .none ∧ s.hasProfile 0 = true ∧ (s.compartment 0).cause = none
       ∧ (s.channel 0).delivered + (s.order 0).underTol < (s.compartment 0).effectiveTarget
       ∧ (s.compartment 0).trimsUsed < (s.order 0).maxTrims) ∧
    (let s := (paired .settling .settling shutGate shutGate).updateCompartment 0 fun c => { c with settleDone := true }
     s.pair 0 ∧ s.stage 0 = .settling ∧ (s.compartment 0).noSettle = false ∧ (s.calibration 1).capture = .none
       ∧ (s.gate 1).starve = none ∧ (s.gate 1).isOpen = false ∧ (s.compartment 1).settleDone = false
       ∧ (s.context (followerOf 0)).phase = .settling ∧ (s.compartment 0).settleDone = true) := by
  unfold State.pair State.single; decide

theorem meets_CompartmentEndRecordsAndReleases :
    (let s := opened .settling shutGate
     s.memory.wf = true ∧ s.single 0 ∧ (s.context 0).slot = some 7 ∧ (s.compartment 0).index < (s.order 0).count
       ∧ (s.order 0).count ≤ 12 ∧ (s.compartment 0).trimsUsed ≤ 3 ∧ (s.channel 0).delivered ≤ 4294967295
       ∧ (s.compartment 0).cause ≠ some .reset ∧ (s.order 0).mark ≠ .reset ∧ s.willRaise 0 ∧ (s.order 0).mark = .none) ∧
    (let s := (placed 0 .faulted (opened .closing shutGate)).updateOrder 0 fun o => { o with mark := .spoutFault }
     (s.order 0).mark = .spoutFault ∧ s.isFaulted 0 = true ∧ s.queue 0 = [] ∧ (s.context 0).claim = none
       ∧ (s.compartment 0).cause ≠ some .pending) ∧
    (let o : OrderState := { underTol := 20, overTol := 20 }
     o.mark ≠ .reset ∧ -(o.underTol : Int) ≤ (1480 : Int) - 1500 ∧ (o.overTol : Int) < (1521 : Int) - 1500) := by
  unfold State.single State.willRaise; decide

theorem meets_ReleasedSpoutGoesOn :
    (let s := due 0 .spoutRaised true (placed 0 .raising (waiting .releasing))
     s.memory.wf = true ∧ s.changeDue 0 .spoutRaised true ∧ (s.positioner 0).position = .raising
       ∧ (s.positioner 0).engageWaiting = false ∧ s.stage 0 = .releasing ∧ s.single 0 ∧ (s.context 0).slot = some 7
       ∧ s.queue 0 = [] ∧ (s.context 0).claim = none ∧ (s.order 0).count ≤ 12
       ∧ (s.order 0).entries.length = (s.order 0).count ∧ (s.calibration 0).capture = .none ∧ (s.order 0).mark = .none
       ∧ (s.order 0).entries.drop ((s.compartment 0).index + 1) = [] ∧ (s.calibration 0).captureCount = 0
       ∧ (s.calibration 0).captureSum = 0 ∧ (s.calibration 0).zeroTimeout = none) ∧
    (let s := (waiting .releasing).updateOrder 0 fun o => { o with
       count := 2, entries := [{ target := 1500, skip := false }, { target := 400, skip := false }], total := 1500
       watch := .awaitDrop }
     (∀ x ∈ ((s.order 0).entries.drop ((s.compartment 0).index + 1)).take 1, x.skip = false ∧ 0 < x.target)
       ∧ (s.order 0).total < (s.order 0).limit) ∧
    (((waiting .releasing).updateOrder 0 fun o => { o with mark := .ended }).order 0).mark = .ended ∧
    (((waiting .releasing).updateCalibration 0 fun c => { c with capture := .shortSettle }).calibration 0).capture ≠ .none ∧
    (∀ code ∈ (List.range 1).map (((waiting .releasing).writeMemory (Config.slotBase 7 + 0x45) [1]).entryCode 7), code ≠ 0) := by
  unfold State.single State.changeDue; decide

/-- Spout 0 RELEASED after the first of four entries: the second skip-marked, then one to load, then another skip-marked. -/
def stepping (limit : Nat) (watch : IndexWatch) : State :=
  (due 0 .spoutRaised true (placed 0 .raising (waiting .releasing))).updateOrder 0 fun o => { o with
    count := 4, limit := limit, total := 1500, watch := watch
    entries := [{ target := 1500, skip := false }, { target := 500, skip := true }, { target := 400, skip := false },
      { target := 500, skip := true }] }

theorem meets_ReleasedSpoutGoesOn_steps :
    (let s := (stepping 2000 .awaitRise).writeMemory (Config.slotBase 7 + 0x45) [1]
     s.memory.wf = true ∧ s.changeDue 0 .spoutRaised true ∧ (s.positioner 0).position = .raising
       ∧ (s.positioner 0).engageWaiting = false ∧ s.stage 0 = .releasing ∧ s.single 0 ∧ (s.context 0).slot = some 7
       ∧ s.queue 0 = [] ∧ (s.context 0).claim = none ∧ (s.order 0).count ≤ 12
       ∧ (s.order 0).entries.length = (s.order 0).count ∧ (s.compartment 0).index < (s.order 0).count
       ∧ (s.calibration 0).capture = .none ∧ (s.order 0).mark = .none
       ∧ 1 ≤ ((s.order 0).entries.drop 1).length ∧ (∀ x ∈ ((s.order 0).entries.drop 1).take 1, x.skip = true)
       ∧ (∀ x ∈ (((s.order 0).entries.drop 1).drop 1).take 1, x.skip = false ∧ 0 < x.target)
       ∧ (s.order 0).total < (s.order 0).limit
       ∧ ∀ j ∈ List.range (s.order 0).count, s.entryCode 7 j ≠ 0 ∨ (s.compartment 0).index < j) ∧
    ((stepping 2000 .risen).order 0).watch = .risen ∧
    (let s := stepping 1500 .awaitDrop
     (s.order 0).limit ≤ (s.order 0).total) ∧
    (let s := (stepping 2000 .awaitDrop).updateCompartment 0 fun x => { x with index := 2 }
     let later := (s.order 0).entries.drop ((s.compartment 0).index + 1)
     1 = later.length ∧ (∀ x ∈ later.take 1, x.skip = true)) := by
  unfold State.single State.changeDue; decide

/-- A post-settle capture of spout 0, RELEASED already, with a count of samples. -/
def measuring (count : Nat) : State :=
  ((waiting .releasing).updateCompartment 0 fun x => { x with releasedAnswered := true }).updateCalibration 0 fun c =>
    { c with capture := .shortSettle, captureCount := count }

theorem meets_ReleasedSpoutGoesOn_captures :
    (let s := measuring 62
     s.memory.wf = true ∧ s.stage 0 = .releasing ∧ s.single 0 ∧ (s.context 0).slot = some 7 ∧ s.queue 0 = []
       ∧ (s.context 0).claim = none ∧ (s.order 0).count ≤ 12 ∧ (s.compartment 0).releasedAnswered = true
       ∧ (s.gate 0).starve = none ∧ (s.calibration 0).capture = .shortSettle
       ∧ ((440 : Int) - (s.calibration 0).zero).natAbs ≤ (s.calibration 0).profile.zeroBand
       ∧ s.present 0 .gateClosed = true ∧ (s.calibration 0).captureCount + 1 < 64
       ∧ (s.positioner 0).position ≠ .engaged ∧ s.present 0 .spoutRaised = true) ∧
    ¬ ((measuring 63).calibration 0).captureCount + 1 < 64 ∧
    ¬ ((441 : Int) - ((measuring 0).calibration 0).zero).natAbs ≤ ((measuring 0).calibration 0).profile.zeroBand := by
  unfold State.single; decide

/-- A LOAD, a TWIN, a ZERO or a SEED QUEUED in slot 5 at spout 0, whose LOAD waits in WAIT_INDEX. -/
def following (kind : Nat) : State :=
  ((slotWith 5 0 0x10 (u8Bytes 4 ++ u8Bytes 1 ++ u16Bytes 0 ++ u32Bytes 2000) (waiting .waitIndex)).writeMemory
    (Config.slotBase 5 + 0x40) (u32Bytes 1500)).writeMemory (Config.slotBase 5) [2, BitVec.ofNat 8 kind] |>.setQueue 0 [5]

theorem meets_ReleasedSpoutGoesOn_serves :
    (following 1).endsOrder (.indexTimerExpiry 0) 0 7 ∧ (following 3).endsOrder (.indexTimerExpiry 0) 0 7
      ∧ (following 7).endsOrder (.indexTimerExpiry 0) 0 7 :=
  ⟨indexTimerEnds _ _ _ (by decide), indexTimerEnds _ _ _ (by decide), indexTimerEnds _ _ _ (by decide)⟩

theorem meets_ReleasedSpoutGoesOn_serves_rest :
    (let s := following 1
     s.memory.wf = true ∧ (s.context 0).claim = none ∧ (s.queue 0).head? = some 5 ∧ s.slotStateByte 5 = 2 ∧ 7 ∉ s.queue 0
       ∧ s.slotKind 5 = 1 ∧ 1 ≤ s.loadCount 5 ∧ s.slotU8 5 0x44 = 0 ∧ 1 ≤ s.slotU32 5 0x40 ∧ 1 ≤ s.loadLimit 5
       ∧ s.present 0 .indexReady = false) ∧
    ((following 3).slotKind 5 = 3 ∧ (following 3).present 0 .gateClosed = true ∧ (following 7).slotKind 5 = 7
      ∧ ((following 7).queue 0).tail = [] ∧ (taken 0 .gateClosed false (following 3)).present 0 .gateClosed = false) ∧
    (let s := (following 2).updateContext 1 fun c => { c with stage := .waitIndex, slot := some 8 }
     s.slotKind 5 = 2 ∧ s.isFaulted (followerOf 0) = false ∧ s.stage (followerOf 0) ≠ .idle
       ∧ s.isBound (followerOf 0) = false) := by decide

theorem meets_TwinInterlocksFaultsAndStops :
    (let s := paired .coarse .feeding fineFeed fineFeed
     s.pair 0 ∧ (s.stage 0).isOpen = true ∧ (s.gate 0).isOpen = true
       ∧ (s.order 0).mark ≠ .reset ∧ s.isFaulted 1 = false ∧ (s.receiver 1).link = .present
       ∧ (s.receiver 1).silence.isSome = true ∧ (s.context 0).claim = none ∧ (s.gate (followerOf 0)).isOpen = true) ∧
    (let s := due 1 .gateClosed true (placed 1 .faulted ((paired .closing .closing shutGate closingGate).updateCompartment 0
       fun c => { c with noSettle := true }))
     s.pair 0 ∧ s.stage 0 = .closing ∧ (s.compartment 0).noSettle = true ∧ (s.order 0).mark ≠ .reset
       ∧ s.changeDue 1 .gateClosed true ∧ (s.gate 1).output = .close ∧ (s.gate 1).retry = none ∧ (s.gate 1).failed = false
       ∧ (s.context 1).phase = .closing ∧ s.isFaulted 1 = true) := by
  unfold State.pair State.changeDue; decide

theorem meets_TwinInterlocksFaultsAndStops_events :
    (paired .coarse .feeding fineFeed fineFeed).cutEvent (.inputChange 1 .permit false) 1 .permitLost := .inl (by decide)

theorem meets_TwinInterlocksFaultsAndStops_stops :
    (stopSlot (paired .coarse .feeding fineFeed fineFeed)).stopsOrder (.stop 3) 0 7
      ∧ (stopSlot (paired .settling .settled shutGate {})).stopsOrder (.stop 3) 0 7
      ∧ (stopSlot (paired .engaging .engaging {} {})).stopsOrder (.stop 3) 0 7
      ∧ (stopSlot pairAtRest).stopsOrder (.stop 3) 0 7 ∧ pairAtRest.stopsOrder .allStop 0 7 :=
  ⟨stopsSlotSeven _ (by decide), stopsSlotSeven _ (by decide), stopsSlotSeven _ (by decide), stopsSlotSeven _ (by decide),
    allStopsSlotSeven _ (by decide)⟩

theorem meets_TwinInterlocksFaultsAndStops_rest :
    (let s := stopSlot (paired .engaging .engaging {} {})
     s.pair 0 ∧ s.willRaise 0 ∧ s.willRaise (followerOf 0) ∧ (s.order 0).mark = .none ∧ (s.order 0).stopTaken = false) ∧
    (let s := stopSlot pairAtRest
     s.memory.wf = true ∧ s.pair 0 ∧ (s.order 0).count ≤ 12 ∧ s.queue 0 = [] ∧ s.queue (followerOf 0) = []
       ∧ (s.context 0).claim = none) := by
  unfold State.pair State.willRaise; decide

/-- A ZERO QUEUED in slot 5 at a spout of the pair, whose leader waits for its hatch. -/
def pairWithQueue (i : SpoutId) : State := (pairAtRest.writeMemory (Config.slotBase 5) [2, 3]).setQueue i [5]

theorem meets_TwinInterlocksFaultsAndStops_queue :
    (stopSlot (pairWithQueue 0)).stopsOrder (.stop 3) 0 7 ∧ (stopSlot (pairWithQueue 1)).stopsOrder (.stop 3) 0 7 :=
  ⟨stopsSlotSeven _ (by decide), stopsSlotSeven _ (by decide)⟩

theorem meets_TwinInterlocksFaultsAndStops_queue_rest :
    (let s := stopSlot (pairWithQueue 0)
     s.memory.wf = true ∧ s.pair 0 ∧ (s.order 0).mark = .none ∧ (s.order 0).stopTaken = false ∧ s.stage 0 = .waitIndex
       ∧ (s.order 0).count ≤ 12 ∧ (s.context 0).claim = none ∧ s.slotStateByte 5 = 2 ∧ s.queue (followerOf 0) = []
       ∧ (s.queue 0).head? = some 5 ∧ s.slotKind 5 = 3 ∧ s.present 0 .gateClosed = true) ∧
    (let s := stopSlot (pairWithQueue 1)
     s.queue 0 = [] ∧ (s.queue (followerOf 0)).head? = some 5 ∧ (∀ q ∈ s.queue (followerOf 0), s.slotKind q ≠ 2)
       ∧ ∀ q ∈ s.queue 0 ++ s.queue (followerOf 0), q ≠ 7) ∧
    (let s := ((slotWith 5 0 0x10 (u8Bytes 4 ++ u8Bytes 1 ++ u16Bytes 0 ++ u32Bytes 2000) (stopSlot (pairWithQueue 0))).writeMemory
       (Config.slotBase 5 + 0x40) (u32Bytes 1500)).writeMemory (Config.slotBase 5) [2, 2]
     let s := taken 0 .indexReady false s
     s.slotKind 5 = 2 ∧ s.queue (followerOf 0) = [] ∧ 1 ≤ s.loadCount 5 ∧ s.slotU8 5 0x44 = 0 ∧ 1 ≤ s.slotU32 5 0x40
       ∧ 1 ≤ s.loadLimit 5 ∧ s.isFaulted (followerOf 0) = false ∧ s.present 0 .indexReady = false) := by
  unfold State.pair; decide

theorem meets_TwinUnderSoftReset :
    (let s := paired .settling .closing shutGate closingGate
     s.port.exchange = .running ∧ s.pair 0 ∧ (s.context 0).slot = some 7 ∧ s.stage 0 = .settling
       ∧ (s.context (followerOf 0)).phase = .closing) ∧
    (let s := paired .settling .settled shutGate {}
     s.pair 0 ∧ (s.context (followerOf 0)).phase = .settled ∧ (s.compartment 0).opened = true
       ∧ (s.compartment 0).trimsUsed ≤ 3 ∧ (s.channel 0).delivered + (s.channel (followerOf 0)).delivered ≤ 4294967295) ∧
    (let s := (paired .closing .closing closingGate closingGate).updateCompartment 0 fun c => { c with closeAwaited := true }
     s.pair 0 ∧ s.stage 0 = .closing ∧ (s.compartment 0).closeAwaited = true) ∧
    (pairAtRest.stage 0 = .waitIndex ∧ ((paired .fine .settled fineFeed {}).stage 0).isOpen = true) := by
  unfold State.pair; decide

theorem meets_TwinUnderSoftReset_closes :
    let s := (due 0 .gateClosed true (due 1 .gateClosed true (paired .closing .closing closingGate closingGate))).updateOrder 0
      fun o => { o with mark := .reset }
    s.isTwin 0 = true ∧ s.isBound 0 = false ∧ (s.order 0).mark = .reset ∧ s.changeDue 0 .gateClosed true
      ∧ s.changeDue 1 .gateClosed true ∧ (s.gate 0).output = .close ∧ (s.gate 1).output = .close ∧ (s.gate 1).retry = none
      ∧ (s.gate 1).failed = false ∧ s.stage 0 = .closing ∧ s.isBound 1 = true ∧ (s.context 1).phase = .closing := by
  unfold State.changeDue; decide

theorem meets_TwinUnderSoftReset_waits :
    let s := (opened .settling shutGate).updateCompartment 0 fun c => { c with noSettle := true }
    s.isBound 0 = false ∧ s.stage 0 = .settling ∧ (s.compartment 0).noSettle = true ∧ (s.calibration 0).capture = .none
      ∧ (s.gate 0).starve = none := by decide

theorem meets_TwinUnderSoftReset_notAwaited :
    (let s := paired .closing .closing shutGate closingGate
     s.pair 0 ∧ s.stage 0 = .closing ∧ (s.compartment 0).closeAwaited = false ∧ (s.context (followerOf 0)).phase = .closing) ∧
    (let s := paired .closing .settled shutGate shutGate
     s.pair 0 ∧ s.stage 0 = .closing ∧ (s.context (followerOf 0)).phase ≠ .closing ∧ (s.compartment 0).opened = true) := by
  unfold State.pair; decide

theorem meets_QualifyingRecordIsLearned :
    let v : HoldValues := { deliveredAtCut := 100, rateAtCut := 3000, lagUsed := 1200 }
    let r : CutRecord := { spout := 7, product := 15, slot := 31, effectiveTarget := 1500, final := 1510, code := .ok, hold := some v
                           closeRetried := false, stopPending := false, levelAfterCut := false, trimsUsed := 0, settled := true
                           offset := 120, gain := 4, maxStep := 200, minRate := 3000 }
    r.hold = some v ∧ r.qualifies v = true := by decide

theorem meets_QualifyingRecordIsLearned_discarded :
    let v : HoldValues := { deliveredAtCut := 100, rateAtCut := 2999, lagUsed := 1200 }
    let r : CutRecord := { spout := 7, product := 15, slot := 31, effectiveTarget := 1500, final := 1510, code := .level, hold := some v
                           closeRetried := false, stopPending := false, levelAfterCut := true, trimsUsed := 0, settled := true
                           offset := 120, gain := 4, maxStep := 200, minRate := 3000 }
    r.hold = some v ∧ r.qualifies v = false ∧ r.qualifies { v with rateAtCut := 3000 } = true
      ∧ ({ r with hold := none } : CutRecord).hold = none := by decide

theorem meets_CapturesSetTheZero :
    (let c := { calibrated with capture := .shortSettle, captureCount := 63 }
     c.capture = .shortSettle ∧ c.captureCount = 63 ∧ ((440 : Int) - c.zero).natAbs ≤ c.profile.zeroBand
       ∧ ¬ ((441 : Int) - c.zero).natAbs ≤ c.profile.zeroBand) ∧
    (let s := resting.updateCalibration 0 fun c => { c with capture := .shortInterval, captureCount := 63 }
     s.stage 0 = .idle ∧ (s.gate 0).starve = none ∧ (s.calibration 0).capture = .shortInterval) ∧
    (let s := (waiting .zeroRun).updateCalibration 0 fun c =>
       { c with capture := .longOrder, captureCount := 1023, captureSum := 409200, zeroTimeout := some 20000 }
     s.memory.wf = true ∧ s.stage 0 = .zeroRun ∧ s.single 0 ∧ (s.context 0).slot = some 7 ∧ s.queue 0 = []
       ∧ (s.context 0).claim = none ∧ s.hasProfile 0 = true ∧ (s.gate 0).starve = none
       ∧ (s.calibration 0).capture = .longOrder ∧ (s.calibration 0).captureCount = 1023
       ∧ ((440 : Int) - (s.calibration 0).zero).natAbs ≤ (s.profile 0).zeroBand ∧ s.present 0 .gateClosed = true) := by
  unfold State.single; decide

theorem meets_CapturesSetTheZero_lawful :
    ({ calibrated with capture := .longOrder, captureCount := 1023, captureSum := 409200, zeroTimeout := some 20000 }
      : Calibration).Lawful :=
  ⟨by decide, by decide, by decide, by decide, by decide, by decide, by decide, by decide⟩

/-! ### The laws -/

/-- Every input of every spout has had its initial taking. -/
def withInputsTaken (s : State) : State :=
  [(0 : SpoutId), 1, 2, 3, 4, 5, 6, 7].foldl
    (fun t i => [InputName.gateOpen, .spoutLowered, .levelHigh, .indexReady, .permit].foldl
      (fun t n => t.updateField i fun g => g.setLine n { g.line n with initiallyTaken := true }) t) s

/-- A part at work: a TWIN settles on spouts 0 and 1, a ZERO waits at spout 2. -/
def atWork : State :=
  let s := ((paired .settling .settling shutGate shutGate).setQueue 2 [31]).writeMemory (Config.slotBase 31) [2, 3, 2]
  { withInputsTaken s with pending := [.panelTimerExpiry 0] }

/-- A LOAD settles on spout 0. -/
def settlingAlone : State := withInputsTaken (opened .settling shutGate)

/-- Nothing runs, and a ZERO waits at spout 0. -/
def waitingZero : State := withInputsTaken queued

theorem meets_lawful_atWork : atWork.Lawful where
  memory := by decide
  port := ⟨by decide, by decide, by decide, by decide, by decide⟩
  receiver i := ⟨by revert i; decide, by revert i; decide, by revert i; decide, by revert i; decide,
    fun c => (by decide : ∀ i, ∀ c ∈ (atWork.receiver i).assembly.head?, c = 0xA5) i c, by revert i; decide⟩
  channel i := ⟨by revert i; decide, by revert i; decide, by revert i; decide, by revert i; decide, by revert i; decide,
    by revert i; decide, by revert i; decide⟩
  window i := by unfold State.WindowLawful; revert i; decide
  calibration i := ⟨by revert i; decide, by revert i; decide, by revert i; decide, by revert i; decide, by revert i; decide,
    by revert i; decide, by revert i; decide, by revert i; decide⟩
  positioner i := ⟨by revert i; decide, by revert i; decide, by revert i; decide, by revert i; decide, by revert i; decide⟩
  preact e := ⟨by revert e; decide, by revert e; decide, by revert e; decide⟩

theorem meets_workLawful_atWork : atWork.WorkLawful where
  memory := by decide
  slots := ⟨by decide, by decide, by decide, by decide, by decide, by decide, by decide, by decide⟩
  contexts := ⟨by decide, by decide, by decide, by decide, by decide, by decide, by decide,
    fun i c => (by decide : ∀ i, ∀ c ∈ (atWork.context i).claim, i.val % 2 = 1 ∧ c.leader = leaderOf i
      ∧ ((atWork.isTwin (leaderOf i) = true ∧ (atWork.context (leaderOf i)).slot = some c.slot)
        ∨ (atWork.isBound i = true ∧ atWork.stage (leaderOf i) = .idle ∧ atWork.port.exchange = .resetting))) i c,
    by decide, by decide, by decide, by decide⟩
  gates := ⟨by unfold State.mayFeed State.compartmentOpen; decide, by unfold State.mayFeed; decide,
    by unfold State.mayFeed; decide, by decide, by decide, by decide, by decide, by decide, by decide, by decide, by decide⟩

theorem meets_workLawful_settlingAlone : settlingAlone.WorkLawful where
  memory := by decide
  slots := ⟨by decide, by decide, by decide, by decide, by decide, by decide, by decide, by decide⟩
  contexts := ⟨by decide, by decide, by decide, by decide, by decide, by decide, by decide,
    fun i c => (by decide : ∀ i, ∀ c ∈ (settlingAlone.context i).claim, i.val % 2 = 1 ∧ c.leader = leaderOf i
      ∧ ((settlingAlone.isTwin (leaderOf i) = true ∧ (settlingAlone.context (leaderOf i)).slot = some c.slot)
        ∨ (settlingAlone.isBound i = true ∧ settlingAlone.stage (leaderOf i) = .idle ∧ settlingAlone.port.exchange = .resetting))) i c,
    by decide, by decide, by decide, by decide⟩
  gates := ⟨by unfold State.mayFeed State.compartmentOpen; decide, by unfold State.mayFeed; decide,
    by unfold State.mayFeed; decide, by decide, by decide, by decide, by decide, by decide, by decide, by decide, by decide⟩

theorem meets_workLawful_waitingZero : waitingZero.WorkLawful where
  memory := by decide
  slots := ⟨by decide, by decide, by decide, by decide, by decide, by decide, by decide, by decide⟩
  contexts := ⟨by decide, by decide, by decide, by decide, by decide, by decide, by decide,
    fun i c => (by decide : ∀ i, ∀ c ∈ (waitingZero.context i).claim, i.val % 2 = 1 ∧ c.leader = leaderOf i
      ∧ ((waitingZero.isTwin (leaderOf i) = true ∧ (waitingZero.context (leaderOf i)).slot = some c.slot)
        ∨ (waitingZero.isBound i = true ∧ waitingZero.stage (leaderOf i) = .idle ∧ waitingZero.port.exchange = .resetting))) i c,
    by decide, by decide, by decide, by decide⟩
  gates := ⟨by unfold State.mayFeed State.compartmentOpen; decide, by unfold State.mayFeed; decide,
    by unfold State.mayFeed; decide, by decide, by decide, by decide, by decide, by decide, by decide, by decide, by decide⟩

/-- A TWIN's claim is pending on a spout at work, with a STOP of the TWIN in slot 3. -/
def claimPending : State := stopSlot (withInputsTaken claiming)

theorem meets_workLawful_claimPending : claimPending.WorkLawful where
  memory := by decide
  slots := ⟨by decide, by decide, by decide, by decide, by decide, by decide, by decide, by decide⟩
  contexts := ⟨by decide, by decide, by decide, by decide, by decide, by decide, by decide,
    fun i c => (by decide : ∀ i, ∀ c ∈ (claimPending.context i).claim, i.val % 2 = 1 ∧ c.leader = leaderOf i
      ∧ ((claimPending.isTwin (leaderOf i) = true ∧ (claimPending.context (leaderOf i)).slot = some c.slot)
        ∨ (claimPending.isBound i = true ∧ claimPending.stage (leaderOf i) = .idle
          ∧ claimPending.port.exchange = .resetting))) i c,
    by decide, by decide, by decide, by decide⟩
  gates := ⟨by unfold State.mayFeed State.compartmentOpen; decide, by unfold State.mayFeed; decide,
    by unfold State.mayFeed; decide, by decide, by decide, by decide, by decide, by decide, by decide, by decide, by decide⟩

theorem meets_TwinInterlocksFaultsAndStops_pending :
    claimPending.stopsOrder (.stop 3) 0 7 := stopsSlotSeven _ (by decide)

theorem meets_TwinInterlocksFaultsAndStops_pending_rest :
    claimPending.port.exchange = .running ∧ claimPending.claimPending 0 = true ∧ (claimPending.context 0).slot = some 7
      ∧ claimPending.stage 0 = .waitIndex ∧ claimPending.queue 0 = [] ∧ (claimPending.order 0).stopTaken = false
      ∧ (claimPending.order 0).mark = .none ∧ claimPending.stage (followerOf 0) ≠ .idle
      ∧ ∀ m, m = 0 ∨ m = followerOf 0 → claimPending.isFaulted m = false ∧ (claimPending.receiver m).link = .present
        ∧ (claimPending.receiver m).silence.isSome = true := by decide

theorem meets_settingsLawful_atWork : atWork.SettingsLawful :=
  ⟨by decide, by decide, by decide, by decide, by decide⟩

theorem meets_stepKeeps : ∃ t, step atWork = .next t := ⟨_, rfl⟩

theorem meets_SoftResetReachesEachContext_settling :
    let s := settlingAlone
    s.port.exchange = .running ∧ s.single 0 ∧ s.stage 0 = .settling ∧ (s.context 0).slot = some 7
      ∧ (s.compartment 0).opened = true ∧ (s.compartment 0).trimsUsed ≤ 3 ∧ (s.channel 0).delivered ≤ 4294967295 := by
  unfold State.single; decide

/-- A LOAD waits for its hatch on spout 0, or zeroes there. -/
def waitingAlone : State := withInputsTaken (waiting .waitIndex)
def zeroingAlone : State := withInputsTaken zeroing

theorem meets_workLawful_zeroingAlone : zeroingAlone.WorkLawful where
  memory := by decide
  slots := ⟨by decide, by decide, by decide, by decide, by decide, by decide, by decide, by decide⟩
  contexts := ⟨by decide, by decide, by decide, by decide, by decide, by decide, by decide,
    fun i c => (by decide : ∀ i, ∀ c ∈ (zeroingAlone.context i).claim, i.val % 2 = 1 ∧ c.leader = leaderOf i
      ∧ ((zeroingAlone.isTwin (leaderOf i) = true ∧ (zeroingAlone.context (leaderOf i)).slot = some c.slot)
        ∨ (zeroingAlone.isBound i = true ∧ zeroingAlone.stage (leaderOf i) = .idle
          ∧ zeroingAlone.port.exchange = .resetting))) i c,
    by decide, by decide, by decide, by decide⟩
  gates := ⟨by unfold State.mayFeed State.compartmentOpen; decide, by unfold State.mayFeed; decide,
    by unfold State.mayFeed; decide, by decide, by decide, by decide, by decide, by decide, by decide, by decide, by decide⟩

theorem meets_workLawful_waitingAlone : waitingAlone.WorkLawful where
  memory := by decide
  slots := ⟨by decide, by decide, by decide, by decide, by decide, by decide, by decide, by decide⟩
  contexts := ⟨by decide, by decide, by decide, by decide, by decide, by decide, by decide,
    fun i c => (by decide : ∀ i, ∀ c ∈ (waitingAlone.context i).claim, i.val % 2 = 1 ∧ c.leader = leaderOf i
      ∧ ((waitingAlone.isTwin (leaderOf i) = true ∧ (waitingAlone.context (leaderOf i)).slot = some c.slot)
        ∨ (waitingAlone.isBound i = true ∧ waitingAlone.stage (leaderOf i) = .idle
          ∧ waitingAlone.port.exchange = .resetting))) i c,
    by decide, by decide, by decide, by decide⟩
  gates := ⟨by unfold State.mayFeed State.compartmentOpen; decide, by unfold State.mayFeed; decide,
    by unfold State.mayFeed; decide, by decide, by decide, by decide, by decide, by decide, by decide, by decide, by decide⟩

theorem meets_SoftResetReachesEachContext_unopened :
    (zeroingAlone.port.exchange = .running ∧ zeroingAlone.single 0 ∧ zeroingAlone.stage 0 = .zeroing
      ∧ (zeroingAlone.context 0).slot = some 7 ∧ (zeroingAlone.compartment 0).index < (zeroingAlone.order 0).count) ∧
    (waitingAlone.port.exchange = .running ∧ waitingAlone.single 0 ∧ waitingAlone.stage 0 = .waitIndex
      ∧ (waitingAlone.context 0).slot = some 7) := by
  unfold State.single; decide

/-- R98: a soft reset that abandons a blocking capture leaves code RESET; R117: one that meets WAIT_INDEX leaves NOT_REACHED. -/
theorem test_softReset_entryCodes :
    (softResetContext 0 zeroingAlone).entryCode 7 0 = 16 ∧ (softResetContext 0 zeroingAlone).slotU8 7 3 = 7
      ∧ (softResetContext 0 waitingAlone).entryCode 7 0 = 21 := by decide

theorem meets_AllStopEmptiesEveryQueue_queued :
    waitingZero.port.exchange = .running ∧ (∀ j, (waitingZero.context j).slot = none) ∧ 31 ∈ waitingZero.queue 0 := by decide

theorem meets_TwinUnderSoftReset_atWork :
    atWork.port.exchange = .running ∧ atWork.pair 0 ∧ (atWork.context 0).slot = some 7 ∧ atWork.stage 0 = .settling
      ∧ (atWork.context (followerOf 0)).phase = .settling := by
  unfold State.pair; decide

/-- A TWIN zeroes on both spouts. -/
theorem meets_TwinUnderSoftReset_zeroing :
    let s := paired .zeroing .zeroing {} {}
    s.port.exchange = .running ∧ s.pair 0 ∧ (s.context 0).slot = some 7 ∧ s.stage 0 = .zeroing
      ∧ (s.compartment 0).index < (s.order 0).count ∧ (s.context (followerOf 0)).phase ≠ .closing := by
  unfold State.pair; decide

theorem meets_HaltedUntilReset :
    ({ running with port := { exchange := .halted, halted := true } } : State).port.exchange = .halted
      ∧ Instr.attentionRead ≠ .powerOn ∧ Instr.attentionRead ≠ .hardReset := by decide

theorem meets_LinesAndTimersLeaveTheProducts :
    fromLines (.panelTimerExpiry 7) = true ∧ failedGate.isFaulted 7 = true := by decide

end Sys2Proof.Tests
end

/-! Channels and calibrations under a step (R6, R7, R11, R15; R81, R82, R87, R95): each law is a property of one spout, and every
small update of `KeptAll` keeps it. -/

namespace Sys2Proof.Machine

/-! ## One spout's blocks under a step -/

/-- What every step keeps of a spout's channel and calibration, for a property of the one spout. -/
structure SpoutKept (Q : Spout → Prop) : Prop where
  fresh : Q {}
  /-- The property reads the channel and the calibration alone. -/
  elsewhere : ∀ p q : Spout, q.channel = p.channel → q.calibration = p.calibration → Q p → Q q
  channel : ∀ (p : Spout) c, ChannelStep p.channel c ∨ c = {} → Q p → Q { p with channel := c }
  calibration : ∀ (p : Spout) c, CalibrationStep p.calibration c → Q p → Q { p with calibration := c }
  softReset : ∀ p : Spout, Q p → Q { p with calibration := p.calibration.softReset }
  fullDebt : ∀ p : Spout, Q p → Q { p with calibration := { p.calibration with debt := Config.fullDebt } }
  sampled : ∀ (s : State) i x, Q (s.spout i) → Q ((s.spout i).sample x (s.sampleSettings i))
  profile : ∀ (p : Spout) (m : Memory) a, Q p → Q (p.applyProfile (m.profileAt a))

theorem forall_spout_updateSpout {Q : Spout → Prop} {s : State} (h : ∀ j, Q (s.spout j)) (i : SpoutId)
    {f : Spout → Spout} (hf : Q (f (s.spout i))) (j : SpoutId) : Q ((s.updateSpout i f).spout j) := by
  rw [State.spout_updateSpout]; split
  · exact hf
  · exact h j

namespace SpoutKept

variable {Q : Spout → Prop} (h : SpoutKept Q)
include h

theorem updateElsewhere {s : State} (hs : ∀ i, Q (s.spout i)) (i : SpoutId) {f : Spout → Spout}
    (hf : ∀ p, (f p).channel = p.channel ∧ (f p).calibration = p.calibration) (j : SpoutId) :
    Q ((s.updateSpout i f).spout j) :=
  forall_spout_updateSpout hs i (h.elsewhere _ _ (hf _).1 (hf _).2 (hs i)) j

theorem keptAll : KeptAll fun s => ∀ i, Q (s.spout i) where
  memory _ _ _ hs := hs
  done _ hs := hs
  spoutChange _ hs := hs
  channel _ i _ hf hs := forall_spout_updateSpout hs i (h.channel _ _ (.inl hf) (hs i))
  calibration _ i _ hf hs := forall_spout_updateSpout hs i (h.calibration _ _ hf (hs i))
  positioner _ i _ _ hs := h.updateElsewhere hs i fun _ => ⟨rfl, rfl⟩
  context _ i _ hs := h.updateElsewhere hs i fun _ => ⟨rfl, rfl⟩
  queue _ i _ _ hs := h.updateElsewhere hs i fun _ => ⟨rfl, rfl⟩
  preact _ _ _ _ hs := hs
  freeCount _ hs := hs
  sampled s i x hs := forall_spout_updateSpout hs i (h.sampled s i x (hs i))
  profile _ i m a hs := forall_spout_updateSpout hs i (h.profile _ m a (hs i))
  fault i _ _ _ hs := h.updateElsewhere hs i fun _ => ⟨rfl, rfl⟩
  receiver _ i _ _ hs := h.updateElsewhere hs i fun _ => ⟨rfl, rfl⟩
  field _ i _ hs := h.updateElsewhere hs i fun _ => ⟨rfl, rfl⟩
  panelTimer _ i _ hs := h.updateElsewhere hs i fun _ => ⟨rfl, rfl⟩
  join _ i _ _ hs := h.updateElsewhere hs i fun _ => ⟨rfl, rfl⟩
  products _ _ _ hs := hs
  table _ _ _ _ hs := hs
  clearFault _ i _ hs := h.updateElsewhere hs i fun _ => ⟨rfl, rfl⟩
  fullDebt _ i hs := forall_spout_updateSpout hs i (h.fullDebt _ (hs i))
  port _ _ _ hs := hs
  channelReset _ i hs := forall_spout_updateSpout hs i (h.channel _ _ (.inr rfl) (hs i))
  calibrationReset _ i hs := forall_spout_updateSpout hs i (h.softReset _ (hs i))
  clearMemory _ hs := hs

theorem fullReset (s : State) (i : SpoutId) : Q ((fullReset s).spout i) := by
  have : (Machine.fullReset s).spout i = {} := by simp [Machine.fullReset, State.reset, State.spout]
  rw [this]; exact h.fresh

/-- Every step keeps the property of every spout. -/
theorem step {s t : State} (hs : ∀ i, Q (s.spout i)) (e : step s = .next t) : ∀ i, Q (t.spout i) :=
  h.keptAll.step (fun s _ => h.fullReset s) (fun _ _ hs => hs) hs e

end SpoutKept

/-! ## What a sample makes of a channel -/

theorem Channel.integrate_frame (c : Channel) (mg : Nat) : c.integrate mg = { c with
    delivered := (c.integrate mg).delivered, remainder := (c.integrate mg).remainder } := by
  unfold Channel.integrate; split <;> rfl

theorem Channel.push_frame (c : Channel) (size mg : Nat) : c.push size mg = { c with
    window := (c.push size mg).window, windowSum := (c.push size mg).windowSum
    fillCount := (c.push size mg).fillCount } := by
  unfold Channel.push; split <;> rfl

theorem Channel.updateSurge_frame (c : Channel) (p : Profile) (overRange : Bool) :
    c.updateSurge p overRange = { c with surgeRun := (c.updateSurge p overRange).surgeRun } := by
  unfold Channel.updateSurge; split <;> rfl

theorem Channel.updateLeak_frame (c : Channel) (p : Profile) (net : Int) (span : Nat) :
    c.updateLeak p net span = { c with
      leakTotal := (c.updateLeak p net span).leakTotal, leakRemainder := (c.updateLeak p net span).leakRemainder
      leak := (c.updateLeak p net span).leak } := by
  unfold Channel.updateLeak; split <;> rfl

/-- R3: a sample's increment. -/
def SampleSettings.milligrams (g : SampleSettings) (x : Sample) : Nat := increment (x.raw - g.zero) g.creepBand g.span

/-- R1: a channel after a sample's integration, its window and its rate, before the surge test and the leak monitor. -/
def Channel.metered (x : Sample) (g : SampleSettings) (c : Channel) : Channel :=
  ((c.integrate (g.milligrams x)).push g.windowSize (g.milligrams x)).updateRate

theorem Channel.metered_frame (c : Channel) (x : Sample) (g : SampleSettings) : c.metered x g = { c with
    delivered := (c.integrate (g.milligrams x)).delivered, remainder := (c.integrate (g.milligrams x)).remainder
    window := (c.metered x g).window, windowSum := (c.metered x g).windowSum, fillCount := (c.metered x g).fillCount
    rate := (c.metered x g).rate } := by
  unfold Channel.metered
  rw [Channel.push_frame, Channel.integrate_frame]; rfl

theorem Channel.process_unprofiled {g : SampleSettings} (hg : g.profile = none) (c : Channel) (x : Sample) :
    c.process x g = c.metered x g := by
  unfold Channel.process; dsimp only; rw [hg]; rfl

theorem Channel.process_watched {g : SampleSettings} {p : Profile} (hg : g.profile = some p) (hl : g.leakActive = true)
    (c : Channel) (x : Sample) :
    c.process x g = ((c.metered x g).updateSurge p x.overRange).updateLeak p (x.raw - g.zero) g.span := by
  unfold Channel.process; dsimp only; rw [hg, hl]; rfl

theorem Channel.process_unwatched {g : SampleSettings} {p : Profile} (hg : g.profile = some p) (hl : g.leakActive = false)
    (c : Channel) (x : Sample) : c.process x g = (c.metered x g).updateSurge p x.overRange := by
  unfold Channel.process; dsimp only; rw [hg, hl]; rfl

/-- The surge test and the leak monitor leave integration, window and rate alone. -/
theorem Channel.process_frame (c : Channel) (x : Sample) (g : SampleSettings) : c.process x g = { c.metered x g with
    surgeRun := (c.process x g).surgeRun, leakTotal := (c.process x g).leakTotal
    leakRemainder := (c.process x g).leakRemainder, leak := (c.process x g).leak } := by
  cases hg : g.profile with
  | none => rw [Channel.process_unprofiled hg]
  | some p =>
    cases hl : g.leakActive with
    | false => rw [Channel.process_unwatched hg hl, Channel.updateSurge_frame]
    | true => rw [Channel.process_watched hg hl, Channel.updateLeak_frame, Channel.updateSurge_frame]

theorem Channel.window_process (c : Channel) (x : Sample) (g : SampleSettings) :
    (c.process x g).window = ((c.integrate (g.milligrams x)).push g.windowSize (g.milligrams x)).window :=
  (congrArg Channel.window (c.process_frame x g) :)

theorem Channel.window_integrate (c : Channel) (mg : Nat) : (c.integrate mg).window = c.window :=
  (congrArg Channel.window (c.integrate_frame mg) :)

/-! ## A lawful channel -/

namespace Channel.Lawful

variable {c : Channel}

theorem fresh : ({} : Channel).Lawful := by constructor <;> decide

theorem restartWindow (h : c.Lawful) : c.restartWindow.Lawful where
  remainder := h.remainder
  delivered := h.delivered
  windowSum := rfl
  fillCount := rfl
  surgeRun := Nat.zero_le _
  leakRemainder := h.leakRemainder
  leakTotal := h.leakTotal

theorem startCompartment (c : Channel) : c.startCompartment.Lawful where
  remainder := Nat.zero_le _
  delivered := Nat.zero_le _
  windowSum := rfl
  fillCount := rfl
  surgeRun := Nat.zero_le _
  leakRemainder := Nat.zero_le _
  leakTotal := Nat.zero_le _

theorem endCompartment (h : c.Lawful) : c.endCompartment.Lawful := { h with }

theorem of_step (h : c.Lawful) {d : Channel} (hd : ChannelStep c d) : d.Lawful := by
  cases hd with
  | restart => exact h.restartWindow
  | start => exact Lawful.startCompartment c
  | finish => exact h.endCompartment

theorem integrate (h : c.Lawful) (mg : Nat) : (c.integrate mg).Lawful := by
  unfold Channel.integrate; split
  · exact { h with
      remainder := Nat.le_of_lt_succ (Nat.mod_lt _ (by decide))
      delivered := Nat.min_le_right _ _ }
  · exact h

theorem push (h : c.Lawful) (size mg : Nat) : (c.push size mg).Lawful := by
  have hsum := h.windowSum
  have hfill := h.fillCount
  unfold Channel.push; split
  · exact { h with windowSum := by simp [hsum], fillCount := by simp [hfill] }
  · refine { h with windowSum := ?_, fillCount := by simp [hfill] }
    cases hw : c.window with
    | nil => simp [hsum, hw]
    | cons w ws => simp [hsum, hw]; omega

theorem updateRate (h : c.Lawful) : c.updateRate.Lawful := { h with }

theorem updateSurge (h : c.Lawful) (p : Profile) (overRange : Bool) : (c.updateSurge p overRange).Lawful := by
  unfold Channel.updateSurge; split
  · exact { h with surgeRun := Nat.min_le_right _ _ }
  · exact { h with surgeRun := Nat.zero_le _ }

theorem updateLeak (h : c.Lawful) (p : Profile) (net : Int) (span : Nat) : (c.updateLeak p net span).Lawful := by
  unfold Channel.updateLeak; split
  · exact h
  · exact { h with
      leakRemainder := Nat.le_of_lt_succ (Nat.mod_lt _ (by decide))
      leakTotal := Nat.min_le_right _ _ }

theorem process (h : c.Lawful) (x : Sample) (g : SampleSettings) : (c.process x g).Lawful := by
  have hr : (c.metered x g).Lawful := ((h.integrate _).push _ _).updateRate
  cases hg : g.profile with
  | none => rw [process_unprofiled hg]; exact hr
  | some p =>
    cases hl : g.leakActive with
    | false => rw [process_unwatched hg hl]; exact hr.updateSurge _ _
    | true => rw [process_watched hg hl]; exact (hr.updateSurge _ _).updateLeak _ _ _

end Channel.Lawful

theorem Channel.Lawful.spoutKept : SpoutKept fun p => p.channel.Lawful where
  fresh := .fresh
  elsewhere _ _ hc _ h := by rw [hc]; exact h
  channel _ _ hc h := by
    obtain hc | rfl := hc
    · exact h.of_step hc
    · exact .fresh
  calibration _ _ _ h := h
  softReset _ h := h
  fullDebt _ h := h
  sampled _ _ x h := h.process x _
  profile _ _ _ h := h.restartWindow

/-! ## A channel's window -/

/-- R4: W of a valid profile, or 16 without one. -/
def Calibration.windowSize (c : Calibration) : Nat := if c.profileValid then c.profile.window else Config.defaultWindow

theorem CalibrationStep.profile_eq {c d : Calibration} (h : CalibrationStep c d) :
    d.profile = c.profile ∧ d.profileValid = c.profileValid := by
  cases h with
  | sample raw zero closed =>
    unfold Calibration.captureSample; dsimp only; split_ifs <;> exact ⟨rfl, rfl⟩
  | _ => exact ⟨rfl, rfl⟩


theorem windowSize_eq_of_step {c d : Calibration} (h : CalibrationStep c d) : d.windowSize = c.windowSize := by
  obtain ⟨hp, hv⟩ := h.profile_eq
  simp [Calibration.windowSize, hp, hv]

theorem length_window_push {c : Channel} (h : c.Lawful) {size : Nat} (hw : c.window.length ≤ size) (mg : Nat) :
    (c.push size mg).window.length ≤ size := by
  have hfill := h.fillCount
  unfold Channel.push; split
  · simp only [List.length_append, List.length_singleton]; omega
  · simpa using hw

theorem length_window_process {c : Channel} (h : c.Lawful) (x : Sample) {g : SampleSettings}
    (hw : c.window.length ≤ g.windowSize) : (c.process x g).window.length ≤ g.windowSize := by
  rw [Channel.window_process]
  exact length_window_push (h.integrate _) (by rwa [Channel.window_integrate]) _

/-- R4, R7: a spout's channel is lawful and its window holds at most the W of its calibration. -/
structure Spout.WindowLawful (p : Spout) : Prop where
  channel : p.channel.Lawful
  window : p.channel.window.length ≤ p.calibration.windowSize

theorem Spout.windowLawful_iff (s : State) (i : SpoutId) :
    (s.spout i).WindowLawful ↔ (s.channel i).Lawful ∧ s.WindowLawful i :=
  ⟨fun h => ⟨h.channel, h.window⟩, fun ⟨hc, hw⟩ => ⟨hc, hw⟩⟩

theorem length_window_of_step {c d : Channel} (h : ChannelStep c d) : d.window.length ≤ c.window.length := by
  cases h <;> simp [Channel.restartWindow, Channel.startCompartment, Channel.endCompartment]

theorem Spout.WindowLawful.spoutKept : SpoutKept Spout.WindowLawful where
  fresh := ⟨.fresh, Nat.zero_le _⟩
  elsewhere _ _ hc hk h := ⟨by rw [hc]; exact h.channel, by rw [hc, hk]; exact h.window⟩
  channel p c hc h := by
    refine ⟨Channel.Lawful.spoutKept.channel p c hc h.channel, ?_⟩
    obtain hc | rfl := hc
    · exact (length_window_of_step hc).trans h.window
    · exact Nat.zero_le _
  calibration _ _ hk h := ⟨h.channel, h.window.trans_eq (windowSize_eq_of_step hk).symm⟩
  softReset _ h := ⟨h.channel, h.window⟩
  fullDebt _ h := ⟨h.channel, h.window⟩
  sampled _ _ x h := ⟨h.channel.process x _, length_window_process h.channel x h.window⟩
  profile _ _ _ h := ⟨h.channel.restartWindow, Nat.zero_le _⟩

/-! ## A lawful calibration -/

theorem clampInt_mem {lo hi : Int} (h : lo ≤ hi) (x : Int) : lo ≤ clampInt x lo hi ∧ clampInt x lo hi ≤ hi := by
  unfold clampInt; split_ifs <;> omega

theorem clampNat_mem {lo hi : Nat} (h : lo ≤ hi) (x : Nat) : lo ≤ clampNat x lo hi ∧ clampNat x lo hi ≤ hi := by
  unfold clampNat; split_ifs <;> omega

/-- R81: the zero reference lies in its zero range. -/
theorem Profile.zeroRef_mem {p : Profile} (h : -32768 ≤ p.zeroRef ∧ p.zeroRef ≤ 32767) :
    p.zeroLow ≤ p.zeroRef ∧ p.zeroRef ≤ p.zeroHigh := by
  unfold Profile.zeroLow Profile.zeroHigh; omega

/-- R95: a span reference of at least 1 lies in its span range. -/
theorem Profile.spanRef_mem {p : Profile} (h : p.spanRef ≤ 65535) (h1 : 1 ≤ p.spanRef) :
    p.spanLow ≤ p.spanRef ∧ p.spanRef ≤ p.spanHigh := by
  unfold Profile.spanLow Profile.spanHigh; omega

theorem signed16_mem {n : Nat} (h : n < 65536) : -32768 ≤ signed16 n ∧ signed16 n ≤ 32767 := by
  unfold signed16; split_ifs <;> omega

/-- A profile read from the memory holds 16-bit fields. -/
theorem Memory.profileAt_mem (m : Memory) (a : Nat) :
    (-32768 ≤ (m.profileAt a).zeroRef ∧ (m.profileAt a).zeroRef ≤ 32767) ∧ (m.profileAt a).spanRef ≤ 65535 :=
  ⟨signed16_mem (m.u16_lt _), Nat.le_of_lt_succ (m.u16_lt _)⟩

theorem Capture.length_pos {kind : Capture} (h : kind ≠ .none) : 0 < kind.length := by
  cases kind <;> simp_all [Capture.length, Config.shortCapture, Config.longCapture]

namespace Calibration.Lawful

variable {c : Calibration}

theorem fresh : ({} : Calibration).Lawful where
  debt := by decide
  zeroRef := by decide
  spanRef := by decide
  zero h := by cases h
  span h := by cases h
  idle _ := rfl
  gathering h := absurd rfl h
  timeout h := by cases h

theorem startCapture (h : c.Lawful) {kind : Capture} (hk : kind ≠ .none) : (c.startCapture kind).Lawful :=
  { h with
    idle := fun e => absurd e hk
    gathering := fun _ => Capture.length_pos hk
    timeout := fun e => by
      have e : kind.isLong = true := e
      simp [Calibration.startCapture, e] }

theorem dropCapture (h : c.Lawful) : c.dropCapture.Lawful :=
  { h with
    idle := fun _ => rfl
    gathering := fun e => absurd rfl e
    timeout := fun e => by cases e }

theorem setZero (h : c.Lawful) (z : Int) : (c.setZero z).Lawful :=
  { h with
    zero := fun _ =>
      have hr := Profile.zeroRef_mem h.zeroRef
      clampInt_mem (hr.1.trans hr.2) z }

theorem withDebt (h : c.Lawful) {d : Nat} (hd : d ≤ 8) : ({ c with debt := d } : Calibration).Lawful :=
  { h with debt := hd }

theorem completeShort (h : c.Lawful) : c.completeShort.Lawful := by
  refine (h.setZero _).dropCapture.withDebt ?_
  split
  · exact (Nat.sub_le _ _).trans h.debt
  · exact h.debt

theorem completeLong (h : c.Lawful) : c.completeLong.Lawful := (h.setZero _).dropCapture.withDebt (Nat.zero_le _)

/-- A running capture counts on, or anew, below its length. -/
theorem counting (h : c.Lawful) (hk : c.capture ≠ .none) {count : Nat} (hn : count < c.capture.length) (sum : Int) :
    ({ c with captureCount := count, captureSum := sum } : Calibration).Lawful :=
  { h with idle := fun e => absurd e hk, gathering := fun _ => hn }

theorem completeShort_gather (raw : Int) (c : Calibration) (n : Nat) :
    (c.gather raw).completeShort = { c with captureCount := n, captureSum := c.captureSum + raw }.completeShort := rfl

theorem completeLong_gather (raw : Int) (c : Calibration) (n : Nat) :
    (c.gather raw).completeLong = { c with captureCount := n, captureSum := c.captureSum + raw }.completeLong := rfl

theorem captureSample (h : c.Lawful) (raw zero : Int) (closed : Bool) : (c.captureSample raw zero closed).1.Lawful := by
  unfold Calibration.captureSample; dsimp only
  split_ifs with hk hb hn hs hs
  · exact h
  · exact h.counting hk hn _
  · rw [completeShort_gather raw c 0]
    exact (h.counting hk (Capture.length_pos hk) _).completeShort
  · rw [completeLong_gather raw c 0]
    exact (h.counting hk (Capture.length_pos hk) _).completeLong
  · exact h.dropCapture
  · exact h.counting hk (Capture.length_pos hk) _

theorem reconcile (h : c.Lawful) (ratio : Nat) : ({ c with span := (c.reconcile ratio).1 } : Calibration).Lawful := by
  refine { h with span := fun hv h1 => ?_ }
  show c.profile.spanLow ≤ (c.reconcile ratio).1 ∧ (c.reconcile ratio).1 ≤ c.profile.spanHigh
  unfold Calibration.reconcile; split
  · exact h.span hv h1
  · have hr := Profile.spanRef_mem h.spanRef h1
    exact clampNat_mem (hr.1.trans hr.2) _

theorem of_step (h : c.Lawful) {d : Calibration} (hd : CalibrationStep c d) : d.Lawful := by
  cases hd with
  | start kind hk => exact h.startCapture hk
  | drop => exact h.dropCapture
  | sample raw zero closed => exact h.captureSample raw zero closed
  | owe => exact h.withDebt (Nat.min_le_right _ _)
  | restartInterval t => exact { h with }
  | reconcile ratio => exact h.reconcile ratio

theorem applyProfile (h : c.Lawful) (m : Memory) (a : Nat) : (c.applyProfile (m.profileAt a)).Lawful := by
  obtain ⟨hz, hsp⟩ := m.profileAt_mem a
  have hd : (if c.capture.isShort then c.dropCapture else c).Lawful := by
    split
    · exact h.dropCapture
    · exact h
  exact { hd with
    debt := Nat.le_refl _
    zeroRef := hz
    spanRef := hsp
    zero := fun _ => Profile.zeroRef_mem hz
    span := fun _ h1 => Profile.spanRef_mem hsp h1 }

end Calibration.Lawful

theorem Calibration.Lawful.spoutKept : SpoutKept fun p => p.calibration.Lawful where
  fresh := .fresh
  elsewhere _ _ _ hk h := by rw [hk]; exact h
  channel _ _ _ h := h
  calibration _ _ hk h := h.of_step hk
  softReset _ h := { h.dropCapture with }
  fullDebt _ h := h.withDebt (Nat.le_refl _)
  sampled _ _ _ h := h
  profile _ m a h := h.applyProfile m a

/-- Settles O55: each of the three laws is a property of one spout that every small update of a step keeps. -/
theorem stepKeepsChannelsAndCalibrationsLawful : Obligations.StepKeepsChannelsAndCalibrationsLawful := by
  refine ⟨fun _ _ hs e => Channel.Lawful.spoutKept.step hs e, fun s t hs e i => ?_,
    fun _ _ hs e => Calibration.Lawful.spoutKept.step hs e⟩
  exact (Spout.WindowLawful.spoutKept.step (fun j => (Spout.windowLawful_iff s j).2 (hs j)) e i).window

end Sys2Proof.Machine

/-! One sample on a channel (R1 to R16): each clause of the statement is a field of `Channel.process`, read through its frames. -/

namespace Sys2Proof.Machine

namespace Channel

variable (c : Channel) (x : Sample) (g : SampleSettings)

theorem delivered_process : (c.process x g).delivered = (c.integrate (g.milligrams x)).delivered :=
  (congrArg delivered ((c.process_frame x g).trans (by rw [c.metered_frame])) :)

theorem remainder_process : (c.process x g).remainder = (c.integrate (g.milligrams x)).remainder :=
  (congrArg remainder ((c.process_frame x g).trans (by rw [c.metered_frame])) :)

theorem rate_process : (c.process x g).rate = (c.metered x g).rate := (congrArg rate (c.process_frame x g) :)

theorem surgeRun_metered : (c.metered x g).surgeRun = c.surgeRun := (congrArg surgeRun (c.metered_frame x g) :)

theorem integrate_open {c : Channel} (h : c.integrating = true) (mg : Nat) :
    (c.integrate mg).delivered = min (c.delivered + (c.remainder + mg) / 1000) 4294967295
      ∧ (c.integrate mg).remainder = (c.remainder + mg) % 1000 := by
  unfold Channel.integrate; rw [if_pos h]; exact ⟨rfl, rfl⟩

theorem integrate_shut {c : Channel} (h : c.integrating = false) (mg : Nat) : c.integrate mg = c := by
  unfold Channel.integrate; rw [h]; rfl

/-- R6: the accumulator never decreases. -/
theorem delivered_le_integrate {c : Channel} (h : c.delivered ≤ 4294967295) (mg : Nat) :
    c.delivered ≤ (c.integrate mg).delivered := by
  cases hi : c.integrating with
  | true => rw [(integrate_open hi mg).1]; omega
  | false => rw [integrate_shut hi]

/-- R7: the window holds the last `size` increments. -/
theorem window_push {c : Channel} (h : c.Lawful) {size : Nat} (hw : c.window.length ≤ size) (mg : Nat) :
    (c.push size mg).window = (c.window ++ [mg]).drop (c.window.length + 1 - size) := by
  unfold Channel.push; rw [h.fillCount]; split
  · next hlt => rw [show c.window.length + 1 - size = 0 by omega]; rfl
  · next hge => rw [show c.window.length + 1 - size = 1 by omega]

/-- R8: the rate is the mean of the window. -/
theorem rate_mean {c : Channel} (h : c.Lawful) :
    (c.process x g).rate = (c.process x g).window.sum / (c.process x g).window.length := by
  have hp := h.process x g
  rw [← hp.windowSum, ← hp.fillCount, c.process_frame x g]; rfl

/-- R11: a surge sample lengthens the run, any other ends it. -/
theorem surgeRun_process {p : Profile} (hg : g.profile = some p) :
    (c.process x g).surgeRun
      = if p.surgeLimit < (c.process x g).rate ∨ x.overRange = true then min (c.surgeRun + 1) 1000 else 0 := by
  have hs : (c.process x g).surgeRun = ((c.metered x g).updateSurge p x.overRange).surgeRun := by
    cases hl : g.leakActive with
    | false => rw [process_unwatched hg hl]
    | true => rw [process_watched hg hl, updateLeak_frame]
  rw [hs, rate_process, ← c.surgeRun_metered x g, updateSurge]
  simp only [Bool.or_eq_true, decide_eq_true_eq]
  split <;> rfl

/-- The fields of the leak monitor. -/
def SameLeak (c d : Channel) : Prop :=
  d.leakTotal = c.leakTotal ∧ d.leakRemainder = c.leakRemainder ∧ d.leak = c.leak

theorem sameLeak_metered : SameLeak c (c.metered x g) := by rw [metered_frame]; exact ⟨rfl, rfl, rfl⟩

theorem sameLeak_updateSurge (p : Profile) : SameLeak c ((c.metered x g).updateSurge p x.overRange) := by
  rw [updateSurge_frame]; exact c.sameLeak_metered x g

/-- R14: without a valid profile, or where it is not active, the leak monitor rests. -/
theorem sameLeak_inactive (h : g.profile = none ∨ g.leakActive = false) : SameLeak c (c.process x g) := by
  cases hg : g.profile with
  | none => rw [process_unprofiled hg]; exact c.sameLeak_metered x g
  | some p =>
    have hl : g.leakActive = false := h.resolve_left (by simp [hg])
    rw [process_unwatched hg hl]; exact c.sameLeak_updateSurge x g p

/-- R15: a net value up to the threshold is no leak sample. -/
theorem sameLeak_below {p : Profile} (hg : g.profile = some p) (hl : g.leakActive = true)
    (hn : x.raw - g.zero ≤ p.leakThreshold) : SameLeak c (c.process x g) := by
  rw [process_watched hg hl, updateLeak, if_pos hn]; exact c.sameLeak_updateSurge x g p

/-- R15, R16: a leak sample. -/
theorem leak_above {p : Profile} (hg : g.profile = some p) (hl : g.leakActive = true)
    (hn : (p.leakThreshold : Int) < x.raw - g.zero) :
    let mg := ((x.raw - g.zero).toNat * g.span + 512) / 1024
    let d := c.process x g
    d.leakTotal = min (c.leakTotal + (c.leakRemainder + mg) / 1000) 4294967295
      ∧ d.leakRemainder = (c.leakRemainder + mg) % 1000 ∧ (d.leak = true ↔ c.leak = true ∨ p.leakLimit < d.leakTotal) := by
  have hnot : ¬ x.raw - g.zero ≤ p.leakThreshold := by omega
  obtain ⟨ht, hr, hk⟩ := c.sameLeak_updateSurge x g p
  dsimp only
  rw [process_watched hg hl, updateLeak, if_neg hnot]
  simp only [ht, hr, hk, increment, if_neg hnot, addMilligrams, Config.maxU32, Bool.or_eq_true, decide_eq_true_eq, and_self]

end Channel

/-- R14: the stages in which the leak monitor stands ready. -/
theorem Stage.leakStage_iff (x : Stage) : x.leakStage = true ↔ x = .idle ∨ x = .waitIndex ∨ x = .engaging ∨ x = .zeroing
    ∨ x = .releasing ∨ x = .zeroRun := by cases x <;> decide

theorem sampleSettings_profiled {s : State} {i : SpoutId} (h : (s.calibration i).profileValid = true) :
    s.sampleSettings i = {
      zero := (s.calibration i).zero, span := (s.calibration i).span, creepBand := (s.calibration i).profile.creepBand
      windowSize := (s.calibration i).profile.window, profile := some (s.calibration i).profile
      leakActive := (s.stage i).leakStage && s.present i .gateClosed } := by
  simp [State.sampleSettings, h]

theorem sampleSettings_unprofiled {s : State} {i : SpoutId} (h : (s.calibration i).profileValid = false) :
    s.sampleSettings i = {
      zero := (s.calibration i).zero, span := (s.calibration i).span, creepBand := 0, windowSize := 16, profile := none
      leakActive := false } := by
  simp [State.sampleSettings, h, Config.defaultWindow]

/-- Settles O42, clause by clause from the fields of `Channel.process` and the two forms of `State.sampleSettings`. -/
theorem sampleUpdatesTheChannel : Obligations.SampleUpdatesTheChannel := by
  refine ⟨fun c x g => ⟨fun h => ?_, fun h => ?_, fun h => ?_⟩, fun c x g hc hw _ => ⟨?_, c.rate_mean x g hc⟩,
    fun c x g p hg => ⟨fun h => ?_, fun h => ?_, rfl, rfl⟩, fun c x g hg => ?_,
    fun c x g => ⟨c.sameLeak_inactive x g, fun p hg hl => ⟨c.sameLeak_below x g hg hl, c.leak_above x g hg hl⟩⟩,
    fun _ _ _ => rfl, fun i s => ⟨rfl, rfl, fun h => ?_, fun h => ?_⟩, fun i => ?_⟩
  · rw [c.delivered_process, c.remainder_process]; exact Channel.integrate_open h _
  · rw [c.delivered_process, c.remainder_process, Channel.integrate_shut h]; exact ⟨rfl, rfl⟩
  · rw [c.delivered_process]; exact Channel.delivered_le_integrate h _
  · rw [c.window_process, Channel.window_push (hc.integrate _) (by rwa [c.window_integrate]), c.window_integrate]; rfl
  · rw [c.surgeRun_process x g hg, if_pos h]
  · rw [c.surgeRun_process x g hg, if_neg h]
  · rw [Channel.process_unprofiled hg, c.surgeRun_metered]
  · rw [sampleSettings_profiled h]
    exact ⟨rfl, rfl, rfl, by simp only [Bool.and_eq_true, Stage.leakStage_iff]⟩
  · rw [sampleSettings_unprofiled h]; exact ⟨rfl, rfl, rfl, rfl⟩
  · have hc : State.reset.calibration i = {} := by simp [State.reset, State.calibration, State.spout]
    rw [sampleSettings_unprofiled (by rw [hc]), hc]; exact ⟨rfl, rfl⟩

end Sys2Proof.Machine

/-! Fields of the records in the exchange memory (R190, R194, R198): what a field reads where its bytes stand, and what a write
under a stamp leaves. -/

namespace Sys2Proof.Machine

/-! ## Reading fields -/

/-- Bytes that follow each other stand one after the other. -/
theorem State.holds_append {s : State} {a : Nat} {xs ys : List Byte} :
    s.holds a (xs ++ ys) ↔ s.holds a xs ∧ s.holds (a + xs.length) ys := by
  constructor
  · intro h
    refine ⟨fun k hk => ?_, fun k hk => ?_⟩
    · rw [h k (by simp; omega), List.getElem_append_left hk]
    · rw [Nat.add_assoc, h _ (by simp; omega), List.getElem_append_right (by omega)]
      simp
  · rintro ⟨hx, hy⟩ k hk
    by_cases hlt : k < xs.length
    · rw [hx k hlt, List.getElem_append_left hlt]
    · rw [List.getElem_append_right (by omega), ← hy (k - xs.length) (by simp at hk; omega)]
      congr 1; omega

theorem State.holds.of_memory_eq {s t : State} {a : Nat} {bytes : List Byte} (h : s.holds a bytes)
    (e : t.memory = s.memory) : t.holds a bytes := fun k hk => by rw [e, h k hk]

theorem State.holds.u8_field {s : State} {a n : Nat} (h : s.holds a (u8Bytes n)) : s.memory.u8 a = n % 256 := by
  rw [← Nat.add_zero a, h.u8 (k := 0) rfl, BitVec.toNat_ofNat]

theorem State.holds.u16_field {s : State} {a n : Nat} (h : s.holds a (u16Bytes n)) : s.memory.u16 a = n % 65536 := by
  have low := h.u8 (k := 0) rfl
  have high := h.u8 (k := 1) rfl
  rw [BitVec.toNat_ofNat] at low high
  rw [Memory.u16, high, ← Nat.add_zero a, low]; omega

theorem State.holds.u32_field {s : State} {a n : Nat} (h : s.holds a (u32Bytes n)) :
    s.memory.u32 a = n % 4294967296 := by
  obtain ⟨hl, hh⟩ := State.holds_append.1 h
  have low := hl.u16_field
  have high := hh.u16_field
  rw [length_u16Bytes] at high
  rw [Memory.u32, high, low]; omega

theorem State.holds.s16_field {s : State} {a : Nat} {z : Int} (h : s.holds a (s16Bytes z)) :
    (s.memory.u16 a : Int) = z % 65536 := by
  have := State.holds.u16_field (n := (z % 65536).toNat) h
  omega

/-! ## A record under its stamp -/

section Stamped

variable (base : Nat) (fields : List Byte) {s : State}

theorem holds_writeStamped (hm : s.memory.wf = true) : (writeStamped base fields s).holds (base + 2) fields :=
  (State.holds_writeMemory (Memory.wf_writeBytes hm _ _) _ _).writeMemory_other (.inr (by simp))

/-- R190: the stamp rises by two, and wraps. -/
theorem stamp_writeStamped (hm : s.memory.wf = true) :
    (writeStamped base fields s).memory.u16 base = (s.memory.u16 base + 2) % 65536 :=
  (State.holds_writeMemory (Memory.wf_writeBytes (Memory.wf_writeBytes hm _ _) _ _) base _).u16_field

theorem sameMemoryOutside_writeStamped : SameMemoryOutside base (2 + fields.length) s (writeStamped base fields s) := by
  intro x hx
  unfold writeStamped
  simp only [State.memory_writeMemory]
  rw [Memory.read_writeBytes_other _ _ _ (by simp only [length_u16Bytes]; omega),
    Memory.read_writeBytes_other _ _ _ (by omega),
    Memory.read_writeBytes_other _ _ _ (by simp only [length_u16Bytes]; omega)]

theorem wf_writeStamped (hm : s.memory.wf = true) : (writeStamped base fields s).memory.wf = true :=
  Memory.wf_writeBytes (Memory.wf_writeBytes (Memory.wf_writeBytes hm _ _) _ _) _ _

end Stamped

theorem SameButMemory.spout {s t : State} (h : SameButMemory s t) (j : SpoutId) : t.spout j = s.spout j := by
  obtain ⟨m, rfl⟩ := h; rfl

/-! ## The panel -/

theorem bit_le (b : Bool) (n : Nat) : bit b n ≤ 2 ^ n := by
  cases b <;> simp [bit]

theorem conditionFlags_lt (p : Spout) : conditionFlags p < 256 := by
  have h0 := bit_le p.handed.leak 0
  have h1 := bit_le p.calibration.zeroLimit 1
  have h2 := bit_le (p.positioner.position == .faulted) 2
  unfold conditionFlags; omega

theorem inputBits_lt (g : FieldGroup) : inputBits g < 65536 := by
  have h0 := bit_le g.gateClosed.taken 0
  have h1 := bit_le g.gateOpen.taken 1
  have h2 := bit_le g.spoutRaised.taken 2
  have h3 := bit_le g.spoutLowered.taken 3
  have h4 := bit_le g.levelHigh.taken 4
  have h5 := bit_le g.indexReady.taken 5
  have h6 := bit_le g.permit.taken 6
  unfold inputBits; omega

theorem outputBits_lt (p : Spout) : outputBits p < 65536 := by
  have h0 := bit_le (p.context.gate.output == .openFull) 0
  have h1 := bit_le (p.context.gate.output == .openFine) 1
  have h2 := bit_le (p.context.gate.output == .close) 2
  have h3 := bit_le (p.positioner.drive == .lower) 3
  have h4 := bit_le (p.positioner.drive == .raise) 4
  have h5 := bit_le p.field.aerate 5
  unfold outputBits; omega

theorem Position.value_lt (x : Position) : x.value < 256 := by cases x <;> decide
theorem FaultCause.value_lt (x : FaultCause) : x.value < 256 := by cases x <;> decide
theorem Stage.value_lt (x : Stage) : x.value < 256 := by cases x <;> decide

theorem slotByte_eq (n : Option SlotId) : slotByte n = (n.map Fin.val).getD 0xFF := by cases n <;> rfl

theorem slotByte_lt (n : Option SlotId) : slotByte n < 256 := by
  cases n with
  | none => decide
  | some n => exact n.isLt.trans (by decide)

/-- R194: a panel whose bytes stand in the memory shows its spout. -/
theorem State.holds.panelShows {s : State} {a : Nat} {p : Spout} (h : s.holds (a + 2) (panelFields p)) :
    s.panelShows a p := by
  simp only [panelFields, State.holds_append, List.length_append, length_u8Bytes, length_u16Bytes, length_u32Bytes,
    length_s16Bytes, Nat.add_assoc, Nat.reduceAdd] at h
  obtain ⟨⟨⟨⟨⟨⟨⟨⟨⟨⟨⟨⟨⟨⟨⟨hposition, hcause⟩, hstage⟩, hslot⟩, hindex⟩, hflags⟩, hdelivered⟩, hrate⟩, hzero⟩, hspan⟩, hdebt⟩,
    hraw⟩, hleak⟩, herrors⟩, hinputs⟩, houtputs⟩ := h
  refine ⟨?_, ?_, ?_, ?_, hindex.u8_field, ?_, hdelivered.u32_field, hrate.u32_field, hzero.s16_field, hspan.u16_field,
    hdebt.u16_field, hraw.s16_field, hleak.u32_field, herrors.u16_field, ?_, ?_⟩
  · rw [hposition.u8_field, Nat.mod_eq_of_lt (Position.value_lt _)]; cases p.positioner.position <;> rfl
  · rw [hcause.u8_field, Nat.mod_eq_of_lt (FaultCause.value_lt _)]; cases p.positioner.cause <;> rfl
  · rw [hstage.u8_field, Nat.mod_eq_of_lt (Stage.value_lt _)]; cases p.context.stage <;> rfl
  · rw [hslot.u8_field, Nat.mod_eq_of_lt (slotByte_lt _), slotByte_eq]
  · exact hflags.u8_field.trans (Nat.mod_eq_of_lt (conditionFlags_lt p))
  · exact hinputs.u16_field.trans (Nat.mod_eq_of_lt (inputBits_lt _))
  · exact houtputs.u16_field.trans (Nat.mod_eq_of_lt (outputBits_lt p))

theorem refreshPanel_visible {s : State} (hv : s.port.visible = true) (i : SpoutId) :
    refreshPanel i s = writeStamped (Config.panelBase i) (panelFields (s.spout i)) s := by
  unfold refreshPanel; rw [if_pos hv]

/-- Settles O41: the expiry is one write of the panel under its stamp, and one timer set. -/
theorem panelTimerExpiryRefreshesThePanel : Obligations.PanelTimerExpiryRefreshesThePanel := by
  intro i s hm hp hv
  have hexec : exec (.panelTimerExpiry i) s = .next ((writeStamped (Config.panelBase i) (panelFields (s.spout i)) s).updateSpout
      i fun p => { p with panelTimer := some 100 }) := by
    simp only [exec, execPanelTimerExpiry, if_pos hp, refreshPanel_visible hv, Config.panelTimerMs]
  have hholds := holds_writeStamped (Config.panelBase i) (panelFields (s.spout i)) hm
  have hstamp := stamp_writeStamped (Config.panelBase i) (panelFields (s.spout i)) hm
  have houtside := sameMemoryOutside_writeStamped (s := s) (Config.panelBase i) (panelFields (s.spout i))
  rw [length_panelFields] at houtside
  have hsame := sameButMemory_writeStamped (Config.panelBase i) (panelFields (s.spout i)) s
  generalize writeStamped (Config.panelBase i) (panelFields (s.spout i)) s = u at *
  have hshown : (u.updateSpout i fun p => { p with panelTimer := some 100 }).holds (Config.panelBase i + 2)
      (panelFields (s.spout i)) := hholds.of_memory_eq rfl
  refine ⟨_, hexec, ?_, hstamp, hshown, hshown.panelShows, houtside, ?_, hsame.port, hsame.products, hsame.preact,
    hsame.pending⟩
  · rw [State.spout_updateSpout_self, hsame.spout]
  · intro j hj
    rw [State.spout_updateSpout_ne _ hj, hsame.spout]

end Sys2Proof.Machine

/-! A complete frame on a spout's link (R141 to R147), and one sample of an idle spout (R1, R6 to R16). -/

namespace Sys2Proof.Machine

/-! ## A frame taken -/

/-- R192: the frame that four characters after the sync spell. -/
def frameOf (sequence status low high : Byte) : Frame where
  sequence := sequence
  overRange := status.getLsbD 0
  fault := status.getLsbD 1
  raw := signed16 (low.toNat + 256 * high.toNat)

/-- R142: a frame whose check character is right is taken. -/
theorem exec_frame {s : State} {i : SpoutId} {sequence status low high : Byte} (hl : s.port.linesLive = true)
    (ha : (s.receiver i).assembly = [0xA5, sequence, status, low, high]) :
    exec (.frame i (crc8 [0xA5, sequence, status, low, high])) s
      = .next (takeFrame i (frameOf sequence status low high) (s.updateReceiver i fun r => { r with assembly := [] })) := by
  have hread : readFrame [0xA5, sequence, status, low, high, crc8 [0xA5, sequence, status, low, high]]
      = some (frameOf sequence status low high) := if_pos ⟨rfl, rfl⟩
  simp only [exec, execFrame, if_pos hl, receiveChar, ha, List.cons_ne_nil, if_false, List.length_cons, List.length_nil,
    Nat.reduceAdd, Nat.lt_irrefl, List.cons_append, List.nil_append, completeFrame, hread]

theorem State.updateReceiver_congr {s : State} {i : SpoutId} {f g : Receiver → Receiver}
    (h : f (s.receiver i) = g (s.receiver i)) : s.updateReceiver i f = s.updateReceiver i g := by
  have h' : f s.spouts[i].receiver = g s.spouts[i].receiver := h
  simp only [State.updateReceiver, State.updateSpout, h']

/-- R143: a frame on a PRESENT link that is no duplicate. -/
theorem takeFrame_present {s : State} {i : SpoutId} (x : Frame) (hp : (s.receiver i).link = .present)
    (hg : sequenceGap (s.receiver i).lastSequence x.sequence ≠ 255) :
    takeFrame i x s = takeInPresent i x (sequenceGap (s.receiver i).lastSequence x.sequence) (s.receiver i)
      (s.updateReceiver i (Receiver.take x (sequenceGap (s.receiver i).lastSequence x.sequence))) := by
  unfold takeFrame; dsimp only; rw [if_neg hg, hp]

/-- R144: the missing run of a frame that the link survives. -/
theorem missingAfter_survives {run gap : Nat} {fault : Bool} (hg : gap ≤ 4) (hr : run + gap ≤ 4)
    (hm : (if fault then run + gap + 1 else 0) ≤ 4) :
    missingAfter run gap fault = some (if fault then run + gap + 1 else 0) := by
  unfold missingAfter
  rw [if_neg (by simp only [Config.gapLimit, Config.missingLimit]; omega)]
  cases fault with
  | false => rfl
  | true =>
    rw [if_pos rfl] at hm ⊢
    rw [if_neg (by simp only [Config.missingLimit]; omega)]; rfl

/-- R147: what a surviving frame does to its receiver, as one update. -/
theorem take_then_count (s : State) (i : SpoutId) (x : Frame) (gap run : Nat) :
    ((s.updateReceiver i fun r => { r with assembly := [] }).updateReceiver i (Receiver.take x gap)).updateReceiver i
        (fun r => { r with missingRun := run, silence := some Config.silenceMs })
      = s.updateReceiver i fun _ => { s.receiver i with
          assembly := [], lastSequence := some x.sequence
          lastGoodRaw := if x.fault then (s.receiver i).lastGoodRaw else x.raw
          goodRun := if gap = 0 ∧ x.fault = false then min ((s.receiver i).goodRun + 1) 65535 else 0
          missingRun := run, silence := some 20 } := by
  rw [State.updateReceiver_updateReceiver, State.updateReceiver_updateReceiver]
  apply State.updateReceiver_congr
  simp only [Receiver.take, Config.silenceMs, Config.maxU16, Bool.not_eq_true]

/-- R144, R147: a frame that the link survives delivers its samples, the substituted ones first. -/
theorem exec_frame_survived {s : State} {i : SpoutId} {last sequence status low high : Byte} (hl : s.port.linesLive = true)
    (ha : (s.receiver i).assembly = [0xA5, sequence, status, low, high]) (hp : (s.receiver i).link = .present)
    (hs : (s.receiver i).lastSequence = some last) :
    let x := frameOf sequence status low high
    let gap := (sequence - last - 1).toNat
    let run := if x.fault then (s.receiver i).missingRun + gap + 1 else 0
    gap ≤ 4 → (s.receiver i).missingRun + gap ≤ 4 → run ≤ 4 →
    exec (.frame i (crc8 [0xA5, sequence, status, low, high])) s
      = .next (deliverSamples i (frameSamples x gap (s.receiver i).lastGoodRaw) (s.updateReceiver i fun _ => { s.receiver i with
          assembly := [], lastSequence := some sequence
          lastGoodRaw := if x.fault then (s.receiver i).lastGoodRaw else x.raw
          goodRun := if gap = 0 ∧ x.fault = false then min ((s.receiver i).goodRun + 1) 65535 else 0
          missingRun := run, silence := some 20 })) := by
  intro x gap run hg hr hm
  have hgap : sequenceGap (some last) x.sequence = gap := rfl
  rw [exec_frame hl ha, takeFrame_present _ (by rw [State.receiver_updateReceiver_self]; exact hp)]
  · rw [State.receiver_updateReceiver_self, hs, hgap]
    unfold takeInPresent
    rw [missingAfter_survives hg hr hm]
    dsimp only
    rw [take_then_count]; rfl
  · rw [State.receiver_updateReceiver_self, hs, hgap]; omega

/-! ## A sample of an idle spout -/

/-- R16: a sample, with the spout-change flag that LEAK rising sets. -/
theorem channelSample_eq (i : SpoutId) (x : Sample) (s : State) :
    channelSample i x s = (s.updateSpout i (Spout.sample x (s.sampleSettings i))).updatePort fun p =>
      { p with spoutChange := p.spoutChange || (((s.channel i).process x (s.sampleSettings i)).leak && !(s.channel i).leak) } := by
  have hc : (s.updateSpout i (Spout.sample x (s.sampleSettings i))).channel i
      = (s.channel i).process x (s.sampleSettings i) := by
    rw [State.channel, State.spout_updateSpout_self]; rfl
  unfold channelSample; dsimp only; rw [hc]
  split
  · next h => rw [h]; simp only [Bool.or_true]; rfl
  · next h => rw [Bool.not_eq_true] at h; rw [h]; simp only [Bool.or_false]; rfl

/-- A sample of a spout that is idle, with no starve timer, goes through its channel alone. -/
theorem ownSample_idle (k : Reaction) {i : SpoutId} {s : State} (hs : s.stage i = .idle) (ht : (s.gate i).starve = none) :
    ownSample k i s = s := by
  have hr : restartStarve i s = s := by simp [restartStarve, ht]
  have he : evaluateFeed i s = s := by simp [evaluateFeed, hs]
  simp [ownSample, hs, hr, he, Stage.isOpen]

/-- What a sample leaves alone of its spout. -/
theorem channelSample_context (i : SpoutId) (x : Sample) (s : State) : (channelSample i x s).context i = s.context i := by
  rw [channelSample_eq, State.context_updatePort, State.context, State.spout_updateSpout_self]; rfl

theorem deliverSample_idle (k : Reaction) {i : SpoutId} (x : Sample) {s : State} (hs : s.stage i = .idle)
    (ht : (s.gate i).starve = none) (hc : (s.calibration i).capture = .none) :
    deliverSample k i x s = channelSample i x s := by
  have hctx := channelSample_context i x s
  have hs' : (channelSample i x s).stage i = .idle := by rw [State.stage, hctx]; exact hs
  have ht' : ((channelSample i x s).gate i).starve = none := by rw [State.gate, hctx]; exact ht
  have hb : (channelSample i x s).isBound i = false := by simp [State.isBound, hs']
  unfold deliverSample; dsimp only
  rw [if_pos hc, hb, if_neg Bool.false_ne_true, ownSample_idle k hs' ht']

theorem sampleSettings_updateReceiver (s : State) (i j : SpoutId) (f : Receiver → Receiver) :
    (s.updateReceiver i f).sampleSettings j = s.sampleSettings j := by
  simp [State.sampleSettings, State.present, State.line]

/-- R6 to R16: the spout after a sample of an idle spout on a receiver `r`. -/
theorem spout_channelSample_updateReceiver (s : State) (i : SpoutId) (x : Sample) (r : Receiver) :
    (channelSample i x (s.updateReceiver i fun _ => r)).spout i
      = Spout.sample x (s.sampleSettings i) { s.spout i with receiver := r } := by
  rw [channelSample_eq, State.spout_updatePort, State.spout_updateSpout_self, sampleSettings_updateReceiver]
  simp only [State.updateReceiver, State.spout_updateSpout_self]

/-- Settles O26: a surviving frame is its receiver's update and its samples; one own sample of an idle spout is one sample of its
channel. -/
theorem frameDeliversItsSamples : Obligations.FrameDeliversItsSamples := by
  refine ⟨fun i last sequence status low high s hl ha hp hs => exec_frame_survived hl ha hp hs,
    fun i last status low high s hl ha hp hs hf hm hi ht hc => ?_⟩
  intro raw x c
  let r : Receiver := { s.receiver i with
    assembly := [], lastSequence := some (last + 1), lastGoodRaw := raw
    goodRun := min ((s.receiver i).goodRun + 1) 65535, missingRun := 0, silence := some 20 }
  let u := s.updateReceiver i fun _ => r
  have hexec : exec (.frame i (crc8 [0xA5, last + 1, status, low, high])) s = .next (channelSample i x u) := by
    have hgap : (last + 1 - last - 1).toNat = 0 := by rw [show last + 1 - last - 1 = 0 by bv_omega]; rfl
    have hfault : (frameOf (last + 1) status low high).fault = false := hf
    have hframe := exec_frame_survived hl ha hp hs (by omega) (by omega) (by rw [hfault]; exact Nat.zero_le _)
    rw [hgap, hfault] at hframe
    have hsamples : frameSamples (frameOf (last + 1) status low high) 0 (s.receiver i).lastGoodRaw = [x] := by
      unfold frameSamples; rw [hfault]; rfl
    rw [hsamples] at hframe
    rw [← deliverSample_idle react x (by simpa [u] using hi) (by simpa [u] using ht) (by simpa [u] using hc)]
    exact hframe
  have hspout : (channelSample i x u).spout i = Spout.sample x (s.sampleSettings i) { s.spout i with receiver := r } :=
    spout_channelSample_updateReceiver s i x r
  have hother : SameOtherSpouts i s (channelSample i x u) := fun j hj => by
    rw [channelSample_eq, State.spout_updatePort, State.spout_updateSpout_ne _ hj]
    exact State.spout_updateSpout_ne s hj _
  refine ⟨_, hexec, (congrArg Spout.receiver hspout :), (congrArg Spout.channel hspout :), (congrArg Spout.handed hspout :),
    (congrArg Spout.context hspout :), (congrArg Spout.calibration hspout :), (congrArg Spout.positioner hspout :),
    (congrArg Spout.field hspout :), (congrArg Spout.queue hspout :), hother, ?_, ?_, ?_⟩
  all_goals rw [channelSample_eq]
  · exact ⟨rfl, rfl, rfl⟩
  · rfl
  · rw [State.port_updatePort, sampleSettings_updateReceiver, State.channel_updateReceiver]; rfl

end Sys2Proof.Machine

/-! A posting for a spout at rest (R52, R158, R162, R164): accepted, queued and served in one handling; and what it does for a
PROFILE and a SEED (R75, R96, R181, R188). -/

namespace Sys2Proof.Machine

/-! ## Memory outside a region -/

theorem SameMemoryOutside.trans {a len : Nat} {s t u : State} (h : SameMemoryOutside a len s t)
    (h' : SameMemoryOutside a len t u) : SameMemoryOutside a len s u := fun x hx => (h' x hx).trans (h x hx)

theorem sameMemoryOutside_writeMemory {a len b : Nat} {bytes : List Byte} (s : State) (hb : a ≤ b)
    (hl : b + bytes.length ≤ a + len) : SameMemoryOutside a len s (s.writeMemory b bytes) := fun _ hx =>
  Memory.read_writeBytes_other _ _ _ (by omega)

theorem SameMemoryOutside.u8_eq {a len x : Nat} {s t : State} (h : SameMemoryOutside a len s t) (hx : x < a ∨ a + len ≤ x) :
    t.memory.u8 x = s.memory.u8 x := congrArg BitVec.toNat (h x hx)

theorem SameMemoryOutside.u16_eq {a len x : Nat} {s t : State} (h : SameMemoryOutside a len s t)
    (hx : x + 1 < a ∨ a + len ≤ x) : t.memory.u16 x = s.memory.u16 x := by
  rw [Memory.u16, h.u8_eq (by omega), h.u8_eq (by omega), Memory.u16]

theorem SameMemoryOutside.u32_eq {a len x : Nat} {s t : State} (h : SameMemoryOutside a len s t)
    (hx : x + 3 < a ∨ a + len ≤ x) : t.memory.u32 x = s.memory.u32 x := by
  rw [Memory.u32, h.u16_eq (by omega), h.u16_eq (by omega), Memory.u32]

theorem SameMemoryOutside.profileAt_eq {a len x : Nat} {s t : State} (h : SameMemoryOutside a len s t) (hx : a + len ≤ x + 4) :
    t.memory.profileAt x = s.memory.profileAt x := by
  have h16 : ∀ k, 4 ≤ k → t.memory.u16 (x + k) = s.memory.u16 (x + k) := fun k hk => h.u16_eq (by omega)
  have h32 : ∀ k, 4 ≤ k → t.memory.u32 (x + k) = s.memory.u32 (x + k) := fun k hk => h.u32_eq (by omega)
  unfold Memory.profileAt Memory.s16
  simp only [h16, h32, Nat.reduceLeDiff]

theorem SameMemoryOutside.holds {a len b : Nat} {s t : State} {bytes : List Byte} (h : SameMemoryOutside a len s t)
    (hs : s.holds b bytes) (hb : b + bytes.length ≤ a ∨ a + len ≤ b) : t.holds b bytes := fun k hk => by
  rw [h _ (by omega), hs k hk]

/-! ## A slot answered -/

theorem sameMemoryOutside_answered (s : State) (n : SlotId) (result reason index : Nat) :
    SameMemoryOutside (Config.slotBase n) 6 s (s.answered n result reason index) :=
  (sameMemoryOutside_writeMemory s (by omega) (by simp)).trans (sameMemoryOutside_writeMemory _ (by omega) (by simp))

theorem wf_answered {s : State} (hm : s.memory.wf = true) (n : SlotId) (result reason index : Nat) :
    (s.answered n result reason index).memory.wf = true := Memory.wf_writeBytes (Memory.wf_writeBytes hm _ _) _ _

/-- R157: the slot is DONE. -/
theorem slotStateByte_answered {s : State} (hm : s.memory.wf = true) (n : SlotId) (result reason index : Nat) :
    (s.answered n result reason index).slotStateByte n = 4 :=
  (State.holds_writeMemory (s := s.writeMemory (Config.slotBase n + 3) _) (Memory.wf_writeBytes hm _ _)
    (Config.slotBase n) [4]).u8 (k := 0) rfl

/-- R195: the result of a slot that is DONE. -/
theorem result_answered {s : State} (hm : s.memory.wf = true) (n : SlotId) (result reason index : Nat) :
    (s.answered n result reason index).slotU8 n 3 = result % 256 := by
  have h := ((State.holds_writeMemory hm (Config.slotBase n + 3)
    [BitVec.ofNat 8 result, BitVec.ofNat 8 reason, BitVec.ofNat 8 index]).writeMemory_other (b := Config.slotBase n)
    (other := [4]) (.inr (by simp))).u8 (k := 0) rfl
  rw [BitVec.toNat_ofNat] at h
  exact h

theorem spout_answered (s : State) (n : SlotId) (result reason index : Nat) (j : SpoutId) :
    (s.answered n result reason index).spout j = s.spout j := rfl

/-! ## An order served at once -/

/-- The slot of an order that has joined an empty queue and left it as its head: POSTED, accepted, QUEUED (R155, R162). -/
def State.headed (s : State) (n : SlotId) (kind : Nat) : State :=
  ((s.posted n kind).writeMemory (Config.slotBase n + 3) [0, 0, 0xFF]).writeMemory (Config.slotBase n) [2]

theorem sameMemoryOutside_posted (s : State) (n : SlotId) (kind : Nat) :
    SameMemoryOutside (Config.slotBase n) 2 s (s.posted n kind) := sameMemoryOutside_writeMemory s (by omega) (by simp)

theorem sameMemoryOutside_headed (s : State) (n : SlotId) (kind : Nat) :
    SameMemoryOutside (Config.slotBase n) 6 s (s.headed n kind) :=
  ((sameMemoryOutside_writeMemory s (by omega) (by simp)).trans (sameMemoryOutside_writeMemory _ (by omega) (by simp))).trans
    (sameMemoryOutside_writeMemory _ (by omega) (by simp))

theorem wf_headed {s : State} (hm : s.memory.wf = true) (n : SlotId) (kind : Nat) : (s.headed n kind).memory.wf = true :=
  Memory.wf_writeBytes (Memory.wf_writeBytes (Memory.wf_writeBytes hm _ _) _ _) _ _

/-- R155: a posting leaves its kind in the slot. -/
theorem slotKind_posted {s : State} (hm : s.memory.wf = true) (n : SlotId) {kind : Nat} (hk : kind < 256) :
    (s.posted n kind).slotKind n = kind := by
  have h := (State.holds_writeMemory hm (Config.slotBase n) [1, BitVec.ofNat 8 kind]).u8 (k := 1) rfl
  rwa [BitVec.toNat_ofNat, Nat.mod_eq_of_lt hk] at h

theorem slotKind_headed {s : State} (hm : s.memory.wf = true) (n : SlotId) {kind : Nat} (hk : kind < 256) :
    (s.headed n kind).slotKind n = kind :=
  (Memory.u8_writeBytes_other _ _ _ (.inr (by simp))).trans
    ((Memory.u8_writeBytes_other _ _ _ (.inl (by omega))).trans (slotKind_posted hm n hk))

theorem slotSpout_of_byte {s : State} {n : SlotId} {i : SpoutId} (h : s.slotSpoutByte n = i.val) : s.slotSpout n = i := by
  apply Fin.ext
  simp [State.slotSpout, h]


/-- R52, R162, R164: an order that is no LOAD or TWIN, accepted for a spout at rest, is served at once. -/
theorem queueOrder_atRest {s : State} {n : SlotId} {i : SpoutId} {kind : Nat} (hm : s.memory.wf = true)
    (ht : s.takesPosting n) (hi : s.slotSpoutByte n = i.val) (hr : s.rests i) (hk : 2 < kind) (hb : kind < 256) :
    queueOrder react n (s.posted n kind) = serveHead (reactTo 63) i n (s.headed n kind) := by
  obtain ⟨hstage, hclaim, hqueue⟩ := hr
  have hspout : (s.posted n kind).slotSpout n = i := slotSpout_of_byte ((slotSpoutByte_posted s n kind).trans hi)
  let u := writeResult n .none .none noField (s.posted n kind)
  have hkind : u.slotKind n = kind :=
    (Memory.u8_writeBytes_other _ _ _ (.inl (by omega))).trans (slotKind_posted hm n hb)
  have hload : (u.slotKindIs n .load || u.slotKindIs n .twin) = false := by
    simp only [State.slotKindIs, hkind, Kind.value, Bool.or_eq_false_iff, beq_eq_false_iff_ne]; omega
  have hjoined : queueOrder react n (s.posted n kind) = react (.idle i) ((s.headed n kind).setQueue i [n]) := by
    unfold queueOrder; dsimp only
    rw [hload, hspout, if_neg Bool.false_ne_true]
    show react (.idle i) (writeSlotState n .queued (u.setQueue i (s.queue i ++ [n]))) = _
    rw [hqueue]; rfl
  have hback : ((s.headed n kind).setQueue i [n]).setQueue i [] = s.headed n kind := by
    rw [State.setQueue, State.setQueue, State.updateSpout_updateSpout]
    apply State.updateSpout_id
    have hq : ((s.headed n kind).spout i).queue = [] := hqueue
    rw [← hq]
  rw [hjoined, react_idle, onIdle_head _ (s := (s.headed n kind).setQueue i [n]) ht.1 (by rw [State.stage_setQueue]; exact hstage)
    (by rw [State.context_setQueue]; exact hclaim)
    (State.queue_setQueue_self _ _ _), hback]


/-! ## Refusals that do not arise -/

theorem firstBad_eq_none {checks : List (Nat × Bool)} (h : ∀ c ∈ checks, c.2 = true) : firstBad checks = none := by
  unfold firstBad
  rw [Option.map_eq_none_iff, List.find?_eq_none]
  intro c hc
  simp [h c hc]

theorem fieldsRefusal_eq_none {checks : List (Nat × Bool)} (h : ∀ c ∈ checks, c.2 = true) : fieldsRefusal checks = none := by
  rw [fieldsRefusal, firstBad_eq_none h]; rfl

theorem spoutRefusal_eq_none {s : State} {n : SlotId} {i : SpoutId} (h : s.slotSpoutByte n = i.val) :
    s.spoutRefusal n = none := by
  simp [State.spoutRefusal, require, h]

theorem faultRefusal_eq_none {s : State} {i : SpoutId} (h : s.isFaulted i = false) : s.faultRefusal i = none := by
  simp [State.faultRefusal, require, h]

theorem queueRefusal_eq_none {s : State} {i : SpoutId} (h : s.queue i = []) : s.queueRefusal i = none := by
  simp [State.queueRefusal, require, h, Config.queuePlaces]

/-! ## PROFILE -/

/-- A PROFILE served for a spout whose queue is then empty. -/
theorem serveHead_profile (d : Nat) {s : State} {n : SlotId} {i : SpoutId} (hk : s.slotKind n = 5)
    (hc : (s.context i).claim = none) (hq : s.queue i = []) :
    serveHead (reactTo d) i n s
      = (applyProfile i (s.memory.profileAt (Config.slotBase n + 0x10)) s).answered n 1 0 0xFF := by
  have hkind : Kind.ofValue (s.slotKind n) = some .profile := by rw [hk]; rfl
  unfold serveHead; rw [hkind]
  show serveProfile (reactTo d) i n s = _
  unfold serveProfile; rw [markDone_eq]
  have hctx (p : Profile) : (s.updateSpout i (Spout.applyProfile p)).context i = s.context i := by
    rw [State.context, State.spout_updateSpout_self]; rfl
  have hque (p : Profile) : (s.updateSpout i (Spout.applyProfile p)).queue i = s.queue i := by
    rw [State.queue, State.spout_updateSpout_self]; rfl
  refine reactTo_idle_of_nothing d ?_ ?_
  · exact (congrArg Context.claim (hctx _)).trans hc
  · exact (hque _).trans hq

/-- R158, R181: a PROFILE for a spout at rest. -/
theorem exec_profile_atRest {s : State} {n : SlotId} {i : SpoutId} (hm : s.memory.wf = true) (ht : s.takesPosting n)
    (hi : s.slotSpoutByte n = i.val) (hf : s.isFaulted i = false) (hr : s.rests i)
    (hc : ∀ c ∈ profileChecks 0x10 (s.memory.profileAt (Config.slotBase n + 0x10)), c.2 = true) :
    exec (.profile n) s = .next
      ((applyProfile i (s.memory.profileAt (Config.slotBase n + 0x10)) (s.headed n 5)).answered n 1 0 0xFF) := by
  have hpost := (sameMemoryOutside_posted s n 5).profileAt_eq (x := Config.slotBase n + 0x10) (by omega)
  have hhead := (sameMemoryOutside_headed s n 5).profileAt_eq (x := Config.slotBase n + 0x10) (by omega)
  have hbyte := (slotSpoutByte_posted s n 5).trans hi
  have hnone : (s.posted n 5).profileOrderRefusal n = none := by
    unfold State.profileOrderRefusal; dsimp only
    rw [hpost, slotSpout_of_byte hbyte, fieldsRefusal_eq_none hc, spoutRefusal_eq_none hbyte, faultRefusal_eq_none (s := s.posted n 5) hf,
      queueRefusal_eq_none (s := s.posted n 5) hr.2.2]
    rfl
  have hexec : exec (.profile n) s = .next (postSlot n 5 (takeProfile react n) s) := rfl
  rw [hexec, postSlot_taken ht, takeProfile, hnone, takeOrder_accepted,
    queueOrder_atRest hm ht hi hr (by decide) (by decide),
    serveHead_profile 63 (slotKind_headed hm n (by decide)) hr.2.1 hr.2.2, hhead]

/-- R86, R96: an applied profile abandons a short capture. -/
theorem Calibration.applyProfile_short (p : Profile) {c : Calibration} (h : c.capture = .shortInterval ∨ c.capture = .shortSettle) :
    (c.applyProfile p).capture = .none ∧ (c.applyProfile p).captureCount = 0 ∧ (c.applyProfile p).captureSum = 0
      ∧ (c.applyProfile p).zeroTimeout = none := by
  have hs : c.capture.isShort = true := by obtain h | h := h <;> rw [h] <;> rfl
  unfold Calibration.applyProfile
  rw [if_pos hs]; exact ⟨rfl, rfl, rfl, rfl⟩

/-! ## SEED -/

theorem spout_seedEntry (i : SpoutId) (p : ProductId) (lag : Nat) (s : State) (j : SpoutId) :
    (seedEntry i p lag s).spout j = s.spout j := (sameButMemory_writeStamped ..).spout j

/-- A SEED served for a spout whose queue is then empty. -/
theorem serveHead_seed (d : Nat) {s : State} {n : SlotId} {i : SpoutId} (hk : s.slotKind n = 7)
    (hc : (s.context i).claim = none) (hq : s.queue i = []) :
    serveHead (reactTo d) i n s
      = (seedEntry i (Fin.ofNat 16 (s.slotU8 n 0x10)) (s.slotU16 n 0x12) s).answered n 1 0 0xFF := by
  have hkind : Kind.ofValue (s.slotKind n) = some .seed := by rw [hk]; rfl
  unfold serveHead; rw [hkind]
  show serveSeed (reactTo d) i n s = _
  unfold serveSeed; rw [markDone_eq]
  refine reactTo_idle_of_nothing d ?_ ?_
  · rw [State.context, spout_answered, spout_seedEntry]; exact hc
  · rw [State.queue, spout_answered, spout_seedEntry]; exact hq

/-- R158, R185: a SEED for a spout at rest. -/
theorem exec_seed_atRest {s : State} {n : SlotId} {i : SpoutId} {p : ProductId} (hm : s.memory.wf = true)
    (ht : s.takesPosting n) (hi : s.slotSpoutByte n = i.val) (hp : s.slotU8 n 0x10 = p.val) (hl : s.slotU16 n 0x12 ≤ 5000)
    (hf : s.isFaulted i = false) (hr : s.rests i) :
    exec (.seed n) s = .next ((seedEntry i p (s.slotU16 n 0x12) (s.headed n 7)).answered n 1 0 0xFF) := by
  have hp' : (s.posted n 7).slotU8 n 0x10 = p.val := (u8_posted s n n 7 0x10 (.inr (by omega)) (by omega)).trans hp
  have hl' : (s.posted n 7).slotU16 n 0x12 = s.slotU16 n 0x12 := u16_posted s n 7 0x12 (by omega)
  have hph : (s.headed n 7).slotU8 n 0x10 = p.val := ((sameMemoryOutside_headed s n 7).u8_eq (by omega)).trans hp
  have hlh : (s.headed n 7).slotU16 n 0x12 = s.slotU16 n 0x12 := (sameMemoryOutside_headed s n 7).u16_eq (by omega)
  have hbyte := (slotSpoutByte_posted s n 7).trans hi
  have hprod : Fin.ofNat 16 p.val = p := Fin.ext (Nat.mod_eq_of_lt p.isLt)
  have hchecks : ∀ c ∈ [(0x10, inRange 0 15 p.val), (0x12, inRange 0 5000 (s.slotU16 n 0x12))], c.2 = true := by
    have hlt := p.isLt
    simp only [List.mem_cons, List.not_mem_nil, or_false, forall_eq_or_imp, forall_eq, inRange, Bool.and_eq_true,
      decide_eq_true_eq]
    omega
  have hnone : (s.posted n 7).seedRefusal n = none := by
    unfold State.seedRefusal; dsimp only
    rw [hp', hl', slotSpout_of_byte hbyte, fieldsRefusal_eq_none hchecks, spoutRefusal_eq_none hbyte,
      faultRefusal_eq_none (s := s.posted n 7) hf, queueRefusal_eq_none (s := s.posted n 7) hr.2.2]
    rfl
  have hexec : exec (.seed n) s = .next (postSlot n 7 (takeSeed react n) s) := rfl
  rw [hexec, postSlot_taken ht, takeSeed, hnone, takeOrder_accepted, queueOrder_atRest hm ht hi hr (by decide) (by decide),
    serveHead_seed 63 (slotKind_headed hm n (by decide)) hr.2.1 hr.2.2, hph, hlh, hprod]


/-! ## An image, then the answer -/

theorem SameButMemory.sameTables {s t : State} (h : SameButMemory s t) : SameTables s t := ⟨h.products, h.preact, h.pending⟩

theorem SameTables.trans {s t u : State} (h : SameTables s t) (h' : SameTables t u) : SameTables s u :=
  ⟨h'.1.trans h.1, h'.2.1.trans h.2.1, h'.2.2.trans h.2.2⟩

theorem sameTables_answered (s : State) (n : SlotId) (result reason index : Nat) :
    SameTables s (s.answered n result reason index) := ⟨rfl, rfl, rfl⟩

/-- A handling ends with an image written under its stamp, below the slots, and its slot DONE OK. -/
theorem image_answered {u : State} (hu : u.memory.wf = true) (n : SlotId) {base : Nat} (fields : List Byte)
    (hb : base + 2 + fields.length ≤ 4096) :
    let t := (writeStamped base fields u).answered n 1 0 0xFF
    t.slotStateByte n = 4 ∧ t.slotU8 n 3 = 1 ∧ t.holds (base + 2) fields
      ∧ t.memory.u16 base = (u.memory.u16 base + 2) % 65536 ∧ SameSpouts u t ∧ SameTables u t := by
  have hw := wf_writeStamped base fields hu
  have hsame := sameButMemory_writeStamped base fields u
  have hslot := sameMemoryOutside_answered (writeStamped base fields u) n 1 0 0xFF
  rw [slotBase_eq] at hslot
  refine ⟨slotStateByte_answered hw .., result_answered hw .., hslot.holds (holds_writeStamped base fields hu) (.inl ?_), ?_,
    fun j => (spout_answered ..).trans (hsame.spout j), hsame.sameTables.trans (sameTables_answered ..)⟩
  · omega
  · rw [hslot.u16_eq (.inl (by omega)), stamp_writeStamped _ _ hu]

/-- R74, R188: an image's stamp as a posting meets it. -/
theorem u16_headed_below (s : State) (n : SlotId) (kind : Nat) {a : Nat} (ha : a + 2 ≤ 4096) :
    (s.headed n kind).memory.u16 a = s.memory.u16 a :=
  (sameMemoryOutside_headed s n kind).u16_eq (.inl (by rw [slotBase_eq]; omega))

/-- R9, R181, R188: the state after a PROFILE at rest. -/
theorem profile_applied {s : State} (n : SlotId) (i : SpoutId) (p : Profile) (hm : s.memory.wf = true) :
    let t := (applyProfile i p (s.headed n 5)).answered n 1 0 0xFF
    t.slotStateByte n = 4 ∧ t.slotU8 n 3 = 1 ∧ t.spout i = (s.spout i).applyProfile p
      ∧ t.holds (0x0302 + 96 * i.val) (profileFields true p)
      ∧ t.memory.u16 (0x0300 + 96 * i.val) = (s.memory.u16 (0x0300 + 96 * i.val) + 2) % 65536
      ∧ SameOtherSpouts i s t ∧ SameTables s t := by
  let u := (s.headed n 5).updateSpout i (Spout.applyProfile p)
  have hui : u.spout i = (s.spout i).applyProfile p := State.spout_updateSpout_self ..
  have hi := i.isLt
  have himage : applyProfile i p (s.headed n 5) = writeStamped (0x0300 + 96 * i.val) (profileFields true p) u := by
    have hbase : Config.profileImageBase i = 0x0300 + 96 * i.val := by rw [Config.profileImageBase]; omega
    show writeStamped (Config.profileImageBase i) (profileFields (u.calibration i).profileValid (u.calibration i).profile) u = _
    rw [hbase, State.calibration, hui]; rfl
  have hstamp : u.memory.u16 (0x0300 + 96 * i.val) = s.memory.u16 (0x0300 + 96 * i.val) :=
    u16_headed_below s n 5 (by omega)
  rw [himage]
  obtain ⟨hstate, hresult, hholds, hstamps, hspouts, htables⟩ := image_answered (u := u) (wf_headed hm n 5) n
    (base := 0x0300 + 96 * i.val) (profileFields true p) (by rw [length_profileFields]; omega)
  rw [hstamp] at hstamps
  rw [Nat.add_right_comm] at hholds
  exact ⟨hstate, hresult, (hspouts i).trans hui, hholds, hstamps,
    fun j hj => (hspouts j).trans (State.spout_updateSpout_ne _ hj _), htables⟩

/-- R74, R75, R185: the state after a SEED at rest. -/
theorem seed_applied {s : State} (n : SlotId) (i : SpoutId) (p : ProductId) (lag : Nat) (hm : s.memory.wf = true) :
    let e := preactIndex i p
    let t := (seedEntry i p lag (s.headed n 7)).answered n 1 0 0xFF
    t.slotStateByte n = 4 ∧ t.slotU8 n 3 = 1
      ∧ t.preact = s.preact.set e { s.preact[e] with lag := lag, origin := .seeded }
      ∧ t.holds (0x0802 + 16 * e.val) (preactFields t.preact[e])
      ∧ t.memory.u16 (0x0800 + 16 * e.val) = (s.memory.u16 (0x0800 + 16 * e.val) + 2) % 65536
      ∧ SameSpouts s t ∧ t.products = s.products ∧ t.pending = s.pending := by
  intro e
  let v : PreactEntry := { s.preact[e] with lag := lag, origin := .seeded }
  let u : State := { s.headed n 7 with preact := s.preact.set e v }
  have hue : u.preact[e] = v := by simp [u]
  have he := e.isLt
  have himage : seedEntry i p lag (s.headed n 7) = writeStamped (0x0800 + 16 * e.val) (preactFields u.preact[e]) u := by
    have hbase : Config.preactImageBase e = 0x0800 + 16 * e.val := by rw [Config.preactImageBase]; omega
    show writeStamped (Config.preactImageBase e) (preactFields u.preact[e]) u = _
    rw [hbase]
  have hstamp : u.memory.u16 (0x0800 + 16 * e.val) = s.memory.u16 (0x0800 + 16 * e.val) :=
    u16_headed_below s n 7 (by omega)
  rw [himage]
  obtain ⟨hstate, hresult, hholds, hstamps, hspouts, hproducts, hpreact, hpending⟩ :=
    image_answered (u := u) (wf_headed hm n 7) n (base := 0x0800 + 16 * e.val) (preactFields u.preact[e])
      (by rw [length_preactFields]; omega)
  rw [hstamp] at hstamps
  rw [Nat.add_right_comm] at hholds
  refine ⟨hstate, hresult, hpreact, ?_, hstamps, fun j => hspouts j, hproducts, hpending⟩
  rw [hpreact]; exact hholds

/-- Settles O20: each posting is one whole next state, read field by field. -/
theorem profileAndSeedAreApplied : Obligations.ProfileAndSeedAreApplied := by
  refine ⟨fun n i s hm ht hi hf hr => ?_, fun n i p s hm ht hi hp hl hf hr => ?_⟩
  · intro p hc
    obtain ⟨hstate, hresult, hspout, himage, hstamp, hother, htables⟩ := profile_applied n i p hm
    have hcal : ((applyProfile i p (s.headed n 5)).answered n 1 0 0xFF).calibration i
        = (s.calibration i).applyProfile p := congrArg Spout.calibration hspout
    have hque := (congrArg Spout.queue hspout :)
    refine ⟨_, exec_profile_atRest hm ht hi hf hr hc, hstate, hresult, ?_, ?_, ?_, ?_, ?_, ?_, ?_, fun h => ?_,
      congrArg Spout.channel hspout, himage, hstamp, (congrArg Spout.context hspout :), (congrArg Spout.positioner hspout :),
      (congrArg Spout.receiver hspout :), (congrArg Spout.field hspout :), hque.trans hr.2.2, hother, htables⟩
    all_goals rw [hcal]
    iterate 7 rfl
    exact Calibration.applyProfile_short p h
  · intro e
    obtain ⟨hstate, hresult, hpreact, himage, hstamp, hspouts, hproducts, hpending⟩ :=
      seed_applied n i p (s.slotU16 n 0x12) hm
    refine ⟨_, exec_seed_atRest hm ht hi hp hl hf hr, hstate, hresult, ?_, himage, hstamp, fun e' he' => ?_, hspouts,
      hproducts, hpending⟩
    · rw [hpreact]; simp [e]
    · have hne : (e : Nat) ≠ e' := fun h => he' (Fin.ext h.symm)
      rw [hpreact]; simp [e] at hne ⊢; simp [hne]

end Sys2Proof.Machine

/-! What the reactions of one action can do where no sample is delivered (R5, R27): `Kept` lets any channel start, this layer says
that integration starts on ENGAGED spouts alone, so that a FAULTED spout's channel keeps its mass. -/

namespace Sys2Proof.Machine

/-- A property that the reactions of one action keep: a channel may end its integration, and may start on an ENGAGED spout. -/
structure KeptByReaction (P : State → Prop) : Prop where
  memory : ∀ s m, P s → P { s with memory := m }
  done : ∀ s, P s → P (raiseDoneCount s)
  start : ∀ s i, (s.positioner i).position = .engaged → P s → P (startIntegration i s)
  finish : ∀ s i, P s → P (endIntegration i s)
  profile : ∀ s i v, P s → P (s.updateSpout i (Spout.applyProfile v))
  calibration : ∀ s i f, P s → P (s.updateCalibration i f)
  positioner : ∀ s i f, PositionerStep (s.positioner i) (f (s.positioner i)) → P s → P (s.updatePositioner i f)
  context : ∀ s i f, P s → P (s.updateContext i f)
  queue : ∀ s i q, q.Sublist (s.queue i) → P s → P (s.setQueue i q)
  preact : ∀ s v, P s → P { s with preact := v }
  freeCount : ∀ s n, P s → P { s with freeCount := n }

theorem sameButMemory_stepThrough (n : SlotId) (o : OrderState) (l : List OrderEntry) (e : Nat) (s : State) :
    SameButMemory s (stepThrough n o e l s).1 := by
  induction l generalizing e s with
  | nil => exact .refl s
  | cons x l ih =>
    unfold stepThrough; split
    · exact ((sameButMemory_writeEntryCode ..).trans (sameButMemory_writeProgress ..)).trans (ih _ _)
    · dsimp only; split
      · exact .refl s
      · exact (sameButMemory_foldl _ (fun _ _ => sameButMemory_writeEntryCode ..) _ s).trans
          (sameButMemory_writeProgress ..)

@[simp] theorem positioner_setMemberPhase (s : State) (o m j : SpoutId) (x : Phase) :
    (setMemberPhase o m x s).positioner j = s.positioner j := by
  unfold setMemberPhase setPhase; dsimp only; split_ifs <;> simp

namespace KeptByReaction

variable {P : State → Prop} (h : KeptByReaction P)
include h

/-! ## Memory, slots, contexts -/

theorem sameButMemory {s t : State} (e : SameButMemory s t) (hs : P s) : P t := by
  obtain ⟨m, rfl⟩ := e; exact h.memory s m hs

theorem writeMemory (a : Nat) (b : List Byte) {s : State} (hs : P s) : P (s.writeMemory a b) := h.memory _ _ hs

theorem refreshPanel (i : SpoutId) {s : State} (hs : P s) : P (refreshPanel i s) :=
  h.sameButMemory (sameButMemory_refreshPanel i s) hs

theorem finishSlot (n : SlotId) (r : Result) (why : Reason) (index : Nat) {s : State} (hs : P s) :
    P (finishSlot n r why index s) := h.done _ (h.writeMemory _ _ (h.writeMemory _ _ hs))

theorem markDone (n : SlotId) (r : Result) {s : State} (hs : P s) : P (markDone n r s) := h.finishSlot _ _ _ _ hs

theorem setStage (i : SpoutId) (x : Stage) {s : State} (hs : P s) : P (setStage i x s) := by
  unfold Machine.setStage; dsimp only; split
  · exact h.context _ _ _ hs
  · exact h.refreshPanel _ (h.context _ _ _ hs)

theorem setPhase (i : SpoutId) (x : Phase) {s : State} (hs : P s) : P (setPhase i x s) := by
  unfold Machine.setPhase; dsimp only; split
  · exact h.context _ _ _ hs
  · exact h.refreshPanel _ (h.context _ _ _ hs)

theorem setMemberPhase (o m : SpoutId) (x : Phase) {s : State} (hs : P s) : P (setMemberPhase o m x s) := by
  unfold Machine.setMemberPhase; split
  · exact hs
  · exact h.setPhase _ _ hs

theorem updateCompartment (i : SpoutId) (f : Compartment → Compartment) {s : State} (hs : P s) :
    P (s.updateCompartment i f) := h.context _ _ _ hs
theorem updateOrder (i : SpoutId) (f : OrderState → OrderState) {s : State} (hs : P s) : P (s.updateOrder i f) :=
  h.context _ _ _ hs
theorem updateGate (i : SpoutId) (f : GateUnit → GateUnit) {s : State} (hs : P s) : P (s.updateGate i f) :=
  h.context _ _ _ hs
theorem markOrder (i : SpoutId) (m : EndMark) {s : State} (hs : P s) : P (markOrder i m s) := h.updateOrder _ _ hs

theorem writePreact (e : Fin 128) (v : PreactEntry) {s : State} (hs : P s) : P (writePreact e v s) :=
  h.sameButMemory (sameButMemory_writeStamped ..) (h.preact _ _ hs)

theorem dropCapture (i : SpoutId) {s : State} (hs : P s) : P (dropCapture i s) := h.calibration _ _ _ hs
theorem startCapture (i : SpoutId) (kind : Capture) {s : State} (hs : P s) : P (startCapture i kind s) :=
  h.calibration _ _ _ hs

/-! ## The positioner -/

variable {k : Reaction} (hk : KeepsReaction P k)

theorem updatePosition (i : SpoutId) (f : Positioner → Positioner) {s : State}
    (hf : PositionerStep (s.positioner i) (f (s.positioner i))) (hs : P s) : P (updatePosition i f s) := by
  unfold Machine.updatePosition; dsimp only; split
  · exact h.positioner _ _ _ hf hs
  · exact h.refreshPanel _ (h.positioner _ _ _ hf hs)

include hk

theorem testLowered (i : SpoutId) {s : State} (hs : P s) : P (testLowered k i s) := by
  unfold Machine.testLowered; split
  · next c => exact hk _ _ (h.updatePosition _ _ (.engaged _ c.1) hs)
  · exact hs

theorem lowerSpout (i : SpoutId) {s : State} (hp : (s.positioner i).position = .released) (hs : P s) :
    P (lowerSpout k i s) := h.testLowered hk i (h.updatePosition _ _ (.lower _ _ hp) hs)

theorem testRaised (i : SpoutId) {s : State} (hs : P s) : P (testRaised k i s) := by
  unfold Machine.testRaised; dsimp only; split
  · next c =>
    have hraised := h.updatePosition i (fun p => { p.arrive .released with engageWaiting := false })
      (.raised (s.positioner i) c.1) hs
    split
    · exact h.lowerSpout hk i (by simp [Positioner.arrive]) hraised
    · exact hk _ _ hraised
  · exact hs

theorem raiseSpout (i : SpoutId) {s : State} (hp : (s.positioner i).position ≠ .faulted) (hs : P s) :
    P (raiseSpout k i s) := h.testRaised hk i (h.updatePosition _ _ (.raise _ _ hp) hs)

theorem engageRequest (i : SpoutId) {s : State} (hs : P s) : P (engageRequest k i s) := by
  unfold Machine.engageRequest; split
  · next c => exact h.lowerSpout hk i c hs
  · next c => exact h.positioner _ _ _ (.waiting _ _ _ fun _ => .inl c) hs
  · exact hs
  · exact hk _ _ hs
  · exact hk _ _ hs
  · exact h.positioner _ _ _ (.waiting _ _ _ .inr) hs

theorem releaseRequest (i : SpoutId) {s : State} (hs : P s) : P (releaseRequest k i s) := by
  unfold Machine.releaseRequest; split
  · next c => exact h.raiseSpout hk i (by simp [c]) hs
  · next c => exact h.raiseSpout hk i (by simp [c]) hs
  · exact h.positioner _ _ _ (.waiting _ false _ (by simp)) hs
  · exact hk _ _ hs
  · exact hk _ _ hs
  · exact h.positioner _ _ _ (.waiting _ _ _ .inr) hs

/-! ## Load orders -/

omit hk in
theorem restContext (i : SpoutId) {s : State} (hs : P s) : P (restContext i s) := h.setStage _ _ (h.context _ _ _ hs)

omit hk in
theorem leaveBound (f : SpoutId) {s : State} (hs : P s) : P (leaveBound f s) := h.restContext _ (h.context _ _ _ hs)

omit hk in
theorem closeOrderSlot (n : SlotId) (o : OrderState) {s : State} (hs : P s) : P (closeOrderSlot n o s) :=
  h.markDone _ _ (h.sameButMemory (sameButMemory_closeEntries ..) hs)

omit hk in
theorem freeFollower (f : SpoutId) {s : State} (hs : P s) : P (freeFollower f s) := by
  unfold Machine.freeFollower; split
  · exact h.leaveBound _ hs
  · exact h.context _ _ _ hs

theorem endOrder (i : SpoutId) {s : State} (hs : P s) : P (endOrder k i s) := by
  unfold Machine.endOrder; dsimp only; split
  · split
    · exact hk _ _ (hk _ _ (h.freeFollower _ (h.restContext _ (h.closeOrderSlot _ _ hs))))
    · exact hk _ _ (hk _ _ (h.freeFollower _ (h.restContext _ hs)))
  · split
    · exact hk _ _ (h.restContext _ (h.closeOrderSlot _ _ hs))
    · exact hk _ _ (h.restContext _ hs)

omit hk in
theorem withdrawClaim (f : SpoutId) {s : State} (hs : P s) : P (withdrawClaim f s) := by
  unfold Machine.withdrawClaim; split
  · exact hs
  · exact h.context _ _ _ hs

omit hk in
theorem resetSlot (n : SlotId) (o : OrderState) {s : State} (hs : P s) :
    P (writeResult n .reset .none noField (closeEntries n o.count o.total s)) :=
  h.writeMemory _ _ (h.sameButMemory (sameButMemory_closeEntries ..) hs)

omit hk in
theorem resetRest (i : SpoutId) {s : State} (hs : P s) : P (resetRest i s) := by
  unfold Machine.resetRest; dsimp only; split
  · split
    · exact h.withdrawClaim _ (h.restContext _ (h.resetSlot _ _ hs))
    · exact h.withdrawClaim _ (h.restContext _ hs)
  · split
    · exact h.restContext _ (h.resetSlot _ _ hs)
    · exact h.restContext _ hs

theorem concludeOrder (i : SpoutId) {s : State} (hs : P s) : P (concludeOrder k i s) := by
  unfold Machine.concludeOrder; split
  · exact h.resetRest _ hs
  · exact h.endOrder hk _ hs

theorem testIndex (i : SpoutId) {s : State} (hs : P s) : P (testIndex k i s) := by
  have henter : ∀ {t : State}, P t → P (enterEngaging i t) := fun ht =>
    h.setStage _ _ (h.dropCapture _ (h.updateOrder _ _ ht))
  unfold Machine.testIndex; split
  · unfold beginEngaging; dsimp only; split
    · have hboth := h.engageRequest hk i (henter (h.setPhase (followerOf i) .engaging (h.dropCapture (followerOf i) hs)))
      unfold engageFollower; dsimp only; split
      · exact h.engageRequest hk _ hboth
      · exact hboth
    · exact h.engageRequest hk _ (henter hs)
  · exact hs

theorem placeClaim (i : SpoutId) (n : SlotId) {s : State} (hs : P s) : P (placeClaim k i n s) := by
  unfold Machine.placeClaim; dsimp only; split
  · exact h.endOrder hk _ (h.markOrder _ _ hs)
  · exact hk _ _ (h.context _ _ _ hs)

theorem enterWaitIndex (i : SpoutId) {s : State} (hs : P s) : P (enterWaitIndex k i s) := by
  have htimer : P (startIndexTimer i s) := h.updateOrder _ _ hs
  unfold Machine.enterWaitIndex; dsimp only; split
  · exact h.testIndex hk _ (h.setStage _ _ (h.setPhase _ _ (h.updateCompartment _ _ htimer)))
  · exact h.testIndex hk _ (h.setStage _ _ htimer)

theorem stepFrom (i : SpoutId) (n : SlotId) (e : Nat) (first : Bool) {s : State} (hs : P s) :
    P (stepFrom k i n e first s) := by
  have hstepped := h.sameButMemory (sameButMemory_stepThrough n (s.order i) ((s.order i).entries.drop e) e s) hs
  unfold Machine.stepFrom; dsimp only; split
  · next t c => rw [c] at hstepped; exact h.endOrder hk _ hstepped
  · next t e' eff c =>
    rw [c] at hstepped
    split
    · exact h.placeClaim hk _ _ (h.setStage _ _ (h.updateCompartment _ _ hstepped))
    · exact h.enterWaitIndex hk _ (h.updateCompartment _ _ hstepped)

theorem becomeRunning (i : SpoutId) (n : SlotId) (twin : Bool) {s : State} (hs : P s) : P (becomeRunning k i n twin s) :=
  h.stepFrom hk _ _ _ _ (h.context _ _ _ (h.writeMemory _ _ hs))

theorem grantClaim (f : SpoutId) (c : Claim) {s : State} (hs : P s) : P (grantClaim k f c s) :=
  h.testIndex hk _ (h.updateOrder _ _ (h.setStage _ _ (h.context _ _ _ hs)))

/-! ## The end of a compartment -/

theorem leaveReleasing (o : SpoutId) {s : State} (hs : P s) : P (leaveReleasing k o s) := by
  unfold Machine.leaveReleasing; split
  · exact h.stepFrom hk _ _ _ _ hs
  · exact h.concludeOrder hk _ hs

theorem releaseCheck (o : SpoutId) {s : State} (hs : P s) : P (releaseCheck k o s) := by
  unfold Machine.releaseCheck; split
  · exact h.leaveReleasing hk _ hs
  · exact hs

omit hk in
theorem enterReleasing (o : SpoutId) (settled : Bool) {s : State} (hs : P s) : P (enterReleasing o settled s) := by
  refine forMembers_kept _ (fun m t ht => ?_) (forMembers_kept _ (fun _ _ ht => h.setMemberPhase _ _ _ ht)
    (h.setStage _ _ (forMembers_kept _ (fun _ _ ht => h.updateCompartment _ _ ht) (h.updateOrder _ _ hs))))
  unfold startSettleCapture; split
  · exact h.startCapture _ _ ht
  · exact ht

theorem startRelease (o : SpoutId) (settled : Bool) {s : State} (hs : P s) : P (startRelease k o settled s) := by
  unfold Machine.startRelease; split
  · exact h.concludeOrder hk _ hs
  · refine h.releaseCheck hk _ (forMembers_kept _ (fun m t ht => ?_) (h.enterReleasing _ _ hs))
    unfold requestRelease; split
    · exact h.releaseRequest hk _ ht
    · exact ht

theorem onReleased (i : SpoutId) {s : State} (hs : P s) : P (onReleased k i s) := by
  unfold Machine.onReleased; dsimp only; split
  · exact h.releaseCheck hk _ (h.updateCompartment _ _ hs)
  · exact hs

omit hk in
theorem takeFinal (o : SpoutId) {s : State} (hs : P s) : P (takeFinal o s).1 := by
  unfold Machine.takeFinal; split
  · split
    · exact hs
    · exact h.freeCount _ _ hs
  · exact hs

omit hk in
theorem recordEntry (o : SpoutId) (code : Code) (final : Nat) {s : State} (hs : P s) : P (recordEntry o code final s) := by
  have htotal := h.updateOrder o (fun x => { x with total := x.total + final }) hs
  unfold Machine.recordEntry; dsimp only; split
  · exact h.sameButMemory ((sameButMemory_writeEntry ..).trans (sameButMemory_writeProgress ..)) htotal
  · exact htotal

omit hk in
theorem handRecord (o : SpoutId) (code : Code) (final : Nat) (settled : Bool) {s : State} (hs : P s) :
    P (handRecord o code final settled s) := by
  unfold Machine.handRecord; split
  · split
    · unfold learnRecord; split
      · exact hs
      · split
        · exact h.writePreact _ _ hs
        · exact hs
    · exact hs
  · exact hs

theorem finishCompartment (o : SpoutId) (settled : Bool) {s : State} (hs : P s) : P (finishCompartment k o settled s) := by
  have hfinal := h.takeFinal o (forMembers_kept o (f := endIntegration) (fun i t ht => h.finish t i ht) hs)
  have hended (code : Code) (final : Nat) := h.handRecord o code final settled
    (h.markOrder o code.mark (h.recordEntry o code final hfinal))
  unfold Machine.finishCompartment; dsimp only; split
  · exact h.resetRest _ (hended _ _)
  · exact h.startRelease hk _ _ (hended _ _)

theorem endUnopened (o : SpoutId) (code : Code) {s : State} (hs : P s) : P (endUnopened k o code s) :=
  h.finishCompartment hk _ _ (h.updateCompartment _ _ (forMembers_kept _ (fun _ _ ht => h.dropCapture _ ht) hs))

/-! ## The opening of a compartment -/

omit hk in
theorem cutGate (i : SpoutId) {s : State} (hs : P s) : P (cutGate i s) := by
  unfold Machine.cutGate setCloseAwaited; exact h.updateCompartment _ _ (h.updateGate _ _ hs)

omit hk in
theorem cutMember (o m : SpoutId) {s : State} (hs : P s) : P (cutMember o m s) := by
  unfold Machine.cutMember; split
  · exact h.setMemberPhase _ _ _ (h.cutGate _ hs)
  · exact hs

omit hk in
theorem cut (o : SpoutId) (reason : Option Code) {s : State} (hs : P s) : P (cut o reason s) :=
  h.setStage _ _ (h.updateCompartment _ _ (forMembers_kept _ (fun _ _ ht => h.cutMember _ _ ht) hs))

omit hk in
theorem verifyOpening (i : SpoutId) {s : State} (hs : P s) : P (verifyOpening i s) := by
  have hverified := h.setMemberPhase (s.ownerOf i) i .feeding (h.updateCompartment i (fun c => { c with starveCount := 0 })
    (h.updateGate i (GateUnit.verify (s.profile i).starveWindow) hs))
  unfold Machine.verifyOpening; dsimp only; split
  · exact h.setStage _ _ hverified
  · exact hverified

omit hk in
/-- R27 step 5, R56: each spout that opens is ENGAGED. -/
theorem openMembers (o : SpoutId) (output : GateOutput) (l : List SpoutId) {s : State}
    (he : ∀ m ∈ l, (s.positioner m).position = .engaged) (hs : P s) :
    P (l.foldl (fun t m => Machine.setMemberPhase o m .opening (openGate m output (startIntegration m t))) s) := by
  induction l generalizing s with
  | nil => exact hs
  | cons m l ih =>
    refine ih (fun j hj => ?_) (h.setMemberPhase _ _ _ (h.updateGate _ _ (h.start _ _ (he m List.mem_cons_self) hs)))
    rw [positioner_setMemberPhase, openGate, startIntegration, State.positioner_updateGate, State.positioner_updateChannel]
    exact he j (List.mem_cons_of_mem _ hj)

omit hk in
theorem openCompartment (o : SpoutId) {s : State} (he : ∀ m ∈ s.members o, (s.positioner m).position = .engaged) (hs : P s) :
    P (openCompartment o s) := by
  have hopened := h.updateCompartment o (fun c => { c with opened := true }) hs
  have hmembers : (s.updateCompartment o fun c => { c with opened := true }).members o = s.members o := by
    simp [State.members, State.isTwin]
  refine forMembers_kept _ (fun m t ht => ?_) (h.setStage _ _ (h.openMembers o _ _ (fun m hm => ?_) hopened))
  · split
    · exact h.verifyOpening _ ht
    · exact ht
  · rw [hmembers] at hm
    rw [State.positioner_updateCompartment]; exact he m hm

theorem checkOpening (o : SpoutId) {s : State} (hs : P s) : P (checkOpening k o s) := by
  unfold Machine.checkOpening; dsimp only
  split
  · exact h.endUnopened hk _ _ hs
  split
  · exact h.endUnopened hk _ _ hs
  split
  · exact h.endUnopened hk _ _ hs
  split
  · exact h.endUnopened hk _ _ hs
  next hengaged =>
  split
  · refine h.setStage _ _ (h.updateCompartment _ _ (forMembers_kept _ (fun _ _ ht => ?_) hs))
    split
    · exact ht
    · exact h.setMemberPhase _ _ _ (h.cutGate _ ht)
  · exact h.openCompartment _ (by simpa using hengaged) hs

theorem onEngaged (i : SpoutId) {s : State} (hs : P s) : P (onEngaged k i s) := by
  have hclear {o : SpoutId} {t : State} (ht : P t) : P (clearCompartment o t) := by
    refine forMembers_kept _ (fun _ _ hu => h.context _ _ _ hu) ?_
    split
    · exact h.writeMemory _ _ ht
    · exact ht
  have hstart {o : SpoutId} {t : State} (ht : P t) : P (startCompartment k o t) := by
    unfold startCompartment; dsimp only; split
    · exact h.checkOpening hk _ (hclear ht)
    · exact foldl_kept _ (fun _ _ hu => h.setMemberPhase _ _ _ (h.startCapture _ _ hu)) _ (h.setStage _ _ (hclear ht))
  have hreported := h.updateCompartment i (fun c => { c with engagedReported := true }) hs
  unfold Machine.onEngaged; dsimp only; split
  · split
    · exact hstart hreported
    · exact hreported
  · exact hs

/-! ## Service at a queue head -/

theorem serveZero (i : SpoutId) (n : SlotId) {s : State} (hs : P s) : P (serveZero k i n s) := by
  unfold Machine.serveZero; split
  · exact h.startCapture _ _ (h.setStage _ _ (h.dropCapture _ (h.context _ _ _ (h.writeMemory _ _ hs))))
  · exact hk _ _ (h.finishSlot _ _ _ _ hs)

theorem endZeroRun (i : SpoutId) (r : Result) (before : Int) {s : State} (hs : P s) : P (endZeroRun k i r before s) := by
  unfold Machine.endZeroRun; dsimp only; split
  · exact hk _ _ (h.restContext _ (h.markDone _ _ (h.writeMemory _ _ (h.dropCapture _ hs))))
  · exact hk _ _ (h.restContext _ (h.dropCapture _ hs))

theorem serveHead (i : SpoutId) (n : SlotId) {s : State} (hs : P s) : P (serveHead k i n s) := by
  unfold Machine.serveHead; split
  · exact h.becomeRunning hk _ _ _ hs
  · exact h.becomeRunning hk _ _ _ hs
  · exact h.serveZero hk _ _ hs
  · exact hk _ _ (h.markDone _ _ (h.writeMemory _ _ (h.calibration _ _ _ hs)))
  · exact hk _ _ (h.markDone _ _ (h.sameButMemory (sameButMemory_writeStamped ..) (h.profile _ _ _ hs)))
  · exact hk _ _ (h.markDone _ _ (h.writePreact _ _ hs))
  · exact hs

theorem onIdle (i : SpoutId) {s : State} (hs : P s) : P (onIdle k i s) := by
  unfold Machine.onIdle; split
  · split
    · exact h.grantClaim hk _ _ hs
    · next c => exact h.serveHead hk _ _ (h.queue _ _ _ (by rw [c]; exact List.sublist_cons_self _ _) hs)
    · exact hs
  · exact hs

/-! ## Faults -/

theorem withdrawClaimOn (f : SpoutId) {s : State} (hs : P s) : P (withdrawClaimOn k f s) := by
  unfold Machine.withdrawClaimOn; split
  · split
    · exact hs
    · exact h.endOrder hk _ (h.markOrder _ _ hs)
  · exact hs

omit hk in
theorem freezeChannel (i : SpoutId) (cause : FaultCause) {s : State} (hs : P s) : P (freezeChannel i cause s) := by
  unfold Machine.freezeChannel; split
  · exact hs
  · exact h.finish _ _ hs

theorem faultAlone (o : SpoutId) (cause : FaultCause) {s : State} (hs : P s) : P (faultAlone k o cause s) := by
  have hf := h.freezeChannel o cause hs
  unfold Machine.faultAlone; dsimp only; split
  · split_ifs
    · exact h.finishCompartment hk _ _ (h.updateCompartment _ _ hf)
    · exact h.updateCompartment _ _ hf
    · exact h.updateCompartment _ _ (h.updateCompartment _ _ hf)
  · split_ifs
    · exact h.updateCompartment _ _ hf
    · exact h.finishCompartment hk _ _ (h.updateCompartment _ _ hf)
  · exact h.updateCompartment _ _ (h.cut _ _ hf)

omit hk in
theorem interlock (o : SpoutId) (code : Code) {s : State} (hs : P s) : P (interlock o code s) := by
  unfold Machine.interlock; split
  · exact h.cut _ _ hs
  · split
    · exact forMembers_kept _ (fun _ _ ht => h.cutMember _ _ ht) (h.updateCompartment _ _ hs)
    · exact hs

omit hk in
theorem awaitCloses (o : SpoutId) {s : State} (hs : P s) : P (awaitCloses o s) := by
  refine forMembers_kept _ (fun _ _ ht => ?_) hs
  split
  · exact h.updateCompartment _ _ ht
  · exact ht

theorem closesEnded (o : SpoutId) {s : State} (hs : P s) : P (closesEnded k o s) := by
  unfold Machine.closesEnded; split
  · exact h.finishCompartment hk _ _ hs
  · exact hs

omit hk in
theorem holdFollower (o i : SpoutId) {s : State} (hs : P s) : P (holdFollower o i s) := h.setMemberPhase _ _ _ hs

theorem faultInPair (o i : SpoutId) (cause : FaultCause) {s : State} (hs : P s) : P (faultInPair k o i cause s) :=
  h.closesEnded hk _ (h.holdFollower _ _ (h.awaitCloses _ (h.updateCompartment _ _ (h.interlock _ _
    (h.freezeChannel _ _ hs)))))

theorem resetCheck (o : SpoutId) {s : State} (hs : P s) : P (resetCheck k o s) := by
  unfold Machine.resetCheck; split
  · exact h.finishCompartment hk _ _ hs
  · exact hs

theorem faultInReset (o i : SpoutId) (cause : FaultCause) {s : State} (hs : P s) : P (faultInReset k o i cause s) := by
  have hf := h.updateCompartment o (Compartment.record cause.code) (h.freezeChannel i cause hs)
  unfold Machine.faultInReset; dsimp only; split
  · refine h.resetCheck hk _ ?_
    split
    · exact h.setStage _ _ (h.updateCompartment _ _ (h.finish _ _ hf))
    · exact h.leaveBound _ (h.finish _ _ hf)
  · exact hf

theorem faultMetering (o i : SpoutId) (cause : FaultCause) {s : State} (hs : P s) : P (faultMetering k o i cause s) := by
  have hm := h.markOrder o .spoutFault hs
  unfold Machine.faultMetering; dsimp only; split_ifs
  · exact h.faultInReset hk _ _ _ hm
  · exact h.faultInPair hk _ _ _ hm
  all_goals exact h.faultAlone hk _ _ hm

theorem contextFaulted (i : SpoutId) (cause : FaultCause) {s : State} (hs : P s) : P (contextFaulted k i cause s) := by
  have hm := h.markOrder (s.ownerOf i) .spoutFault hs
  unfold Machine.contextFaulted; dsimp only; split
  · split
    · exact h.leaveBound _ hs
    · exact hs
  · exact hs
  · exact h.endOrder hk _ hm
  · exact h.endUnopened hk _ _ hm
  · exact h.endUnopened hk _ _ hm
  · split
    · exact h.releaseCheck hk _ (h.holdFollower _ _ hm)
    · exact h.concludeOrder hk _ hm
  · exact h.endZeroRun hk _ _ _ hs
  all_goals exact h.faultMetering hk _ _ _ hs

omit hk in
theorem reactTo (depth : Nat) : KeepsReaction P (reactTo depth) := by
  induction depth with
  | zero => exact fun _ _ hs => hs
  | succ d ih =>
    intro r s hs
    cases r with
    | idle i => exact h.onIdle ih i hs
    | engaged i => exact h.onEngaged ih i hs
    | released i => exact h.onReleased ih i hs
    | captureEnded i => exact h.releaseCheck ih _ hs
    | faultReport i => exact h.contextFaulted ih i _ hs

omit hk in
theorem react : KeepsReaction P react := h.reactTo _

end KeptByReaction

end Sys2Proof.Machine

/-! The slots of the exchange memory (R195, R196): what the end of an order writes in its slot, and that it writes in no other. -/

namespace Sys2Proof.Machine

/-! ## One slot -/

/-- Every byte of the slot reads as it did. -/
def SameSlot (m : SlotId) (s t : State) : Prop :=
  ∀ off < 256, t.memory.read (Config.slotBase m + off) = s.memory.read (Config.slotBase m + off)

namespace SameSlot

variable {m : SlotId} {s t u : State}

theorem refl (m : SlotId) (s : State) : SameSlot m s s := fun _ _ => rfl

theorem trans (h : SameSlot m s t) (h' : SameSlot m t u) : SameSlot m s u := fun off ho => (h' off ho).trans (h off ho)

theorem slotU8 (h : SameSlot m s t) {off : Nat} (ho : off < 256) : t.slotU8 m off = s.slotU8 m off :=
  congrArg BitVec.toNat (h off ho)

theorem slotU16 (h : SameSlot m s t) {off : Nat} (ho : off + 1 < 256) : t.slotU16 m off = s.slotU16 m off := by
  have low := h.slotU8 (off := off) (by omega)
  have high := h.slotU8 ho
  unfold State.slotU8 at low high
  rw [← Nat.add_assoc] at high
  unfold State.slotU16 Memory.u16
  rw [low, high]

theorem slotU32 (h : SameSlot m s t) {off : Nat} (ho : off + 3 < 256) : t.slotU32 m off = s.slotU32 m off := by
  have low := h.slotU16 (off := off) (by omega)
  have high := h.slotU16 (off := off + 2) (by omega)
  unfold State.slotU16 at low high
  rw [← Nat.add_assoc] at high
  unfold State.slotU32 Memory.u32
  rw [low, high]

theorem slotStateByte (h : SameSlot m s t) : t.slotStateByte m = s.slotStateByte m := h.slotU8 (off := 0) (by omega)
theorem slotKind (h : SameSlot m s t) : t.slotKind m = s.slotKind m := h.slotU8 (off := 1) (by omega)

theorem entryCode (h : SameSlot m s t) {e : Nat} (he : e < 12) : t.entryCode m e = s.entryCode m e :=
  h.slotU8 (by unfold entryOffset; omega)

end SameSlot

/-- A write that lies below the slots or in another slot. -/
theorem sameSlot_writeMemory {m : SlotId} (s : State) {a : Nat} {bytes : List Byte}
    (h : a + bytes.length ≤ Config.slotBase m ∨ Config.slotBase m + 256 ≤ a) : SameSlot m s (s.writeMemory a bytes) :=
  fun _ _ => Memory.read_writeBytes_other _ _ _ (by omega)

/-- Two slots share no byte. -/
theorem slotBase_apart {m n : SlotId} (h : m ≠ n) :
    Config.slotBase m + 256 ≤ Config.slotBase n ∨ Config.slotBase n + 256 ≤ Config.slotBase m := by
  have hv : m.val ≠ n.val := fun e => h (Fin.ext e)
  rw [slotBase_eq, slotBase_eq]; omega

theorem sameSlot_writeSlot {m n : SlotId} (h : m ≠ n) (s : State) (off : Nat) {bytes : List Byte}
    (ho : off + bytes.length ≤ 256) : SameSlot m s (s.writeMemory (Config.slotBase n + off) bytes) :=
  sameSlot_writeMemory s (by have := slotBase_apart h; omega)

theorem sameSlot_writeStamped (m : SlotId) (s : State) {base : Nat} {fields : List Byte}
    (h : base + 2 + fields.length ≤ 4096) : SameSlot m s (writeStamped base fields s) := fun off _ =>
  sameMemoryOutside_writeStamped base fields _ (.inr (by rw [slotBase_eq]; omega))

/-- A panel lies below the slots. -/
theorem sameSlot_refreshPanel (m : SlotId) (i : SpoutId) (s : State) : SameSlot m s (refreshPanel i s) := by
  unfold refreshPanel; split
  · exact sameSlot_writeStamped m s (by rw [length_panelFields, Config.panelBase]; omega)
  · exact .refl m s

theorem sameSlot_writeLinkState (m : SlotId) (i : SpoutId) (s : State) : SameSlot m s (writeLinkState i s) := by
  unfold writeLinkState; split
  · exact sameSlot_writeMemory s (.inl (by rw [length_u16Bytes, Config.linkStateAddress, slotBase_eq]; omega))
  · exact .refl m s

/-! ## The end of an order in its slot -/

theorem sameSlot_answered {m n : SlotId} (h : m ≠ n) (s : State) (result reason index : Nat) :
    SameSlot m s (s.answered n result reason index) :=
  (sameSlot_writeSlot h s 3 (by simp)).trans (sameSlot_writeSlot (n := n) h _ 0 (by simp))

/-- An answer writes the state and the three result fields alone. -/
theorem slotU8_answered (s : State) (n : SlotId) (result reason index : Nat) {off : Nat} (ho : off ≠ 0)
    (ho' : off < 3 ∨ 6 ≤ off) : (s.answered n result reason index).slotU8 n off = s.slotU8 n off := by
  refine (Memory.u8_writeBytes_other _ _ _ ?_).trans (Memory.u8_writeBytes_other _ _ _ ?_)
  · simp only [List.length_cons, List.length_nil]; omega
  · simp only [List.length_cons, List.length_nil]; omega

theorem wf_writeEntryCode {s : State} (hm : s.memory.wf = true) (n : SlotId) (e : Nat) (code : Code) :
    (writeEntryCode n e code s).memory.wf = true := Memory.wf_writeBytes hm _ _

theorem wf_writeProgress {s : State} (hm : s.memory.wf = true) (n : SlotId) (count total : Nat) :
    (writeProgress n count total s).memory.wf = true := Memory.wf_writeBytes (Memory.wf_writeBytes hm _ _) _ _

theorem entryCode_writeEntryCode {s : State} (hm : s.memory.wf = true) (n : SlotId) (e : Nat) (code : Code)
    (hc : code.value < 256) : (writeEntryCode n e code s).entryCode n e = code.value := by
  have h := (State.holds_writeMemory hm (Config.slotBase n + entryOffset e + 5) (u8Bytes code.value)).u8_field
  rw [Nat.mod_eq_of_lt hc, Nat.add_assoc] at h
  exact h

theorem read_writeEntryCode (s : State) (n : SlotId) (e : Nat) (code : Code) {x : Nat}
    (hx : x ≠ Config.slotBase n + entryOffset e + 5) : (writeEntryCode n e code s).memory.read x = s.memory.read x :=
  Memory.read_writeBytes_other _ _ _ (by rw [length_u8Bytes]; omega)

theorem read_writeProgress (s : State) (n : SlotId) (count total : Nat) {x : Nat}
    (hx : x < Config.slotBase n + 0x18 ∨ Config.slotBase n + 0x20 ≤ x) :
    (writeProgress n count total s).memory.read x = s.memory.read x := by
  unfold writeProgress; dsimp only
  rw [State.memory_writeMemory, Memory.read_writeBytes_other _ _ _ (by rw [length_u32Bytes]; omega),
    State.memory_writeMemory, Memory.read_writeBytes_other _ _ _ (by simp only [List.length_append, length_u8Bytes]; omega)]

/-- R109 step 1: a PENDING entry becomes NOT_REACHED. -/
def closeEntry (n : SlotId) (t : State) (e : Nat) : State :=
  if t.entryCode n e == Code.pending.value then writeEntryCode n e .notReached t else t

theorem closeEntries_eq (n : SlotId) (count total : Nat) (s : State) :
    closeEntries n count total s = writeProgress n count total ((List.range count).foldl (closeEntry n) s) := rfl

/-- The code of an entry that has been closed. -/
def closedCode (code : Nat) : Nat := if code = 0 then 21 else code

theorem entryCode_closeEntry {s : State} (hm : s.memory.wf = true) (n : SlotId) (e : Nat) :
    (closeEntry n s e).entryCode n e = closedCode (s.entryCode n e) := by
  unfold closeEntry closedCode
  by_cases h : s.entryCode n e = 0
  · rw [if_pos (by rw [h]; rfl), if_pos h, entryCode_writeEntryCode hm n e .notReached (by decide)]; rfl
  · rw [if_neg (by simpa [Code.value] using h), if_neg h]

theorem read_closeEntry (s : State) (n : SlotId) (e : Nat) {x : Nat} (hx : x ≠ Config.slotBase n + entryOffset e + 5) :
    (closeEntry n s e).memory.read x = s.memory.read x := by
  unfold closeEntry; split
  · exact read_writeEntryCode s n e _ hx
  · rfl

theorem wf_closeEntry {s : State} (hm : s.memory.wf = true) (n : SlotId) (e : Nat) : (closeEntry n s e).memory.wf = true := by
  unfold closeEntry; split
  · exact wf_writeEntryCode hm n e _
  · exact hm

theorem entryCode_of_read {s t : State} {n : SlotId} {e : Nat}
    (h : t.memory.read (Config.slotBase n + entryOffset e + 5) = s.memory.read (Config.slotBase n + entryOffset e + 5)) :
    t.entryCode n e = s.entryCode n e := by
  rw [Nat.add_assoc] at h
  exact congrArg BitVec.toNat h

/-- The closing of the first entries: each code once, no other byte. -/
theorem closeEntry_range {s : State} (hm : s.memory.wf = true) (n : SlotId) (count : Nat) :
    let t := (List.range count).foldl (closeEntry n) s
    t.memory.wf = true ∧ (∀ e < count, t.entryCode n e = closedCode (s.entryCode n e))
      ∧ ∀ x, (∀ e < count, x ≠ Config.slotBase n + entryOffset e + 5) → t.memory.read x = s.memory.read x := by
  induction count with
  | zero => exact ⟨hm, fun e he => absurd he (Nat.not_lt_zero e), fun _ _ => rfl⟩
  | succ c ih =>
    obtain ⟨hw, hcodes, hread⟩ := ih
    simp only [List.range_succ, List.foldl_append, List.foldl_cons, List.foldl_nil]
    refine ⟨wf_closeEntry hw n c, fun e he => ?_, fun x hx => ?_⟩
    · by_cases hec : e = c
      · subst hec
        rw [entryCode_closeEntry hw, entryCode_of_read (hread _ fun e' he' => by unfold entryOffset; omega)]
      · rw [entryCode_of_read (read_closeEntry _ n c (by unfold entryOffset; omega)), hcodes e (by omega)]
    · rw [read_closeEntry _ n c (hx c (by omega)), hread x fun e he => hx e (by omega)]

theorem wf_closeEntries {s : State} (hm : s.memory.wf = true) (n : SlotId) (count total : Nat) :
    (closeEntries n count total s).memory.wf = true := wf_writeProgress (closeEntry_range hm n count).1 n count total

theorem entryCode_closeEntries {s : State} (hm : s.memory.wf = true) (n : SlotId) {count e : Nat} (he : e < count)
    (total : Nat) : (closeEntries n count total s).entryCode n e = closedCode (s.entryCode n e) := by
  rw [closeEntries_eq, entryCode_of_read (read_writeProgress _ n count total (.inr (by unfold entryOffset; omega)))]
  exact (closeEntry_range hm n count).2.1 e he

theorem read_closeEntries {s : State} (hm : s.memory.wf = true) (n : SlotId) (count total : Nat) {x : Nat}
    (hp : x < Config.slotBase n + 0x18 ∨ Config.slotBase n + 0x20 ≤ x)
    (hx : ∀ e < count, x ≠ Config.slotBase n + entryOffset e + 5) :
    (closeEntries n count total s).memory.read x = s.memory.read x := by
  rw [closeEntries_eq, read_writeProgress _ n count total hp]
  exact (closeEntry_range hm n count).2.2 x hx

theorem sameSlot_closeEntries {m n : SlotId} (h : m ≠ n) {s : State} (hm : s.memory.wf = true) {count : Nat} (hc : count ≤ 12)
    (total : Nat) : SameSlot m s (closeEntries n count total s) := fun off ho => by
  have := slotBase_apart h
  exact read_closeEntries hm n count total (by omega) fun e he => by unfold entryOffset; omega

theorem slotU8_closeEntries {s : State} (hm : s.memory.wf = true) (n : SlotId) (count total : Nat) {off : Nat}
    (hp : off < 0x18 ∨ (0x20 ≤ off ∧ off < 0x40)) : (closeEntries n count total s).slotU8 n off = s.slotU8 n off :=
  congrArg BitVec.toNat (read_closeEntries hm n count total (by omega) fun e _ => by unfold entryOffset; omega)

/-! ## An order that ends without running (R118) -/

/-- R118: the slot after its order has ended without running. -/
theorem endWithoutRunning_slot {s : State} (hm : s.memory.wf = true) (q : SlotId) (r : Result)
    (hc : s.slotKind q = 1 ∨ s.slotKind q = 2 → s.loadCount q ≤ 12) :
    let t := endWithoutRunning q r s
    t.memory.wf = true ∧ t.slotStateByte q = 4 ∧ t.slotU8 q 3 = r.value ∧ t.slotKind q = s.slotKind q
      ∧ t.loadCount q = s.loadCount q
      ∧ (s.slotKind q = 1 ∨ s.slotKind q = 2 → ∀ e < s.loadCount q, t.entryCode q e = closedCode (s.entryCode q e))
      ∧ ∀ m ≠ q, SameSlot m s t := by
  have hr : r.value % 256 = r.value := by cases r <;> rfl
  have hdone {u : State} (hu : u.memory.wf = true) (hk : u.slotKind q = s.slotKind q)
      (hl : u.loadCount q = s.loadCount q) (hs : ∀ m ≠ q, SameSlot m s u) :
      let t := u.answered q r.value 0 0xFF
      t.memory.wf = true ∧ t.slotStateByte q = 4 ∧ t.slotU8 q 3 = r.value ∧ t.slotKind q = s.slotKind q
        ∧ t.loadCount q = s.loadCount q ∧ (∀ e, t.entryCode q e = u.entryCode q e) ∧ ∀ m ≠ q, SameSlot m s t :=
    ⟨wf_answered hu .., slotStateByte_answered hu .., (result_answered hu ..).trans hr,
      (slotU8_answered u q _ _ _ (off := 1) (by omega) (by omega)).trans hk,
      (slotU8_answered u q _ _ _ (off := 0x11) (by omega) (by omega)).trans hl,
      fun e => slotU8_answered u q _ _ _ (by omega) (by unfold entryOffset; omega),
      fun m hne => (hs m hne).trans (sameSlot_answered hne u _ _ _)⟩
  unfold endWithoutRunning; dsimp only
  rw [markDone_eq]
  by_cases hload : s.slotKind q = 1 ∨ s.slotKind q = 2
  · have hkind : (s.slotKindIs q .load || s.slotKindIs q .twin) = true := by
      simpa [State.slotKindIs, Kind.value] using hload
    rw [if_pos hkind]
    obtain ⟨hw, hstate, hresult, hkind', hcount, hcodes, hslots⟩ := hdone (wf_closeEntries hm q (s.loadCount q) 0)
      (slotU8_closeEntries hm q _ 0 (by omega)) (slotU8_closeEntries hm q _ 0 (by omega))
      (fun m hne => sameSlot_closeEntries hne hm (hc hload) 0)
    exact ⟨hw, hstate, hresult, hkind', hcount,
      fun _ e he => (hcodes e).trans (entryCode_closeEntries hm q he 0), hslots⟩
  · have hkind : (s.slotKindIs q .load || s.slotKindIs q .twin) = false := by
      simpa [State.slotKindIs, Kind.value] using hload
    rw [hkind, if_neg Bool.false_ne_true]
    obtain ⟨hw, hstate, hresult, hkind', hcount, -, hslots⟩ := hdone hm rfl rfl fun m _ => .refl m s
    exact ⟨hw, hstate, hresult, hkind', hcount, fun h => absurd h hload, hslots⟩

theorem closedCode_closedCode (code : Nat) : closedCode (closedCode code) = closedCode code := by
  unfold closedCode; split_ifs <;> omega

/-- R118, R165: the slots after the orders of a list have ended without running, in turn. -/
theorem returned_slots (r : Result) (l : List SlotId) {s : State} (hm : s.memory.wf = true)
    (hc : ∀ q ∈ l, s.slotKind q = 1 ∨ s.slotKind q = 2 → s.loadCount q ≤ 12) :
    let t := l.foldl (fun t q => endWithoutRunning q r t) s
    t.memory.wf = true ∧ (∀ m ∉ l, SameSlot m s t)
      ∧ ∀ q ∈ l, t.slotStateByte q = 4 ∧ t.slotU8 q 3 = r.value
        ∧ (s.slotKind q = 1 ∨ s.slotKind q = 2 → ∀ e < s.loadCount q, t.entryCode q e = closedCode (s.entryCode q e)) := by
  induction l generalizing s with
  | nil => exact ⟨hm, fun m _ => .refl m s, by simp⟩
  | cons q l ih =>
    obtain ⟨hw, hstate, hresult, hkind, hcount, hcodes, hslots⟩ := endWithoutRunning_slot hm q r (hc q List.mem_cons_self)
    have hkinds (m : SlotId) : (endWithoutRunning q r s).slotKind m = s.slotKind m := by
      by_cases e : m = q
      · rw [e, hkind]
      · exact (hslots m e).slotKind
    have hcounts (m : SlotId) : (endWithoutRunning q r s).loadCount m = s.loadCount m := by
      by_cases e : m = q
      · rw [e, hcount]
      · exact (hslots m e).slotU8 (by omega)
    obtain ⟨hw', hother, hended⟩ := ih hw fun m hml => by
      rw [hkinds, hcounts]; exact hc m (List.mem_cons_of_mem _ hml)
    simp only [hkinds, hcounts] at hended
    rw [List.foldl_cons]
    refine ⟨hw', fun m hne => ?_, fun m hml => ?_⟩
    · rw [List.mem_cons, not_or] at hne
      exact (hslots m hne.1).trans (hother m hne.2)
    · by_cases hl : m ∈ l
      · obtain ⟨hs4, hres, hcode⟩ := hended m hl
        refine ⟨hs4, hres, fun hload e he => (hcode hload e he).trans ?_⟩
        have he12 : e < 12 := lt_of_lt_of_le he (hc m hml hload)
        by_cases hq : m = q
        · subst hq; rw [hcodes hload e he, closedCode_closedCode]
        · rw [(hslots m hq).entryCode he12]
      · obtain rfl : m = q := (List.mem_cons.1 hml).resolve_right hl
        have hsame := hother m hl
        exact ⟨hsame.slotStateByte.trans hstate, (hsame.slotU8 (by omega)).trans hresult, fun hload e he =>
          (hsame.entryCode (lt_of_lt_of_le he (hc m hml hload))).trans (hcodes hload e he)⟩

end Sys2Proof.Machine

/-! A spout that faults (R134, R135, R148): what its entry into FAULTED writes, and what the reactions to it leave alone. -/

namespace Sys2Proof.Machine

/-! ## Operations that write memory and count slots done -/

/-- The state differs in its memory and its done count alone. -/
def SameButAnswers (s t : State) : Prop := ∃ m c, t = { s with memory := m, port := { s.port with doneCount := c } }

namespace SameButAnswers

variable {s t u : State}

theorem refl (s : State) : SameButAnswers s s := ⟨s.memory, s.port.doneCount, rfl⟩

theorem trans (h : SameButAnswers s t) (h' : SameButAnswers t u) : SameButAnswers s u := by
  obtain ⟨m, c, rfl⟩ := h
  obtain ⟨m', c', rfl⟩ := h'
  exact ⟨m', c', rfl⟩

theorem of_memory (h : SameButMemory s t) : SameButAnswers s t := by
  obtain ⟨m, rfl⟩ := h
  exact ⟨m, s.port.doneCount, rfl⟩

theorem updateSpout (h : SameButAnswers s t) (i : SpoutId) (f : Spout → Spout) :
    SameButAnswers (s.updateSpout i f) (t.updateSpout i f) := by
  obtain ⟨m, c, rfl⟩ := h
  exact ⟨m, c, rfl⟩

theorem setSpoutChange (h : SameButAnswers s t) : SameButAnswers (setSpoutChange s) (setSpoutChange t) := by
  obtain ⟨m, c, rfl⟩ := h
  exact ⟨m, c, rfl⟩

theorem spout (h : SameButAnswers s t) (j : SpoutId) : t.spout j = s.spout j := by
  obtain ⟨m, c, rfl⟩ := h; rfl

theorem exchange (h : SameButAnswers s t) : t.port.exchange = s.port.exchange := by
  obtain ⟨m, c, rfl⟩ := h; rfl

theorem spoutChange (h : SameButAnswers s t) : t.port.spoutChange = s.port.spoutChange := by
  obtain ⟨m, c, rfl⟩ := h; rfl

theorem sameTables (h : SameButAnswers s t) : SameTables s t := by
  obtain ⟨m, c, rfl⟩ := h; exact ⟨rfl, rfl, rfl⟩

end SameButAnswers

theorem sameButAnswers_markDone (n : SlotId) (r : Result) (s : State) : SameButAnswers s (markDone n r s) := by
  rw [markDone_eq]; exact ⟨_, _, rfl⟩

theorem sameButAnswers_endWithoutRunning (n : SlotId) (r : Result) (s : State) :
    SameButAnswers s (endWithoutRunning n r s) := by
  unfold endWithoutRunning; dsimp only; split
  · exact (SameButAnswers.of_memory (sameButMemory_closeEntries ..)).trans (sameButAnswers_markDone ..)
  · exact sameButAnswers_markDone ..

theorem sameButAnswers_returned (r : Result) (l : List SlotId) (s : State) :
    SameButAnswers s (l.foldl (fun t n => endWithoutRunning n r t) s) := by
  induction l generalizing s with
  | nil => exact .refl s
  | cons n l ih => exact (sameButAnswers_endWithoutRunning n r s).trans (ih _)

/-! ## Entry into FAULTED -/

/-- R134, R165: a spout's queue as a fault leaves it; under a soft reset it is kept. -/
def queueLeft (x : Exchange) (q : List SlotId) : List SlotId := if x = .resetting then q else []

/-- R134: the spout's own blocks as it enters FAULTED. -/
def Spout.enterFault (cause : FaultCause) (x : Exchange) (p : Spout) : Spout :=
  { p with
    positioner := p.positioner.enterFault cause, calibration := p.calibration.dropCapture
    queue := queueLeft x p.queue }

theorem sameButMemory_updatePosition (i : SpoutId) (f : Positioner → Positioner) (s : State) :
    SameButMemory (s.updatePositioner i f) (updatePosition i f s) := by
  unfold updatePosition; dsimp only; split
  · exact .refl _
  · exact sameButMemory_refreshPanel ..

theorem sameButAnswers_returnQueue (i : SpoutId) (s : State) :
    SameButAnswers (s.updateSpout i fun p => { p with queue := queueLeft s.port.exchange p.queue }) (returnQueue i s) := by
  unfold returnQueue queueLeft; split
  · next h =>
    rw [State.updateSpout_id]
    · exact .refl s
    · rfl
  · next h => exact sameButAnswers_returned ..

/-- R134: the entry of a spout that was not FAULTED, its slots' answers apart. -/
theorem sameButAnswers_enterFault (cause : FaultCause) {i : SpoutId} {s : State} (hf : s.isFaulted i = false) :
    SameButAnswers (setSpoutChange (s.updateSpout i (Spout.enterFault cause s.port.exchange))) (enterFault i cause s) := by
  have hposition := SameButAnswers.of_memory (sameButMemory_updatePosition i (Positioner.enterFault cause) s)
  have hqueue := sameButAnswers_returnQueue i (updatePosition i (Positioner.enterFault cause) s)
  rw [hposition.exchange] at hqueue
  have hboth := (hposition.updateSpout i fun p => { p with queue := queueLeft s.port.exchange p.queue }).trans hqueue
  have hall := (hboth.updateSpout i fun p => { p with calibration := p.calibration.dropCapture }).setSpoutChange
  rw [State.updatePositioner, State.updateSpout_updateSpout, State.updateSpout_updateSpout] at hall
  unfold enterFault
  rw [hf, if_neg Bool.false_ne_true]
  exact hall

/-- R135: a spout that is FAULTED already takes the cause where that replaces its own, and nothing else. -/
theorem enterFault_again (cause : FaultCause) {i : SpoutId} {s : State} (hf : s.isFaulted i = true) :
    enterFault i cause s = if replacesCause (s.positioner i).cause cause then
      setSpoutChange (s.updatePositioner i fun p => { p with cause := cause }) else s := by
  unfold enterFault; rw [if_pos hf]

/-! ## What follows a fault -/

/-- The spout stays FAULTED: its receiver, its fault cause and its channel's mass and restarted window stay, its queue only shrinks. -/
structure Spout.FaultedSince (p q : Spout) : Prop where
  position : q.positioner.position = .faulted
  cause : q.positioner.cause = p.positioner.cause
  receiver : q.receiver = p.receiver
  delivered : q.channel.delivered = p.channel.delivered
  remainder : q.channel.remainder = p.channel.remainder
  restarted : q.channel.restartWindow = q.channel
  queue : q.queue.Sublist p.queue

/-- What the reactions to a fault of spout `i` leave alone. -/
structure State.FaultedSince (i : SpoutId) (s t : State) : Prop where
  spout : (s.spout i).FaultedSince (t.spout i)
  exchange : t.port.exchange = s.port.exchange
  spoutChange : t.port.spoutChange = s.port.spoutChange
  products : t.products = s.products
  pending : t.pending = s.pending

theorem Spout.FaultedSince.refl {p : Spout} (h : p.positioner.position = .faulted)
    (hr : p.channel.restartWindow = p.channel) : p.FaultedSince p := ⟨h, rfl, rfl, rfl, rfl, hr, .refl _⟩

/-- A positioner that is FAULTED stays so, with its cause. -/
theorem PositionerStep.faulted {p q : Positioner} (h : PositionerStep p q) (hp : p.position = .faulted) :
    q.position = .faulted ∧ q.cause = p.cause := by
  cases h with
  | lower _ h => rw [hp] at h; cases h
  | raise _ h => exact absurd hp h
  | engaged h => rw [hp] at h; cases h
  | raised h => rw [hp] at h; cases h
  | started h => rw [hp] at h; cases h
  | waiting => exact ⟨hp, rfl⟩

theorem State.FaultedSince.updateSpout {i : SpoutId} {s t : State} (h : s.FaultedSince i t) (j : SpoutId) {f : Spout → Spout}
    (hf : j = i → (s.spout i).FaultedSince (f (t.spout i))) : s.FaultedSince i (t.updateSpout j f) := by
  refine ⟨?_, h.exchange, h.spoutChange, h.products, h.pending⟩
  rw [State.spout_updateSpout]; split
  · next e => subst e; exact hf rfl
  · exact h.spout

/-- R27, R134: no reaction to a fault starts the FAULTED spout's integration, or clears its fault. -/
theorem keptByReaction_faultedSince (i : SpoutId) (s : State) : KeptByReaction (s.FaultedSince i) where
  memory _ _ h := { h with }
  done _ h := { h with }
  start t j he h := h.updateSpout j (f := fun p => { p with channel := p.channel.startCompartment }) fun e => by
    subst e
    have := h.spout.position
    rw [State.positioner, this] at he; cases he
  finish t j h := h.updateSpout j (f := fun p => { p with channel := p.channel.endCompartment }) fun _ =>
    { h.spout with restarted := congrArg Channel.endCompartment h.spout.restarted }
  profile t j v h := h.updateSpout j fun _ => { h.spout with restarted := rfl }
  calibration t j f h := h.updateSpout j fun _ => { h.spout with }
  positioner t j f hf h := h.updateSpout j fun e => by
    subst e
    obtain ⟨hp, hc⟩ := hf.faulted h.spout.position
    exact { h.spout with position := hp, cause := hc.trans h.spout.cause }
  context t j f h := h.updateSpout j fun _ => { h.spout with }
  queue t j q hq h := h.updateSpout j fun e => by
    subst e
    exact { h.spout with queue := hq.trans h.spout.queue }
  preact _ _ h := { h with }
  freeCount _ _ h := { h with }

/-- R134: all that follows a spout's entry into FAULTED. -/
theorem faultedSince_spoutFault (i : SpoutId) (cause : FaultCause) {s : State}
    (hf : (enterFault i cause s).isFaulted i = true)
    (hr : ((enterFault i cause s).channel i).restartWindow = (enterFault i cause s).channel i) :
    (enterFault i cause s).FaultedSince i (spoutFault react i cause s) := by
  have h := keptByReaction_faultedSince i (enterFault i cause s)
  have hself : (enterFault i cause s).FaultedSince i (enterFault i cause s) :=
    ⟨.refl (beq_iff_eq.1 hf) hr, rfl, rfl, rfl, rfl⟩
  exact h.contextFaulted h.react i cause (h.withdrawClaimOn h.react i hself)

end Sys2Proof.Machine

/-! A PRESENT link is lost (R144, R147, R148): what holds of every loss, whatever the spout was at. -/

namespace Sys2Proof.Machine

/-- R9, R148: the receiver and the channel of a spout whose link is lost. -/
def Spout.loseLink (p : Spout) : Spout :=
  { p with receiver := p.receiver.lose, channel := p.channel.restartWindow }

/-- The state in which the loss of a link faults the spout. -/
def linkDown (i : SpoutId) (s : State) : State := s.updateSpout i Spout.loseLink

theorem loseLink_eq (i : SpoutId) (s : State) : loseLink i s = showLink i (spoutFault react i .sensorLost (linkDown i s)) := by
  unfold loseLink restartWindow State.updateReceiver State.updateChannel
  rw [State.updateSpout_updateSpout]; rfl

theorem spout_linkDown (i : SpoutId) (s : State) : (linkDown i s).spout i = (s.spout i).loseLink :=
  State.spout_updateSpout_self ..

theorem isFaulted_linkDown (i : SpoutId) (s : State) : (linkDown i s).isFaulted i = s.isFaulted i := by
  unfold State.isFaulted State.positioner; rw [spout_linkDown]; rfl

/-- R10, R134, R135, R148: what a loss leaves. -/
structure State.LinkLost (i : SpoutId) (s t : State) : Prop where
  link : (t.receiver i).link = .lost
  silence : (t.receiver i).silence = none
  missingRun : (t.receiver i).missingRun = 0
  watch : (t.receiver i).watch = some 20
  faulted : t.isFaulted i = true
  fresh : s.isFaulted i = false → (t.positioner i).cause = .sensorLost ∧ t.port.spoutChange = true
  replaced : s.isFaulted i = true → (s.positioner i).cause = .travelFault ∨ (s.positioner i).cause = .gateFault →
    (t.positioner i).cause = .sensorLost ∧ t.port.spoutChange = true
  kept : s.isFaulted i = true → (s.positioner i).cause ≠ .travelFault → (s.positioner i).cause ≠ .gateFault →
    (t.positioner i).cause = (s.positioner i).cause
  restarted : (t.channel i).restartWindow = t.channel i
  delivered : (t.channel i).delivered = (s.channel i).delivered
  remainder : (t.channel i).remainder = (s.channel i).remainder
  queue : s.isFaulted i = false → s.port.exchange ≠ .resetting → t.queue i = []
  products : t.products = s.products
  pending : t.pending = s.pending
  exchange : t.port.exchange = s.port.exchange

/-- What follows the entry into FAULTED leaves a loss as it is. -/
theorem State.LinkLost.followed {i : SpoutId} {s u t : State} (h : s.LinkLost i u) (hf : u.FaultedSince i t) :
    s.LinkLost i t where
  link := (congrArg Receiver.link hf.spout.receiver).trans h.link
  silence := (congrArg Receiver.silence hf.spout.receiver).trans h.silence
  missingRun := (congrArg Receiver.missingRun hf.spout.receiver).trans h.missingRun
  watch := (congrArg Receiver.watch hf.spout.receiver).trans h.watch
  faulted := beq_iff_eq.2 hf.spout.position
  fresh e := ⟨hf.spout.cause.trans (h.fresh e).1, hf.spoutChange.trans (h.fresh e).2⟩
  replaced e e' := ⟨hf.spout.cause.trans (h.replaced e e').1, hf.spoutChange.trans (h.replaced e e').2⟩
  kept e e1 e2 := hf.spout.cause.trans (h.kept e e1 e2)
  restarted := hf.spout.restarted
  delivered := hf.spout.delivered.trans h.delivered
  remainder := hf.spout.remainder.trans h.remainder
  queue e e' := List.sublist_nil.1 ((h.queue e e') ▸ hf.spout.queue)
  products := hf.products.trans h.products
  pending := hf.pending.trans h.pending
  exchange := hf.exchange.trans h.exchange

/-- R134, R148: the spout as the loss faults it. -/
theorem spout_enterFault_linkDown {i : SpoutId} {s : State} (hf : s.isFaulted i = false) :
    (enterFault i .sensorLost (linkDown i s)).spout i = (s.spout i).loseLink.enterFault .sensorLost s.port.exchange := by
  rw [(sameButAnswers_enterFault .sensorLost ((isFaulted_linkDown i s).trans hf)).spout]
  exact (State.spout_updateSpout_self ..).trans (by rw [spout_linkDown]; rfl)

theorem linkLost_fresh {i : SpoutId} {s : State} (hf : s.isFaulted i = false) :
    s.LinkLost i (enterFault i .sensorLost (linkDown i s)) := by
  have hentry := sameButAnswers_enterFault .sensorLost ((isFaulted_linkDown i s).trans hf)
  have hspout := spout_enterFault_linkDown hf
  obtain ⟨hproducts, -, hpending⟩ := hentry.sameTables
  exact {
    link := (congrArg (fun p => p.receiver.link) hspout :)
    silence := (congrArg (fun p => p.receiver.silence) hspout :)
    missingRun := (congrArg (fun p => p.receiver.missingRun) hspout :)
    watch := (congrArg (fun p => p.receiver.watch) hspout :)
    faulted := (congrArg (fun p => p.positioner.position == .faulted) hspout :)
    fresh := fun _ => ⟨(congrArg (fun p => p.positioner.cause) hspout :), hentry.spoutChange⟩
    replaced := fun e => by rw [hf] at e; cases e
    kept := fun e => by rw [hf] at e; cases e
    restarted := (congrArg (fun p => p.channel.restartWindow) hspout).trans (congrArg Spout.channel hspout).symm
    delivered := (congrArg (fun p => p.channel.delivered) hspout :)
    remainder := (congrArg (fun p => p.channel.remainder) hspout :)
    queue := fun _ hx => (congrArg Spout.queue hspout).trans (if_neg hx)
    products := hproducts
    pending := hpending
    exchange := hentry.exchange }

/-- R135: the entry of a FAULTED spout: its cause alone may change. -/
theorem enterFault_again_spout (cause : FaultCause) {i : SpoutId} {s : State} (hf : s.isFaulted i = true) :
    (enterFault i cause s).spout i = { s.spout i with positioner := { s.positioner i with
        cause := if replacesCause (s.positioner i).cause cause then cause else (s.positioner i).cause } }
      ∧ (replacesCause (s.positioner i).cause cause = true → (enterFault i cause s).port.spoutChange = true)
      ∧ SameTables s (enterFault i cause s) ∧ (enterFault i cause s).port.exchange = s.port.exchange := by
  rw [enterFault_again cause hf]; split
  · refine ⟨?_, fun _ => rfl, ⟨rfl, rfl, rfl⟩, rfl⟩
    rw [setSpoutChange, State.spout_updatePort, State.updatePositioner, State.spout_updateSpout_self]; rfl
  · next h => exact ⟨rfl, fun e => absurd e h, ⟨rfl, rfl, rfl⟩, rfl⟩

theorem replacesCause_iff (old : FaultCause) :
    replacesCause old .sensorLost = true ↔ old = .travelFault ∨ old = .gateFault := by
  cases old <;> decide

theorem linkLost_again {i : SpoutId} {s : State} (hf : s.isFaulted i = true) :
    s.LinkLost i (enterFault i .sensorLost (linkDown i s)) := by
  have hpos : (linkDown i s).positioner i = s.positioner i := by
    unfold State.positioner; rw [spout_linkDown]; rfl
  obtain ⟨hspout, hchange, ⟨hproducts, -, hpending⟩, hexchange⟩ :=
    enterFault_again_spout .sensorLost ((isFaulted_linkDown i s).trans hf)
  rw [spout_linkDown, hpos] at hspout
  rw [hpos] at hchange
  exact {
    link := (congrArg (fun p => p.receiver.link) hspout :)
    silence := (congrArg (fun p => p.receiver.silence) hspout :)
    missingRun := (congrArg (fun p => p.receiver.missingRun) hspout :)
    watch := (congrArg (fun p => p.receiver.watch) hspout :)
    faulted := (congrArg (fun p => p.positioner.position == .faulted) hspout).trans hf
    fresh := fun e => by rw [hf] at e; cases e
    replaced := fun _ h => by
      have hr := (replacesCause_iff _).2 h
      exact ⟨(congrArg (fun p => p.positioner.cause) hspout).trans (if_pos hr), hchange hr⟩
    kept := fun _ ht hg => (congrArg (fun p => p.positioner.cause) hspout).trans
      (if_neg fun hr => ((replacesCause_iff _).1 hr).elim ht hg)
    restarted := (congrArg (fun p => p.channel.restartWindow) hspout).trans (congrArg Spout.channel hspout).symm
    delivered := (congrArg (fun p => p.channel.delivered) hspout :)
    remainder := (congrArg (fun p => p.channel.remainder) hspout :)
    queue := fun e => by rw [hf] at e; cases e
    products := hproducts
    pending := hpending
    exchange := hexchange }

/-- R148: every loss, whatever the spout was at. -/
theorem linkLost_loseLink (i : SpoutId) (s : State) : s.LinkLost i (loseLink i s) := by
  have hentry : s.LinkLost i (enterFault i .sensorLost (linkDown i s)) := by
    cases hf : s.isFaulted i with
    | false => exact linkLost_fresh hf
    | true => exact linkLost_again hf
  have hsince := faultedSince_spoutFault i .sensorLost hentry.faulted hentry.restarted
  rw [loseLink_eq]
  exact hentry.followed ((keptByReaction_faultedSince i _).sameButMemory
    ((sameButMemory_writeLinkState ..).trans (sameButMemory_refreshPanel ..)) hsince)

/-! ## The three ways of losing a link -/

theorem exec_silence {s : State} {i : SpoutId} (hp : (s.receiver i).link = .present)
    (hs : (s.receiver i).silence.isSome = true) : exec (.silenceTimerExpiry i) s = .next (loseLink i s) := by
  show Host.Outcome.next (if _ then _ else _) = _
  rw [if_pos ⟨hp, hs⟩]

/-- R144: a gap past 4, or a missing run that comes to 5. -/
theorem missingAfter_lost {run gap : Nat} {fault : Bool} (h : 5 ≤ gap ∨ 5 ≤ run + gap ∨ (fault = true ∧ 4 ≤ run + gap)) :
    missingAfter run gap fault = none := by
  unfold missingAfter; split
  · rfl
  · next hg =>
    simp only [Config.gapLimit, Config.missingLimit] at hg
    obtain ⟨hfault, hrun⟩ : fault = true ∧ 4 ≤ run + gap := by
      obtain h | h | h := h
      · omega
      · omega
      · exact h
    rw [if_pos hfault, if_pos (by simp only [Config.missingLimit]; omega)]

/-- R144, R148: a frame that loses the link: its receiver is updated first. -/
theorem exec_frame_lost {s : State} {i : SpoutId} {last sequence status low high : Byte} (hl : s.port.linesLive = true)
    (ha : (s.receiver i).assembly = [0xA5, sequence, status, low, high]) (hp : (s.receiver i).link = .present)
    (hs : (s.receiver i).lastSequence = some last) (hg : (sequence - last - 1).toNat ≤ 254)
    (hlost : 5 ≤ (sequence - last - 1).toNat ∨ 5 ≤ (s.receiver i).missingRun + (sequence - last - 1).toNat
      ∨ (status.getLsbD 1 = true ∧ 4 ≤ (s.receiver i).missingRun + (sequence - last - 1).toNat)) :
    ∃ f, exec (.frame i (crc8 [0xA5, sequence, status, low, high])) s = .next (loseLink i (s.updateReceiver i f)) := by
  let x := frameOf sequence status low high
  have hgap : sequenceGap (some last) x.sequence = (sequence - last - 1).toNat := rfl
  rw [exec_frame hl ha, takeFrame_present _ (by rw [State.receiver_updateReceiver_self]; exact hp)]
  · rw [State.receiver_updateReceiver_self, hs, hgap]
    unfold takeInPresent
    have hnone : missingAfter (s.receiver i).missingRun (sequence - last - 1).toNat
        (frameOf sequence status low high).fault = none := missingAfter_lost hlost
    dsimp only
    rw [hnone, State.updateReceiver_updateReceiver]
    exact ⟨_, rfl⟩
  · rw [State.receiver_updateReceiver_self, hs, hgap]; omega

/-- A loss reads nothing of the receiver that it meets. -/
theorem State.LinkLost.of_updateReceiver {i : SpoutId} {s t : State} {f : Receiver → Receiver}
    (h : (s.updateReceiver i f).LinkLost i t) : s.LinkLost i t :=
  { h with
    fresh := by simpa using h.fresh
    replaced := by simpa using h.replaced
    kept := by simpa using h.kept
    delivered := by simpa using h.delivered
    remainder := by simpa using h.remainder
    queue := by simpa using h.queue
    products := h.products
    pending := h.pending
    exchange := h.exchange }

/-- R144, R147, R148: silence, and a frame that the link does not survive. -/
theorem exec_linkLost {i : SpoutId} {c : Instr} {s : State} (hp : (s.receiver i).link = .present)
    (hc : (c = .silenceTimerExpiry i ∧ (s.receiver i).silence.isSome = true) ∨
      ∃ last sequence status low high, c = .frame i (crc8 [0xA5, sequence, status, low, high])
        ∧ s.port.linesLive = true ∧ (s.receiver i).assembly = [0xA5, sequence, status, low, high]
        ∧ (s.receiver i).lastSequence = some last ∧ (sequence - last - 1).toNat ≤ 254
        ∧ (5 ≤ (sequence - last - 1).toNat ∨ 5 ≤ (s.receiver i).missingRun + (sequence - last - 1).toNat
          ∨ (status.getLsbD 1 = true ∧ 4 ≤ (s.receiver i).missingRun + (sequence - last - 1).toNat))) :
    ∃ t, exec c s = .next t ∧ s.LinkLost i t := by
  obtain ⟨rfl, hs⟩ | ⟨last, sequence, status, low, high, rfl, hl, ha, hseq, hg, hlost⟩ := hc
  · exact ⟨_, exec_silence hp hs, linkLost_loseLink i s⟩
  · obtain ⟨f, hexec⟩ := exec_frame_lost hl ha hp hseq hg hlost
    exact ⟨_, hexec, (linkLost_loseLink i _).of_updateReceiver⟩

end Sys2Proof.Machine

/-! A FAULTED spout that works by itself (R26, R28, R40, R46, R93, R107, R109): what its context does, stage by stage. -/

namespace Sys2Proof.Machine

/-! ## The frame of one order's end -/

/-- The end of the order that spout `i` runs in slot `n`: its positioner, its queue and its delivered mass stay, a capture is not
started, and of the rest of the part memory below the slots and slot `n` alone are written. -/
structure OrderFrame (i : SpoutId) (n : SlotId) (s t : State) : Prop where
  positioner : t.positioner i = s.positioner i
  queue : t.queue i = s.queue i
  delivered : (t.channel i).delivered = (s.channel i).delivered
  capture : (s.calibration i).capture = .none → (t.calibration i).capture = .none
  others : SameOtherSpouts i s t
  tables : SameTables s t
  slots : ∀ m ≠ n, SameSlot m s t
  wf : s.memory.wf = true → t.memory.wf = true

theorem wf_refreshPanel {s : State} (hm : s.memory.wf = true) (i : SpoutId) : (refreshPanel i s).memory.wf = true := by
  unfold refreshPanel; split
  · exact wf_writeStamped _ _ hm
  · exact hm

namespace OrderFrame

variable {i : SpoutId} {n : SlotId} {s t u : State}

theorem refl (i : SpoutId) (n : SlotId) (s : State) : OrderFrame i n s s :=
  ⟨rfl, rfl, rfl, id, fun _ _ => rfl, ⟨rfl, rfl, rfl⟩, fun m _ => .refl m s, id⟩

theorem trans (h : OrderFrame i n s t) (h' : OrderFrame i n t u) : OrderFrame i n s u where
  positioner := h'.positioner.trans h.positioner
  queue := h'.queue.trans h.queue
  delivered := h'.delivered.trans h.delivered
  capture := h'.capture ∘ h.capture
  others j hj := (h'.others j hj).trans (h.others j hj)
  tables := h.tables.trans h'.tables
  slots m hm := (h.slots m hm).trans (h'.slots m hm)
  wf := h'.wf ∘ h.wf

theorem of_spout {f : Spout → Spout} (hp : (f (s.spout i)).positioner = (s.spout i).positioner)
    (hq : (f (s.spout i)).queue = (s.spout i).queue)
    (hd : (f (s.spout i)).channel.delivered = (s.spout i).channel.delivered)
    (hc : (s.spout i).calibration.capture = .none → (f (s.spout i)).calibration.capture = .none) :
    OrderFrame i n s (s.updateSpout i f) where
  positioner := by unfold State.positioner; rw [State.spout_updateSpout_self, hp]
  queue := by unfold State.queue; rw [State.spout_updateSpout_self, hq]
  delivered := by unfold State.channel; rw [State.spout_updateSpout_self, hd]
  capture h := by unfold State.calibration; rw [State.spout_updateSpout_self]; exact hc h
  others _ hj := State.spout_updateSpout_ne s hj f
  tables := ⟨rfl, rfl, rfl⟩
  slots m _ := .refl m _
  wf h := h

theorem updateContext (i : SpoutId) (n : SlotId) (s : State) (f : Context → Context) :
    OrderFrame i n s (s.updateContext i f) := of_spout rfl rfl rfl id

theorem endIntegration (i : SpoutId) (n : SlotId) (s : State) : OrderFrame i n s (endIntegration i s) :=
  of_spout (f := fun p => { p with channel := p.channel.endCompartment }) rfl rfl rfl id

theorem dropCapture (i : SpoutId) (n : SlotId) (s : State) : OrderFrame i n s (dropCapture i s) :=
  of_spout (f := fun p => { p with calibration := p.calibration.dropCapture }) rfl rfl rfl fun _ => rfl

theorem of_memory (h : SameButMemory s t) (hs : ∀ m ≠ n, SameSlot m s t) (hw : s.memory.wf = true → t.memory.wf = true) :
    OrderFrame i n s t where
  positioner := congrArg Spout.positioner (h.spout i)
  queue := congrArg Spout.queue (h.spout i)
  delivered := congrArg (fun p => p.channel.delivered) (h.spout i)
  capture e := (congrArg (fun p => p.calibration.capture) (h.spout i)).trans e
  others j _ := h.spout j
  tables := h.sameTables
  slots := hs
  wf := hw

theorem writeSlot (i : SpoutId) (n : SlotId) (s : State) (off : Nat) {bytes : List Byte} (ho : off + bytes.length ≤ 256) :
    OrderFrame i n s (s.writeMemory (Config.slotBase n + off) bytes) :=
  of_memory (sameButMemory_writeMemory ..) (fun _ hm => sameSlot_writeSlot hm s off ho) fun h => Memory.wf_writeBytes h _ _

theorem refreshPanel (i : SpoutId) (n : SlotId) (s : State) : OrderFrame i n s (refreshPanel i s) :=
  of_memory (sameButMemory_refreshPanel ..) (fun m _ => sameSlot_refreshPanel m i s) (wf_refreshPanel · i)

theorem writeLinkState (i : SpoutId) (n : SlotId) (s : State) : OrderFrame i n s (writeLinkState i s) :=
  of_memory (sameButMemory_writeLinkState ..) (fun m _ => sameSlot_writeLinkState m i s) fun h => by
    unfold Machine.writeLinkState; split
    · exact Memory.wf_writeBytes h _ _
    · exact h

theorem showLink (i : SpoutId) (n : SlotId) (s : State) : OrderFrame i n s (showLink i s) :=
  (writeLinkState i n s).trans (refreshPanel i n _)

theorem setStage (i : SpoutId) (n : SlotId) (s : State) (x : Stage) : OrderFrame i n s (setStage i x s) := by
  unfold Machine.setStage; dsimp only; split
  · exact updateContext ..
  · exact (updateContext ..).trans (refreshPanel ..)

theorem restContext (i : SpoutId) (n : SlotId) (s : State) : OrderFrame i n s (restContext i s) :=
  (updateContext ..).trans (setStage ..)

theorem markDone (i : SpoutId) (n : SlotId) (s : State) (r : Result) : OrderFrame i n s (markDone n r s) where
  positioner := congrArg Spout.positioner ((sameButAnswers_markDone n r s).spout i)
  queue := congrArg Spout.queue ((sameButAnswers_markDone n r s).spout i)
  delivered := congrArg (fun p => p.channel.delivered) ((sameButAnswers_markDone n r s).spout i)
  capture e := (congrArg (fun p => p.calibration.capture) ((sameButAnswers_markDone n r s).spout i)).trans e
  others j _ := (sameButAnswers_markDone n r s).spout j
  tables := (sameButAnswers_markDone n r s).sameTables
  slots _ hm := sameSlot_answered hm s _ _ _
  wf h := wf_answered h ..

theorem closeEntries (i : SpoutId) (n : SlotId) {s : State} (hm : s.memory.wf = true) {count : Nat} (hc : count ≤ 12)
    (total : Nat) : OrderFrame i n s (closeEntries n count total s) :=
  of_memory (sameButMemory_closeEntries ..) (fun _ hne => sameSlot_closeEntries hne hm hc total)
    fun h => wf_closeEntries h n count total

theorem closeOrderSlot (i : SpoutId) (n : SlotId) {s : State} (hm : s.memory.wf = true) {o : OrderState} (hc : o.count ≤ 12) :
    OrderFrame i n s (closeOrderSlot n o s) := (closeEntries i n hm hc o.total).trans (markDone ..)

theorem writeProgress (i : SpoutId) (n : SlotId) (count total : Nat) (s : State) :
    OrderFrame i n s (writeProgress n count total s) :=
  (writeSlot i n s 0x18 (by simp only [List.length_append, length_u8Bytes]; omega)).trans
    (writeSlot i n _ 0x1C (by rw [length_u32Bytes]; omega))

theorem writeEntry (i : SpoutId) (n : SlotId) {e : Nat} (he : e < 12) (code : Code) (secondary : Option Code)
    (trims final : Nat) (s : State) : OrderFrame i n s (writeEntry n e code secondary trims final s) := by
  unfold Machine.writeEntry
  rw [Nat.add_assoc, Nat.add_assoc]
  exact (writeSlot i n s _ (by simp only [List.length_append, length_u8Bytes]; unfold entryOffset; omega)).trans
    (writeSlot i n _ _ (by rw [length_u32Bytes]; unfold entryOffset; omega))

theorem takeFinal (i : SpoutId) (n : SlotId) (s : State) : OrderFrame i n s (takeFinal i s).1 := by
  unfold Machine.takeFinal; split
  · split
    · exact refl i n s
    · exact ⟨rfl, rfl, rfl, id, fun _ _ => rfl, ⟨rfl, rfl, rfl⟩, fun m _ => .refl m s, id⟩
  · exact refl i n s

end OrderFrame

/-! ## A spout that works by itself -/

/-- The spout is FAULTED and runs the order of slot `n` by itself, with an empty queue and no claim on it. -/
structure Spout.WorksAlone (n : SlotId) (p : Spout) : Prop where
  slot : p.context.slot = some n
  claim : p.context.claim = none
  twin : p.context.order.twin = false
  bound : p.context.stage ≠ .bound
  count : p.context.order.count ≤ 12
  queue : p.queue = []
  faulted : p.positioner.position = .faulted

theorem spout_setStage (i : SpoutId) (x : Stage) (s : State) :
    (setStage i x s).spout i = { s.spout i with context := { s.context i with stage := x } } := by
  have hu : (s.updateContext i fun c => { c with stage := x }).spout i
      = { s.spout i with context := { s.context i with stage := x } } := State.spout_updateSpout_self ..
  unfold setStage; dsimp only; split
  · exact hu
  · rw [(sameButMemory_refreshPanel ..).spout, hu]

theorem spout_restContext (i : SpoutId) (s : State) :
    (restContext i s).spout i = { s.spout i with context := { (s.context i).rest with stage := .idle } } := by
  have hu : (s.updateContext i Context.rest).spout i = { s.spout i with context := (s.context i).rest } :=
    State.spout_updateSpout_self ..
  rw [restContext, spout_setStage, State.context, hu]

theorem spout_closeOrderSlot (n : SlotId) (o : OrderState) (s : State) (j : SpoutId) :
    (closeOrderSlot n o s).spout j = s.spout j := by
  unfold closeOrderSlot; dsimp only
  rw [(sameButAnswers_markDone ..).spout, (sameButMemory_closeEntries ..).spout]

/-- R109: the order of a spout that works by itself ends, and nothing is served after it. -/
theorem endOrder_alone {i : SpoutId} {n : SlotId} {s : State} (h : (s.spout i).WorksAlone n) :
    endOrder react i s = restContext i (closeOrderSlot n (s.order i) s) := by
  have hslot : (s.context i).slot = some n := h.slot
  have htwin : (s.order i).twin = false := h.twin
  unfold endOrder; dsimp only
  rw [hslot, htwin, if_neg Bool.false_ne_true]
  refine reactTo_idle_of_nothing _ ?_ ?_
  · rw [State.context, spout_restContext, State.context, spout_closeOrderSlot]; exact h.claim
  · rw [State.queue, spout_restContext, spout_closeOrderSlot]; exact h.queue

theorem spout_endOrder_alone {i : SpoutId} {n : SlotId} {s : State} (h : (s.spout i).WorksAlone n) :
    (endOrder react i s).spout i = { s.spout i with context := { (s.context i).rest with stage := .idle } } := by
  rw [endOrder_alone h, spout_restContext, State.context, spout_closeOrderSlot]; rfl

theorem orderFrame_endOrder {i : SpoutId} {n : SlotId} {s : State} (hm : s.memory.wf = true) (h : (s.spout i).WorksAlone n) :
    OrderFrame i n s (endOrder react i s) := by
  rw [endOrder_alone h]
  exact (OrderFrame.closeOrderSlot i n hm h.count).trans (.restContext ..)

theorem sameSlot_updateSpout (m : SlotId) (s : State) (i : SpoutId) (f : Spout → Spout) :
    SameSlot m s (s.updateSpout i f) := fun _ _ => rfl

theorem sameSlot_setStage (m : SlotId) (i : SpoutId) (x : Stage) (s : State) : SameSlot m s (setStage i x s) := by
  have hu : SameSlot m s (s.updateContext i fun c => { c with stage := x }) := sameSlot_updateSpout m s i _
  unfold setStage; dsimp only; split
  · exact hu
  · exact hu.trans (sameSlot_refreshPanel m i _)

theorem sameSlot_restContext (m : SlotId) (i : SpoutId) (s : State) : SameSlot m s (restContext i s) := by
  have hu : SameSlot m s (s.updateContext i Context.rest) := sameSlot_updateSpout m s i _
  exact hu.trans (sameSlot_setStage m i .idle _)

/-- R109 steps 1 and 3: the slot of an order that has ended by a fault. -/
theorem closeOrderSlot_slot {n : SlotId} {s : State} (hm : s.memory.wf = true) {o : OrderState} (hmark : o.mark = .spoutFault) :
    (closeOrderSlot n o s).slotStateByte n = 4 ∧ (closeOrderSlot n o s).slotU8 n 3 = 6
      ∧ (∀ e < o.count, (closeOrderSlot n o s).entryCode n e = closedCode (s.entryCode n e))
      ∧ ∀ e off, 6 ≤ off → off < 16 →
        (closeOrderSlot n o s).slotU8 n (entryOffset e + off) = s.slotU8 n (entryOffset e + off) := by
  have hw := wf_closeEntries hm n o.count o.total
  have hcode (e : Nat) (he : e < o.count) := entryCode_closeEntries hm n he o.total
  have hother (e off : Nat) (h6 : 6 ≤ off) (h16 : off < 16) :
      (closeEntries n o.count o.total s).slotU8 n (entryOffset e + off) = s.slotU8 n (entryOffset e + off) :=
    congrArg BitVec.toNat (read_closeEntries hm n o.count o.total (by unfold entryOffset; omega) fun e' _ => by
      unfold entryOffset; omega)
  have hresult (codes : List Nat) : orderResult o.mark codes = .spoutFault := by rw [hmark]; rfl
  have heq : closeOrderSlot n o s = (closeEntries n o.count o.total s).answered n 6 0 0xFF := by
    unfold closeOrderSlot; dsimp only
    rw [hresult, markDone_eq]; rfl
  rw [heq]
  generalize closeEntries n o.count o.total s = u at *
  exact ⟨slotStateByte_answered hw .., result_answered hw ..,
    fun e he => (slotU8_answered u n _ _ _ (by omega) (by unfold entryOffset; omega)).trans (hcode e he),
    fun e off h6 h16 => (slotU8_answered u n _ _ _ (by omega) (by unfold entryOffset; omega)).trans (hother e off h6 h16)⟩

end Sys2Proof.Machine

/-! A spout that works by itself and is FAULTED: the end of its order (R39, R40, R104, R109). -/

namespace Sys2Proof.Machine

/-! ## An order that ends by a fault -/

/-- R40, R109: what the end of the order in slot `n` leaves: the context at rest, the slot DONE with SPOUT_FAULT, the PENDING
entries NOT_REACHED and the other fields of the entries as they are. -/
structure State.OrderEnded (i : SpoutId) (n : SlotId) (s t : State) : Prop where
  rest : t.atRest i
  slotState : t.slotStateByte n = 4
  result : t.slotU8 n 3 = 6
  codes : ∀ e < (s.order i).count, t.entryCode n e = closedCode (s.entryCode n e)
  fields : ∀ e < 12, ∀ off, 6 ≤ off → off < 16 → t.slotU8 n (entryOffset e + off) = s.slotU8 n (entryOffset e + off)
  gate : t.gate i = s.gate i
  channel : t.channel i = s.channel i

theorem orderEnded_concludeOrder {i : SpoutId} {n : SlotId} {s : State} (hm : s.memory.wf = true)
    (h : (s.spout i).WorksAlone n) (hmark : (s.order i).mark = .spoutFault) :
    s.OrderEnded i n (concludeOrder react i s) := by
  have hend : concludeOrder react i s = endOrder react i s := if_neg (by rw [hmark]; decide)
  have hspout := spout_endOrder_alone h
  rw [hend]
  obtain ⟨hstate, hresult, hcodes, hfields⟩ := closeOrderSlot_slot hm (n := n) hmark
  have hslot : SameSlot n (closeOrderSlot n (s.order i) s) (endOrder react i s) := by
    rw [endOrder_alone h]; exact sameSlot_restContext n i _
  have hcount : (s.order i).count ≤ 12 := h.count
  exact {
    rest := ⟨(congrArg (fun p => p.context.stage) hspout :), (congrArg (fun p => p.context.slot) hspout :),
      (congrArg (fun p => p.context.order) hspout :), (congrArg (fun p => p.context.compartment) hspout :)⟩
    slotState := hslot.slotStateByte.trans hstate
    result := (hslot.slotU8 (by omega)).trans hresult
    codes := fun e he => (hslot.entryCode (by omega)).trans (hcodes e he)
    fields := fun e he off h6 h16 => (hslot.slotU8 (by unfold entryOffset; omega)).trans (hfields e off h6 h16)
    gate := (congrArg (fun p => p.context.gate) hspout :)
    channel := (congrArg Spout.channel hspout :) }

/-- R117: the end under a soft reset mark keeps the same frame. -/
theorem orderFrame_resetRest {i : SpoutId} {n : SlotId} {s : State} (hm : s.memory.wf = true) (h : (s.spout i).WorksAlone n) :
    OrderFrame i n s (resetRest i s) := by
  have hslot : (s.context i).slot = some n := h.slot
  have htwin : (s.order i).twin = false := h.twin
  unfold resetRest; dsimp only
  rw [hslot, htwin, if_neg Bool.false_ne_true]
  exact ((OrderFrame.closeEntries i n hm h.count _).trans
    (.writeSlot i n _ 3 (by simp only [List.length_append, length_u8Bytes]; omega))).trans (.restContext ..)

theorem orderFrame_concludeOrder {i : SpoutId} {n : SlotId} {s : State} (hm : s.memory.wf = true)
    (h : (s.spout i).WorksAlone n) : OrderFrame i n s (concludeOrder react i s) := by
  unfold concludeOrder; split
  · exact orderFrame_resetRest hm h
  · exact orderFrame_endOrder hm h

/-! ## The record of a compartment -/

/-- R39, R104: the entry and the mark that the end of a compartment leaves. -/
def recordedAs (i : SpoutId) (code : Code) (final : Nat) (s : State) : State :=
  markOrder i code.mark (recordEntry i code final s)

theorem recordedAs_eq {i : SpoutId} {n : SlotId} {s : State} (h : (s.context i).slot = some n) (code : Code) (final : Nat) :
    recordedAs i code final s = (writeProgress n (s.order i).count ((s.order i).total + final)
        (writeEntry n (s.compartment i).index code (s.compartment i).secondary (s.compartment i).trimsUsed final
          (s.updateOrder i fun x => { x with total := x.total + final }))).updateOrder i
      fun x => { x with mark := x.mark.strongest code.mark } := by
  unfold recordedAs markOrder recordEntry; dsimp only
  rw [State.context_updateOrder_self, h]; dsimp only
  rw [State.order_updateOrder_self]

theorem spout_recordedAs {i : SpoutId} {n : SlotId} {s : State} (h : (s.context i).slot = some n) (code : Code) (final : Nat) :
    (recordedAs i code final s).spout i = { s.spout i with context := { s.context i with order := { s.order i with
      total := (s.order i).total + final, mark := (s.order i).mark.strongest code.mark } } } := by
  have hentry (t : State) : SameButMemory t (writeProgress n (s.order i).count ((s.order i).total + final)
      (writeEntry n (s.compartment i).index code (s.compartment i).secondary (s.compartment i).trimsUsed final t)) :=
    (sameButMemory_writeEntry ..).trans (sameButMemory_writeProgress ..)
  rw [recordedAs_eq h]
  refine (State.spout_updateSpout_self ..).trans ?_
  rw [(hentry _).spout, show (s.updateOrder i fun x => { x with total := x.total + final }).spout i
    = { s.spout i with context := { s.context i with order := { s.order i with total := (s.order i).total + final } } }
    from State.spout_updateSpout_self ..]

theorem Spout.WorksAlone.recorded {i : SpoutId} {n : SlotId} {s : State} (h : (s.spout i).WorksAlone n) (code : Code)
    (final : Nat) : ((recordedAs i code final s).spout i).WorksAlone n := by
  rw [spout_recordedAs h.slot]; exact { h with }

theorem orderFrame_recordedAs {i : SpoutId} {n : SlotId} {s : State} (h : (s.context i).slot = some n)
    (he : (s.compartment i).index < 12) (code : Code) (final : Nat) : OrderFrame i n s (recordedAs i code final s) := by
  rw [recordedAs_eq h]
  exact (((OrderFrame.updateContext i n s _).trans (.writeEntry i n he code _ _ _ _)).trans (.writeProgress i n _ _ _)).trans
    (.updateContext i n _ _)

theorem Code.value_lt (code : Code) : code.value < 256 := by cases code <;> decide

/-- R39 step 2: the fields that an entry shows once it is written. -/
theorem entryShows_writeEntry {s : State} (hm : s.memory.wf = true) (n : SlotId) (e : Nat) (code : Code)
    (secondary : Option Code) (trims final : Nat) :
    (writeEntry n e code secondary trims final s).entryShows n e code.value ((secondary.map Code.value).getD 0) (trims % 256)
      (final % 4294967296) := by
  have hsecondary : (secondary.map Code.value).getD 0 < 256 := by
    cases secondary with
    | none => decide
    | some c => exact c.value_lt
  have hfinal : (writeEntry n e code secondary trims final s).slotU32 n (entryOffset e + 12) = final % 4294967296 := by
    unfold State.slotU32; rw [← Nat.add_assoc]
    exact (State.holds_writeMemory (Memory.wf_writeBytes hm _ _) _ _).u32_field
  have hcodes : (writeEntry n e code secondary trims final s).holds (Config.slotBase n + entryOffset e + 5)
      (u8Bytes code.value ++ u8Bytes ((secondary.map Code.value).getD 0) ++ u8Bytes trims) :=
    (State.holds_writeMemory hm _ _).writeMemory_other (.inl (by simp only [List.length_append, length_u8Bytes]; omega))
  obtain ⟨hpair, htrims⟩ := State.holds_append.1 hcodes
  obtain ⟨hcode, hsecond⟩ := State.holds_append.1 hpair
  simp only [List.length_append, length_u8Bytes, Nat.add_assoc, Nat.reduceAdd] at htrims hcode hsecond
  exact ⟨hcode.u8_field.trans (Nat.mod_eq_of_lt code.value_lt), hsecond.u8_field.trans (Nat.mod_eq_of_lt hsecondary),
    htrims.u8_field, hfinal⟩

theorem slotU32_of_bytes {s t : State} {n : SlotId} {off : Nat}
    (h : ∀ k < 4, t.slotU8 n (off + k) = s.slotU8 n (off + k)) : t.slotU32 n off = s.slotU32 n off := by
  have h0 := h 0 (by omega)
  have h1 := h 1 (by omega)
  have h2 := h 2 (by omega)
  have h3 := h 3 (by omega)
  unfold State.slotU8 at h0 h1 h2 h3
  simp only [← Nat.add_assoc, Nat.add_zero] at h0 h1 h2 h3
  unfold State.slotU32 Memory.u32 Memory.u16
  rw [h0, h1, h2, h3]

/-- An entry shows the same where its code and the fields behind it read the same. -/
theorem State.entryShows.of_bytes {s t : State} {n : SlotId} {e code secondary trims final : Nat}
    (h : s.entryShows n e code secondary trims final) (hcode : t.entryCode n e = s.entryCode n e)
    (hfields : ∀ off, 6 ≤ off → off < 16 → t.slotU8 n (entryOffset e + off) = s.slotU8 n (entryOffset e + off)) :
    t.entryShows n e code secondary trims final := by
  obtain ⟨h5, h6, h7, h12⟩ := h
  refine ⟨hcode.trans h5, (hfields 6 (by omega) (by omega)).trans h6, (hfields 7 (by omega) (by omega)).trans h7,
    (slotU32_of_bytes fun k hk => ?_).trans h12⟩
  rw [Nat.add_assoc]; exact hfields (12 + k) (by omega) (by omega)

theorem State.entryShows.progressed {s : State} {n : SlotId} {e code secondary trims final : Nat}
    (h : s.entryShows n e code secondary trims final) (count total : Nat) :
    (writeProgress n count total s).entryShows n e code secondary trims final :=
  h.of_bytes (entryCode_of_read (read_writeProgress _ n _ _ (.inr (by unfold entryOffset; omega)))) fun off _ _ =>
    congrArg BitVec.toNat (read_writeProgress _ n _ _ (.inr (by unfold entryOffset; omega)))

theorem entryShows_updateOrder (s : State) (i : SpoutId) (f : OrderState → OrderState) (n : SlotId)
    (e code secondary trims final : Nat) :
    (s.updateOrder i f).entryShows n e code secondary trims final ↔ s.entryShows n e code secondary trims final := Iff.rfl

theorem entryShows_recordedAs {i : SpoutId} {n : SlotId} {s : State} (hm : s.memory.wf = true)
    (h : (s.context i).slot = some n) (code : Code) (final : Nat) :
    (recordedAs i code final s).entryShows n (s.compartment i).index code.value
      (((s.compartment i).secondary.map Code.value).getD 0) ((s.compartment i).trimsUsed % 256) (final % 4294967296) := by
  rw [recordedAs_eq h, entryShows_updateOrder]
  exact (entryShows_writeEntry (s := s.updateOrder i fun x => { x with total := x.total + final }) hm ..).progressed ..

/-- R39 step 2, R109: an entry that has a code keeps it when its order ends. -/
theorem State.OrderEnded.entryShows {i : SpoutId} {n : SlotId} {s t : State} (h : s.OrderEnded i n t)
    {e code secondary trims final : Nat} (he : e < (s.order i).count) (he' : e < 12) (hc : code ≠ 0)
    (hs : s.entryShows n e code secondary trims final) : t.entryShows n e code secondary trims final :=
  hs.of_bytes ((h.codes e he).trans (by rw [hs.1]; exact if_neg hc)) (h.fields e he')

/-! ## The end of a compartment -/

/-- R69: a compartment that did not settle teaches nothing. -/
theorem handRecord_unsettled (o : SpoutId) (code : Code) (final : Nat) (s : State) : handRecord o code final false s = s := by
  have hlearn (n : SlotId) : learnRecord (s.cutRecord o n code final false) s = s := by
    unfold learnRecord; split
    · rfl
    · next v _ =>
      have hq : (s.cutRecord o n code final false).qualifies v = false := Bool.and_false _
      rw [hq, if_neg Bool.false_ne_true]
  unfold handRecord; split
  · rw [hlearn, ite_self]
  · rfl

theorem forMembers_single {o : SpoutId} {s : State} (h : s.isTwin o = false) (f : SpoutId → State → State) :
    forMembers o f s = f o s := by
  simp [forMembers, State.members, h]

theorem spout_endIntegration (i : SpoutId) (s : State) :
    (endIntegration i s).spout i = { s.spout i with channel := (s.channel i).endCompartment } :=
  State.spout_updateSpout_self ..

theorem Spout.WorksAlone.endIntegration {i : SpoutId} {n : SlotId} {s : State} (h : (s.spout i).WorksAlone n) :
    ((endIntegration i s).spout i).WorksAlone n := by
  rw [spout_endIntegration]; exact { h with }

theorem spout_takeFinal (i : SpoutId) (s : State) (j : SpoutId) : (takeFinal i s).1.spout j = s.spout j := by
  unfold takeFinal; split
  · split <;> rfl
  · rfl

/-- R39 step 5, R40: the compartment of a FAULTED spout ends, and its order with it. -/
theorem finishCompartment_alone {i : SpoutId} {n : SlotId} {s t : State} {final : Nat} (h : (s.spout i).WorksAlone n)
    (ht : takeFinal i (endIntegration i s) = (t, final)) :
    finishCompartment react i false s
      = concludeOrder react i (recordedAs i (compartmentCode (t.order i) (t.compartment i) final) final t) := by
  have htake : ((takeFinal i (endIntegration i s)).1.spout i).WorksAlone n := by
    rw [spout_takeFinal]; exact h.endIntegration
  rw [ht] at htake
  have hrecorded := htake.recorded (compartmentCode (t.order i) (t.compartment i) final) final
  unfold finishCompartment; dsimp only
  rw [forMembers_single h.twin, ht]; dsimp only
  rw [handRecord_unsettled, ← recordedAs]
  generalize recordedAs i (compartmentCode (t.order i) (t.compartment i) final) final t = r at *
  have hrelease : startRelease react i false r = concludeOrder react i r := by
    have htwin : r.isTwin i = false := hrecorded.twin
    have hfaulted : r.isFaulted i = true := beq_iff_eq.2 hrecorded.faulted
    unfold startRelease
    rw [htwin, hfaulted]; rfl
  rw [hrelease]; unfold concludeOrder
  split <;> rfl

theorem orderFrame_finishCompartment {i : SpoutId} {n : SlotId} {s : State} (hm : s.memory.wf = true)
    (h : (s.spout i).WorksAlone n) (he : (s.compartment i).index < 12) :
    OrderFrame i n s (finishCompartment react i false s) := by
  rcases ht : takeFinal i (endIntegration i s) with ⟨t, final⟩
  have hspout : t.spout i = (endIntegration i s).spout i := by simpa only [ht] using spout_takeFinal i (endIntegration i s) i
  have htaken : OrderFrame i n s t := by
    simpa only [ht] using (OrderFrame.endIntegration i n s).trans (.takeFinal i n _)
  have hworks : (t.spout i).WorksAlone n := by rw [hspout]; exact h.endIntegration
  have hindex : (t.compartment i).index = (s.compartment i).index :=
    congrArg (fun p => p.context.compartment.index) (hspout.trans (spout_endIntegration i s))
  have hrecorded := htaken.trans (orderFrame_recordedAs hworks.slot (hindex ▸ he)
    (compartmentCode (t.order i) (t.compartment i) final) final)
  rw [finishCompartment_alone h ht]
  exact hrecorded.trans (orderFrame_concludeOrder (hrecorded.wf hm) (hworks.recorded _ _))

/-- R39, R104, R109: what the end of a compartment leaves where it ends its order with SPOUT_FAULT. -/
theorem finishCompartment_ended {i : SpoutId} {n : SlotId} {s : State} {final : Nat} {code : Code} (hm : s.memory.wf = true)
    (h : (s.spout i).WorksAlone n) (he : (s.compartment i).index < (s.order i).count)
    (ht : takeFinal i (endIntegration i s) = (endIntegration i s, final))
    (hcode : compartmentCode (s.order i) (s.compartment i) final = code) (hpending : code ≠ .pending)
    (hmark : (s.order i).mark.strongest code.mark = .spoutFault) :
    let t := finishCompartment react i false s
    (t.atRest i ∧ t.slotStateByte n = 4 ∧ t.slotU8 n 3 = 6)
      ∧ t.entryShows n (s.compartment i).index code.value (((s.compartment i).secondary.map Code.value).getD 0)
        ((s.compartment i).trimsUsed % 256) (final % 4294967296)
      ∧ (t.channel i).integrating = false ∧ t.gate i = s.gate i := by
  have hvalue : code.value ≠ 0 := by cases code <;> simp_all [Code.value]
  have hspout := spout_endIntegration i s
  have hcontext : (endIntegration i s).context i = s.context i := (congrArg Spout.context hspout :)
  have horder : (endIntegration i s).order i = s.order i := congrArg Context.order hcontext
  have hcompartment : (endIntegration i s).compartment i = s.compartment i := congrArg Context.compartment hcontext
  have hworks := h.endIntegration
  have hw := (OrderFrame.endIntegration i n s).wf hm
  have hshut : ((endIntegration i s).channel i).integrating = false :=
    (congrArg (fun p => p.channel.integrating) hspout :)
  rw [finishCompartment_alone h ht, horder, hcompartment, hcode]
  have hgate : (endIntegration i s).gate i = s.gate i := congrArg Context.gate hcontext
  have hcount : (s.order i).count ≤ 12 := h.count
  generalize endIntegration i s = u at *
  have hrecorded := spout_recordedAs hworks.slot code final
  have hframe := orderFrame_recordedAs hworks.slot (by rw [hcompartment]; omega) code final
  have hcount' : ((recordedAs i code final u).order i).count = (s.order i).count :=
    (congrArg (fun p => p.context.order.count) hrecorded).trans (congrArg OrderState.count horder)
  have hend := orderEnded_concludeOrder (hframe.wf hw) (hworks.recorded code final)
    ((congrArg (fun p => p.context.order.mark) hrecorded).trans (horder ▸ hmark))
  have hshows := entryShows_recordedAs hw hworks.slot code final
  rw [hcompartment] at hshows
  exact ⟨⟨hend.rest, hend.slotState, hend.result⟩, hend.entryShows (hcount' ▸ he) (by omega) hvalue hshows,
    (congrArg Channel.integrating (hend.channel.trans (congrArg Spout.channel hrecorded))).trans hshut,
    hend.gate.trans ((congrArg (fun p => p.context.gate) hrecorded).trans hgate)⟩

end Sys2Proof.Machine

/-! A sensor loss on a spout that works by itself (R26, R28, R40, R46, R93, R107): what its context does, stage by stage. -/

namespace Sys2Proof.Machine

/-! ## The stages in which the compartment meters (R46) -/

/-- R46: the context as a sensor loss first leaves it: its order marked, its channel frozen. -/
def frozen (i : SpoutId) (s : State) : State := endIntegration i (markOrder i .spoutFault s)

theorem spout_markOrder (i : SpoutId) (m : EndMark) (s : State) :
    (markOrder i m s).spout i = { s.spout i with
      context := { s.context i with order := { s.order i with mark := (s.order i).mark.strongest m } } } :=
  State.spout_updateSpout_self ..

theorem spout_frozen (i : SpoutId) (s : State) :
    (frozen i s).spout i = { s.spout i with
      channel := (s.channel i).endCompartment
      context := { s.context i with order := { s.order i with mark := (s.order i).mark.strongest .spoutFault } } } := by
  rw [frozen, spout_endIntegration, State.channel, spout_markOrder]; rfl

theorem orderFrame_markOrder (i : SpoutId) (n : SlotId) (m : EndMark) (s : State) : OrderFrame i n s (markOrder i m s) :=
  OrderFrame.updateContext i n s fun c => { c with order := { c.order with mark := c.order.mark.strongest m } }

theorem orderFrame_frozen (i : SpoutId) (n : SlotId) (s : State) : OrderFrame i n s (frozen i s) :=
  (orderFrame_markOrder ..).trans (.endIntegration ..)

theorem Spout.WorksAlone.marked {i : SpoutId} {n : SlotId} {s : State} (h : (s.spout i).WorksAlone n) (m : EndMark) :
    ((markOrder i m s).spout i).WorksAlone n := by
  rw [spout_markOrder]; exact { h with }

theorem Spout.WorksAlone.frozen {i : SpoutId} {n : SlotId} {s : State} (h : (s.spout i).WorksAlone n) :
    ((frozen i s).spout i).WorksAlone n := (h.marked _).endIntegration

theorem spout_updateCompartment (i : SpoutId) (f : Compartment → Compartment) (s : State) :
    (s.updateCompartment i f).spout i = { s.spout i with context := { s.context i with compartment := f (s.compartment i) } } :=
  State.spout_updateSpout_self ..

theorem Spout.WorksAlone.withCompartment {i : SpoutId} {n : SlotId} {s : State} (h : (s.spout i).WorksAlone n)
    (f : Compartment → Compartment) : ((s.updateCompartment i f).spout i).WorksAlone n := by
  rw [spout_updateCompartment]; exact { h with }

theorem ownerOf_alone {i : SpoutId} {n : SlotId} {s : State} (h : (s.spout i).WorksAlone n) : s.ownerOf i = i := by
  have hbound : s.isBound i = false := beq_eq_false_iff_ne.2 h.bound
  unfold State.ownerOf
  rw [hbound, if_neg Bool.false_ne_true]

theorem stage_frozen (i : SpoutId) (s : State) : (frozen i s).stage i = s.stage i :=
  (congrArg (fun p => p.context.stage) (spout_frozen i s) :)

theorem faultMetering_alone {i : SpoutId} {n : SlotId} {s : State} (h : (s.spout i).WorksAlone n) :
    faultMetering react i i .sensorLost s = faultAlone react i .sensorLost (markOrder i .spoutFault s) := by
  have htwin : (markOrder i .spoutFault s).isTwin i = false := (h.marked _).twin
  unfold faultMetering; dsimp only
  rw [htwin, if_pos Bool.false_ne_true]

theorem freezeChannel_sensorLost (i : SpoutId) (s : State) :
    freezeChannel i .sensorLost (markOrder i .spoutFault s) = frozen i s := if_neg (by decide)

/-- R46: a close runs on, and the compartment ends without settle. -/
theorem contextFaulted_closing {i : SpoutId} {n : SlotId} {s : State} (h : (s.spout i).WorksAlone n) (hs : s.stage i = .closing) :
    contextFaulted react i .sensorLost s
      = ((frozen i s).updateCompartment i (Compartment.record .sensorLost)).updateCompartment i
          fun c => { c with noSettle := true } := by
  unfold contextFaulted; dsimp only
  rw [ownerOf_alone h, hs]; dsimp only
  rw [faultMetering_alone h]
  unfold faultAlone; dsimp only
  rw [freezeChannel_sensorLost, stage_frozen, hs]; dsimp only
  rw [if_neg (by decide), if_neg (by decide)]; rfl

/-- R46: SETTLING ends at once. -/
theorem contextFaulted_settling {i : SpoutId} {n : SlotId} {s : State} (h : (s.spout i).WorksAlone n) (hs : s.stage i = .settling) :
    contextFaulted react i .sensorLost s
      = finishCompartment react i false ((frozen i s).updateCompartment i (Compartment.record .sensorLost)) := by
  unfold contextFaulted; dsimp only
  rw [ownerOf_alone h, hs]; dsimp only
  rw [faultMetering_alone h]
  unfold faultAlone; dsimp only
  rw [freezeChannel_sensorLost, stage_frozen, hs]; dsimp only
  rw [if_neg (by decide)]; rfl

theorem Stage.isOpen_iff (x : Stage) : x.isOpen = true ↔ x = .opening ∨ x = .coarse ∨ x = .fine ∨ x = .trim := by
  cases x <;> decide

/-- R46: an open stage is cut, and the compartment ends without settle. -/
theorem contextFaulted_open {i : SpoutId} {n : SlotId} {s : State} (h : (s.spout i).WorksAlone n)
    (hs : (s.stage i).isOpen = true) :
    contextFaulted react i .sensorLost s
      = (cut i (some .sensorLost) (frozen i s)).updateCompartment i fun c => { c with noSettle := true } := by
  have hcut : faultAlone react i .sensorLost (markOrder i .spoutFault s)
      = (cut i (some .sensorLost) (frozen i s)).updateCompartment i fun c => { c with noSettle := true } := by
    unfold faultAlone; dsimp only
    rw [freezeChannel_sensorLost, stage_frozen]
    split
    · next e => rw [e] at hs; cases hs
    · next e => rw [e] at hs; cases hs
    · rfl
  rw [← hcut, ← faultMetering_alone h]
  unfold contextFaulted; dsimp only
  rw [ownerOf_alone h]
  obtain e | e | e | e := (Stage.isOpen_iff _).1 hs <;> simp only [e]

/-! ## A close that runs on -/

theorem EndMark.strongest_spoutFault {m : EndMark} (h : m ≠ .reset) : m.strongest .spoutFault = .spoutFault := by
  cases m with
  | reset => exact absurd rfl h
  | none | ended | stopped | spoutFault => rfl

theorem Compartment.record_sensorLost (x : Compartment) : x.record .sensorLost = { x with
    cause := some (x.cause.getD .sensorLost)
    secondary := if x.cause ≠ none ∧ x.secondary = none then some .sensorLost else x.secondary } := by
  obtain ⟨_, _, cause, secondary⟩ := x
  cases cause <;> cases secondary <;> rfl

/-- R46: the loss recorded in the compartment of a frozen context. -/
def lossRecorded (i : SpoutId) (s : State) : State := (frozen i s).updateCompartment i (Compartment.record .sensorLost)

theorem spout_lossRecorded (i : SpoutId) {s : State} (hmark : (s.order i).mark ≠ .reset) :
    let x := s.compartment i
    (lossRecorded i s).spout i = { s.spout i with
      channel := (s.channel i).endCompartment
      context := { s.context i with
        order := { s.order i with mark := .spoutFault }
        compartment := { x with
          cause := some (x.cause.getD .sensorLost)
          secondary := if x.cause ≠ none ∧ x.secondary = none then some .sensorLost else x.secondary } } } := by
  have hfrozen := spout_frozen i s
  have hcompartment : (frozen i s).compartment i = s.compartment i := (congrArg (fun p => p.context.compartment) hfrozen :)
  rw [EndMark.strongest_spoutFault hmark] at hfrozen
  dsimp only
  rw [lossRecorded, spout_updateCompartment, hcompartment, State.context, hfrozen, Compartment.record_sensorLost]

/-- R46: what a sensor loss in CLOSING leaves. -/
theorem contextFaulted_closing_holds {i : SpoutId} {n : SlotId} {s : State} (h : (s.spout i).WorksAlone n)
    (hmark : (s.order i).mark ≠ .reset) (hs : s.stage i = .closing) :
    let t := contextFaulted react i .sensorLost s
    let x := s.compartment i
    t.stage i = .closing ∧ t.gate i = s.gate i ∧ (t.channel i).integrating = false
      ∧ t.compartment i = { x with
          cause := some (x.cause.getD .sensorLost)
          secondary := if x.cause ≠ none ∧ x.secondary = none then some .sensorLost else x.secondary
          noSettle := true }
      ∧ (t.order i).mark = .spoutFault ∧ (t.context i).slot = some n := by
  have hspout := (spout_updateCompartment i (fun c => { c with noSettle := true }) (lossRecorded i s))
  rw [State.compartment, State.context, spout_lossRecorded i hmark] at hspout
  rw [contextFaulted_closing h hs, ← lossRecorded]
  generalize (lossRecorded i s).updateCompartment i _ = t at *
  exact ⟨(congrArg (fun p => p.context.stage) hspout).trans hs, (congrArg (fun p => p.context.gate) hspout :),
    (congrArg (fun p => p.channel.integrating) hspout :), (congrArg (fun p => p.context.compartment) hspout :),
    (congrArg (fun p => p.context.order.mark) hspout :), (congrArg (fun p => p.context.slot) hspout).trans h.slot⟩

/-! ## A cut -/

theorem cut_alone {i : SpoutId} {s : State} (h : s.isTwin i = false) (reason : Option Code) :
    cut i reason s = setStage i .closing
      ((if (s.gate i).isOpen then cutGate i s else s).updateCompartment i (Compartment.setCause reason)) := by
  unfold cut cutMember setMemberPhase
  rw [forMembers_single h, if_pos rfl]

theorem spout_cutGate (i : SpoutId) (s : State) : (cutGate i s).spout i = { s.spout i with context := { s.context i with
    gate := (s.gate i).cut (s.closeTime i), compartment := { s.compartment i with closeAwaited := true } } } := by
  have hgate : (s.updateGate i (GateUnit.cut (s.closeTime i))).spout i
      = { s.spout i with context := { s.context i with gate := (s.gate i).cut (s.closeTime i) } } :=
    State.spout_updateSpout_self ..
  rw [cutGate, setCloseAwaited, spout_updateCompartment, State.compartment, State.context, hgate]; rfl

theorem spout_cut {i : SpoutId} {s : State} (h : s.isTwin i = false) (hg : (s.gate i).isOpen = true) (reason : Option Code) :
    (cut i reason s).spout i = { s.spout i with context := { s.context i with
      stage := .closing, gate := (s.gate i).cut (s.closeTime i)
      compartment := { s.compartment i with closeAwaited := true }.setCause reason } } := by
  rw [cut_alone h, if_pos hg, spout_setStage, State.context, spout_updateCompartment, State.compartment, State.context,
    spout_cutGate]

theorem Compartment.setCause_sensorLost (x : Compartment) :
    x.setCause (some .sensorLost) = { x with cause := some (x.cause.getD .sensorLost) } := by
  obtain ⟨_, _, cause⟩ := x
  cases cause <;> rfl

theorem spout_open {i : SpoutId} {n : SlotId} {s : State} (h : (s.spout i).WorksAlone n) (hs : (s.stage i).isOpen = true)
    (hg : (s.gate i).isOpen = true) :
    (contextFaulted react i .sensorLost s).spout i = { s.spout i with
      channel := (s.channel i).endCompartment
      context := { s.context i with
        stage := .closing, gate := (s.gate i).cut (s.closeTime i)
        order := { s.order i with mark := (s.order i).mark.strongest .spoutFault }
        compartment := { s.compartment i with
          cause := some ((s.compartment i).cause.getD .sensorLost), closeAwaited := true, noSettle := true } } } := by
  have hfrozen := spout_frozen i s
  have hgate : (frozen i s).gate i = s.gate i := (congrArg (fun p => p.context.gate) hfrozen :)
  have hcompartment : (frozen i s).compartment i = s.compartment i := (congrArg (fun p => p.context.compartment) hfrozen :)
  have hcalibration : (frozen i s).calibration i = s.calibration i := (congrArg Spout.calibration hfrozen :)
  have htime : (frozen i s).closeTime i = s.closeTime i := by
    unfold State.closeTime State.hasProfile State.profile; rw [hcalibration]
  rw [contextFaulted_open h hs, spout_updateCompartment, State.compartment, State.context,
    spout_cut h.frozen.twin (by rw [hgate]; exact hg), hgate, hcompartment, htime, Compartment.setCause_sensorLost,
    State.context, hfrozen]

/-- R46: what a sensor loss in an open stage leaves. -/
theorem contextFaulted_open_holds {i : SpoutId} {n : SlotId} {s : State} (h : (s.spout i).WorksAlone n)
    (hmark : (s.order i).mark ≠ .reset) (hs : (s.stage i).isOpen = true) (hg : (s.gate i).isOpen = true)
    (hp : s.hasProfile i = true) :
    let t := contextFaulted react i .sensorLost s
    let x := s.compartment i
    t.stage i = .closing ∧ t.gateIsCut i ∧ (t.channel i).integrating = false
      ∧ t.compartment i = { x with cause := some (x.cause.getD .sensorLost), closeAwaited := true, noSettle := true }
      ∧ (t.order i).mark = .spoutFault ∧ (t.context i).slot = some n := by
  have hspout := spout_open h hs hg
  have htime : s.closeTime i = some (s.profile i).gateCloseTime := if_pos hp
  rw [EndMark.strongest_spoutFault hmark, htime] at hspout
  have hprofile : (contextFaulted react i .sensorLost s).profile i = s.profile i :=
    (congrArg (fun p => p.calibration.profile) hspout :)
  refine ⟨(congrArg (fun p => p.context.stage) hspout :), ⟨(congrArg (fun p => p.context.gate.output) hspout :),
      (congrArg (fun p => p.context.gate.opening) hspout :), (congrArg (fun p => p.context.gate.starve) hspout :), ?_⟩,
    (congrArg (fun p => p.channel.integrating) hspout :), (congrArg (fun p => p.context.compartment) hspout :),
    (congrArg (fun p => p.context.order.mark) hspout :), (congrArg (fun p => p.context.slot) hspout).trans h.slot⟩
  rw [hprofile]
  exact (congrArg (fun p => p.context.gate.close) hspout :)

end Sys2Proof.Machine

/-! A sensor loss that ends the order of a spout that works by itself (R26, R28, R40, R46, R93, R107, R109). -/

namespace Sys2Proof.Machine

/-! ## SETTLING (R46) -/

theorem takeFinal_opened {i : SpoutId} {s : State} (ht : s.isTwin i = false) (ho : (s.compartment i).opened = true)
    (hd : (s.channel i).delivered ≤ Config.maxU32) : takeFinal i s = (s, (s.channel i).delivered) := by
  have hmass : s.mass i = (s.channel i).delivered := if_neg (by rw [ht]; exact Bool.false_ne_true)
  unfold takeFinal
  rw [if_pos ho, hmass, if_pos hd]

theorem takeFinal_unopened {i : SpoutId} {s : State} (ho : (s.compartment i).opened = false) : takeFinal i s = (s, 0) :=
  if_neg (by rw [ho]; exact Bool.false_ne_true)

theorem EndMark.strongest_of_spoutFault {m : EndMark} (h : m ≠ .reset) : EndMark.strongest .spoutFault m = .spoutFault := by
  cases m with
  | reset => exact absurd rfl h
  | none | ended | stopped | spoutFault => rfl

theorem Code.mark_ne_reset {c : Code} (h : c ≠ .reset) : c.mark ≠ .reset := by
  cases c with
  | reset => exact absurd rfl h
  | _ => decide

/-- R48: the code of a compartment that has a cause. -/
theorem compartmentCode_caused {o : OrderState} {x : Compartment} {code : Code} (hmark : o.mark ≠ .reset)
    (hc : x.cause = some code) (final : Nat) : compartmentCode o x final = code := by
  unfold compartmentCode
  rw [if_neg hmark, hc]

/-- R46: what a sensor loss in SETTLING leaves. -/
theorem contextFaulted_settling_holds {i : SpoutId} {n : SlotId} {s : State} (hm : s.memory.wf = true)
    (h : (s.spout i).WorksAlone n) (hmark : (s.order i).mark ≠ .reset) (hs : s.stage i = .settling)
    (he : (s.compartment i).index < (s.order i).count) (ho : (s.compartment i).opened = true)
    (htrims : (s.compartment i).trimsUsed ≤ 3) (hd : (s.channel i).delivered ≤ 4294967295)
    (hreset : (s.compartment i).cause ≠ some .reset) (hpending : (s.compartment i).cause ≠ some .pending) :
    let t := contextFaulted react i .sensorLost s
    let x := s.compartment i
    let secondary := if x.cause ≠ none ∧ x.secondary = none then some .sensorLost else x.secondary
    (t.atRest i ∧ t.slotStateByte n = 4 ∧ t.slotU8 n 3 = 6)
      ∧ t.entryShows n x.index (x.cause.getD .sensorLost).value ((secondary.map Code.value).getD 0) x.trimsUsed
        (s.channel i).delivered
      ∧ (t.channel i).integrating = false ∧ t.gate i = s.gate i := by
  intro t x secondary
  have hspout := spout_lossRecorded i hmark
  have hw : (lossRecorded i s).memory.wf = true := ((orderFrame_frozen i n s).trans (.updateContext i n _ _)).wf hm
  have hworks : ((lossRecorded i s).spout i).WorksAlone n := h.frozen.withCompartment _
  have heq : t = finishCompartment react i false (lossRecorded i s) := contextFaulted_settling h hs
  rw [heq]
  generalize lossRecorded i s = w at *
  have hcause : (w.compartment i).cause = some (x.cause.getD .sensorLost) :=
    (congrArg (fun p => p.context.compartment.cause) hspout :)
  have hwmark : (w.order i).mark = .spoutFault := (congrArg (fun p => p.context.order.mark) hspout :)
  have hindex : (w.compartment i).index = x.index := (congrArg (fun p => p.context.compartment.index) hspout :)
  have hsecondary : (w.compartment i).secondary = secondary := (congrArg (fun p => p.context.compartment.secondary) hspout :)
  have htrimsUsed : (w.compartment i).trimsUsed = x.trimsUsed := (congrArg (fun p => p.context.compartment.trimsUsed) hspout :)
  have hcount : (w.order i).count = (s.order i).count := (congrArg (fun p => p.context.order.count) hspout :)
  have hgate : w.gate i = s.gate i := (congrArg (fun p => p.context.gate) hspout :)
  have hopened : (w.compartment i).opened = true := (congrArg (fun p => p.context.compartment.opened) hspout).trans ho
  have hdelivered : (w.channel i).delivered = (s.channel i).delivered := (congrArg (fun p => p.channel.delivered) hspout :)
  have hfinal : takeFinal i (endIntegration i w) = (endIntegration i w, (s.channel i).delivered) := by
    have hended := spout_endIntegration i w
    have hd' : ((endIntegration i w).channel i).delivered = (s.channel i).delivered :=
      (congrArg (fun p => p.channel.delivered) hended).trans hdelivered
    rw [← hd']
    exact takeFinal_opened hworks.endIntegration.twin
      ((congrArg (fun p => p.context.compartment.opened) hended).trans hopened) (hd' ▸ hd)
  have hcode : x.cause.getD .sensorLost ≠ .reset ∧ x.cause.getD .sensorLost ≠ .pending := by
    cases hx : x.cause with
    | none => decide
    | some c => exact ⟨fun e => hreset (hx.trans (congrArg some e)), fun e => hpending (hx.trans (congrArg some e))⟩
  have hend := finishCompartment_ended hw hworks (by rw [hindex, hcount]; exact he) hfinal
    (compartmentCode_caused (by rw [hwmark]; decide) hcause _) hcode.2
    (by rw [hwmark]; exact EndMark.strongest_of_spoutFault (Code.mark_ne_reset hcode.1))
  rw [hindex, hsecondary, htrimsUsed, hgate, Nat.mod_eq_of_lt (show x.trimsUsed < 256 from lt_of_le_of_lt htrims (by decide)),
    Nat.mod_eq_of_lt (show (s.channel i).delivered < 4294967296 by omega)] at hend
  exact hend

/-! ## ENGAGING and ZEROING (R26, R28) -/

/-- R26, R28, R91: the context as a sensor loss before the opening leaves it: marked, its capture abandoned, the loss its cause. -/
def lossBeforeOpening (i : SpoutId) (s : State) : State :=
  (dropCapture i (markOrder i .spoutFault s)).updateCompartment i (Compartment.setCause (some .sensorLost))

theorem contextFaulted_unopened {i : SpoutId} {n : SlotId} {s : State} (h : (s.spout i).WorksAlone n)
    (hs : s.stage i = .engaging ∨ s.stage i = .zeroing) :
    contextFaulted react i .sensorLost s = finishCompartment react i false (lossBeforeOpening i s) := by
  have hend : endUnopened react i .sensorLost (markOrder i .spoutFault s)
      = finishCompartment react i false (lossBeforeOpening i s) := by
    unfold endUnopened lossBeforeOpening
    rw [forMembers_single (h.marked _).twin]
  rw [← hend]
  unfold contextFaulted; dsimp only
  rw [ownerOf_alone h]
  obtain e | e := hs <;> simp only [e] <;> rfl

theorem spout_dropCapture (i : SpoutId) (s : State) :
    (dropCapture i s).spout i = { s.spout i with calibration := (s.calibration i).dropCapture } :=
  State.spout_updateSpout_self ..

theorem spout_lossBeforeOpening (i : SpoutId) (s : State) : (lossBeforeOpening i s).spout i = { s.spout i with
    calibration := (s.calibration i).dropCapture
    context := { s.context i with
      order := { s.order i with mark := (s.order i).mark.strongest .spoutFault }
      compartment := { s.compartment i with cause := some ((s.compartment i).cause.getD .sensorLost) } } } := by
  rw [lossBeforeOpening, spout_updateCompartment, Compartment.setCause_sensorLost, State.compartment, State.context,
    spout_dropCapture, State.calibration, spout_markOrder]; rfl

theorem Spout.WorksAlone.lossBeforeOpening {i : SpoutId} {n : SlotId} {s : State} (h : (s.spout i).WorksAlone n) :
    ((lossBeforeOpening i s).spout i).WorksAlone n := by
  rw [spout_lossBeforeOpening]; exact { h with }

theorem orderFrame_lossBeforeOpening (i : SpoutId) (n : SlotId) (s : State) : OrderFrame i n s (lossBeforeOpening i s) :=
  ((orderFrame_markOrder i n .spoutFault s).trans (.dropCapture i n _)).trans
    (.updateContext i n _ fun c => { c with compartment := c.compartment.setCause (some .sensorLost) })

/-- R26, R28: what a sensor loss before the opening leaves. -/
theorem contextFaulted_unopened_holds {i : SpoutId} {n : SlotId} {s : State} (hm : s.memory.wf = true)
    (h : (s.spout i).WorksAlone n) (hmark : (s.order i).mark ≠ .reset) (hs : s.stage i = .engaging ∨ s.stage i = .zeroing)
    (he : (s.compartment i).index < (s.order i).count) (hc : (s.compartment i).cause = none)
    (ho : (s.compartment i).opened = false) :
    let t := contextFaulted react i .sensorLost s
    (t.atRest i ∧ t.slotStateByte n = 4 ∧ t.slotU8 n 3 = 6) ∧ t.entryCode n (s.compartment i).index = 11
      ∧ t.slotU32 n (0x40 + 16 * (s.compartment i).index + 12) = 0 ∧ t.gate i = s.gate i := by
  have hspout := spout_lossBeforeOpening i s
  rw [EndMark.strongest_spoutFault hmark, hc] at hspout
  have hw := (orderFrame_lossBeforeOpening i n s).wf hm
  have hworks := h.lossBeforeOpening
  rw [contextFaulted_unopened h hs]
  generalize lossBeforeOpening i s = w at *
  have hwmark : (w.order i).mark = .spoutFault := (congrArg (fun p => p.context.order.mark) hspout :)
  have hindex : (w.compartment i).index = (s.compartment i).index := (congrArg (fun p => p.context.compartment.index) hspout :)
  have hcount : (w.order i).count = (s.order i).count := (congrArg (fun p => p.context.order.count) hspout :)
  have hgate : w.gate i = s.gate i := (congrArg (fun p => p.context.gate) hspout :)
  have hcause : (w.compartment i).cause = some .sensorLost := (congrArg (fun p => p.context.compartment.cause) hspout :)
  have hopened : (w.compartment i).opened = false := (congrArg (fun p => p.context.compartment.opened) hspout).trans ho
  have hfinal : takeFinal i (endIntegration i w) = (endIntegration i w, 0) :=
    takeFinal_unopened ((congrArg (fun p => p.context.compartment.opened) (spout_endIntegration i w)).trans hopened)
  obtain ⟨hended, ⟨hcode, -, -, hmass⟩, -, hgate'⟩ := finishCompartment_ended hw hworks (by rw [hindex, hcount]; exact he) hfinal
    (compartmentCode_caused (by rw [hwmark]; decide) hcause _) (by decide) (by rw [hwmark]; rfl)
  rw [hindex] at hcode hmass
  exact ⟨hended, hcode, hmass, hgate'.trans hgate⟩

/-! ## WAIT_INDEX and RELEASING (R40, R107) -/

theorem contextFaulted_waiting {i : SpoutId} {n : SlotId} {s : State} (h : (s.spout i).WorksAlone n)
    (hmark : (s.order i).mark ≠ .reset) (hs : s.stage i = .waitIndex ∨ s.stage i = .releasing) :
    contextFaulted react i .sensorLost s = concludeOrder react i (markOrder i .spoutFault s) := by
  have hmarked : ((markOrder i .spoutFault s).order i).mark = .spoutFault :=
    (congrArg (fun p => p.context.order.mark) (spout_markOrder ..)).trans (EndMark.strongest_spoutFault hmark)
  have hconclude : concludeOrder react i (markOrder i .spoutFault s) = endOrder react i (markOrder i .spoutFault s) :=
    if_neg (by rw [hmarked]; decide)
  have htwin : (markOrder i .spoutFault s).isTwin i = false := (h.marked _).twin
  unfold contextFaulted; dsimp only
  rw [ownerOf_alone h]
  obtain e | e := hs
  · rw [hconclude]; simp only [e]
  · simp only [e]; rw [htwin, if_neg Bool.false_ne_true]

/-- R40, R107: what a sensor loss between two compartments leaves. -/
theorem contextFaulted_waiting_holds {i : SpoutId} {n : SlotId} {s : State} (hm : s.memory.wf = true)
    (h : (s.spout i).WorksAlone n) (hmark : (s.order i).mark ≠ .reset) (hs : s.stage i = .waitIndex ∨ s.stage i = .releasing) :
    let t := contextFaulted react i .sensorLost s
    (t.atRest i ∧ t.slotStateByte n = 4 ∧ t.slotU8 n 3 = 6) ∧ t.gate i = s.gate i
      ∧ ∀ e ∈ List.range (s.order i).count, t.entryCode n e = if s.entryCode n e = 0 then 21 else s.entryCode n e := by
  have hspout := spout_markOrder i .spoutFault s
  have hend := orderEnded_concludeOrder ((orderFrame_markOrder i n .spoutFault s).wf hm) (h.marked .spoutFault)
    ((congrArg (fun p => p.context.order.mark) hspout).trans (EndMark.strongest_spoutFault hmark))
  rw [contextFaulted_waiting h hmark hs]
  refine ⟨⟨hend.rest, hend.slotState, hend.result⟩, hend.gate.trans (congrArg (fun p => p.context.gate) hspout),
    fun e he => hend.codes e ?_⟩
  rw [State.order, State.context, hspout]
  exact List.mem_range.1 he

/-! ## ZERO_RUN (R93) -/

/-- R92: the slot of a ZERO whose Z is the same after it as before. -/
def zeroUnchanged (i : SpoutId) (n : SlotId) (s : State) : State :=
  markDone n .spoutFault (writeZeroFields n (s.calibration i).zero (s.calibration i).zero (s.calibration i).zeroLimit
    (dropCapture i s))

theorem spout_zeroUnchanged (i : SpoutId) (n : SlotId) (s : State) :
    (zeroUnchanged i n s).spout i = { s.spout i with calibration := (s.calibration i).dropCapture } := by
  rw [zeroUnchanged, (sameButAnswers_markDone ..).spout, writeZeroFields, State.spout_writeMemory, spout_dropCapture]

theorem contextFaulted_zeroRun {i : SpoutId} {n : SlotId} {s : State} (h : (s.spout i).WorksAlone n) (hs : s.stage i = .zeroRun) :
    contextFaulted react i .sensorLost s = restContext i (zeroUnchanged i n s) := by
  have hdropped := spout_dropCapture i s
  have hslot : ((dropCapture i s).context i).slot = some n := (congrArg (fun p => p.context.slot) hdropped).trans h.slot
  have hzero : ((dropCapture i s).calibration i).zero = (s.calibration i).zero :=
    (congrArg (fun p => p.calibration.zero) hdropped :)
  have hlimit : ((dropCapture i s).calibration i).zeroLimit = (s.calibration i).zeroLimit :=
    (congrArg (fun p => p.calibration.zeroLimit) hdropped :)
  have hend : endZeroRun react i .spoutFault (s.calibration i).zero s = react (.idle i) (restContext i (zeroUnchanged i n s)) := by
    unfold endZeroRun zeroUnchanged; dsimp only
    rw [hslot, hzero, hlimit]
  unfold contextFaulted; dsimp only
  rw [ownerOf_alone h, hs]; dsimp only
  rw [endZeroUnchanged, hend]
  refine reactTo_idle_of_nothing _ ?_ ?_
  · rw [State.context, spout_restContext, State.context, spout_zeroUnchanged]; exact h.claim
  · rw [State.queue, spout_restContext, spout_zeroUnchanged]; exact h.queue

theorem orderFrame_zeroUnchanged (i : SpoutId) (n : SlotId) (s : State) : OrderFrame i n s (zeroUnchanged i n s) :=
  ((OrderFrame.dropCapture i n s).trans (.writeSlot i n _ 0x10 (by
    simp only [List.length_append, length_s16Bytes, length_u8Bytes]; omega))).trans (.markDone ..)

theorem wf_writeZeroFields {s : State} (hm : s.memory.wf = true) (n : SlotId) (before after : Int) (limit : Bool) :
    (writeZeroFields n before after limit s).memory.wf = true := Memory.wf_writeBytes hm _ _

theorem slotU16_writeZeroFields_same {s : State} (hm : s.memory.wf = true) (n : SlotId) (z : Int) (limit : Bool) :
    (writeZeroFields n z z limit s).slotU16 n 0x10 = (writeZeroFields n z z limit s).slotU16 n 0x12 := by
  have hfields : (writeZeroFields n z z limit s).holds (Config.slotBase n + 0x10)
      (s16Bytes z ++ s16Bytes z ++ u8Bytes (if limit then 1 else 0)) := State.holds_writeMemory hm _ _
  obtain ⟨hbefore, hafter⟩ := State.holds_append.1 (State.holds_append.1 hfields).1
  rw [length_s16Bytes, Nat.add_assoc] at hafter
  exact (State.holds.u16_field hbefore).trans (State.holds.u16_field hafter).symm

theorem slotU16_answered (s : State) (n : SlotId) (result reason index : Nat) {off : Nat} (ho : 6 ≤ off) :
    (s.answered n result reason index).slotU16 n off = s.slotU16 n off := by
  have low := slotU8_answered s n result reason index (off := off) (by omega) (by omega)
  have high := slotU8_answered s n result reason index (off := off + 1) (by omega) (by omega)
  unfold State.slotU8 at low high
  rw [← Nat.add_assoc] at high
  unfold State.slotU16 Memory.u16
  rw [low, high]

theorem zeroUnchanged_slot (i : SpoutId) (n : SlotId) {s : State} (hm : s.memory.wf = true) :
    (zeroUnchanged i n s).slotStateByte n = 4 ∧ (zeroUnchanged i n s).slotU8 n 3 = 6
      ∧ (zeroUnchanged i n s).slotU16 n 0x10 = (zeroUnchanged i n s).slotU16 n 0x12 := by
  have hdropped := (OrderFrame.dropCapture i n s).wf hm
  have hw := wf_writeZeroFields hdropped n (s.calibration i).zero (s.calibration i).zero (s.calibration i).zeroLimit
  have hsame := slotU16_writeZeroFields_same hdropped n (s.calibration i).zero (s.calibration i).zeroLimit
  unfold zeroUnchanged
  rw [markDone_eq]
  generalize writeZeroFields n _ _ _ (dropCapture i s) = u at *
  exact ⟨slotStateByte_answered hw .., result_answered hw .., (slotU16_answered u n _ _ _ (by omega)).trans
    (hsame.trans (slotU16_answered u n _ _ _ (by omega)).symm)⟩

/-- R93: what a sensor loss during a ZERO leaves. -/
theorem contextFaulted_zeroRun_holds {i : SpoutId} {n : SlotId} {s : State} (hm : s.memory.wf = true)
    (h : (s.spout i).WorksAlone n) (hs : s.stage i = .zeroRun) :
    let t := contextFaulted react i .sensorLost s
    (t.atRest i ∧ t.slotStateByte n = 4 ∧ t.slotU8 n 3 = 6) ∧ t.slotU16 n 0x10 = t.slotU16 n 0x12
      ∧ (t.calibration i).zero = (s.calibration i).zero ∧ (t.calibration i).debt = (s.calibration i).debt
      ∧ (t.calibration i).zeroTimeout = none ∧ t.gate i = s.gate i := by
  have hspout := spout_restContext i (zeroUnchanged i n s)
  have hslot := sameSlot_restContext n i (zeroUnchanged i n s)
  obtain ⟨hstate, hresult, hzero⟩ := zeroUnchanged_slot i n hm
  rw [State.context, spout_zeroUnchanged] at hspout
  rw [contextFaulted_zeroRun h hs]
  generalize restContext i (zeroUnchanged i n s) = t at *
  exact ⟨⟨⟨(congrArg (fun p => p.context.stage) hspout :), (congrArg (fun p => p.context.slot) hspout :),
      (congrArg (fun p => p.context.order) hspout :), (congrArg (fun p => p.context.compartment) hspout :)⟩,
      hslot.slotStateByte.trans hstate, (hslot.slotU8 (by omega)).trans hresult⟩,
    (hslot.slotU16 (by omega)).trans (hzero.trans (hslot.slotU16 (by omega)).symm),
    (congrArg (fun p => p.calibration.zero) hspout :), (congrArg (fun p => p.calibration.debt) hspout :),
    (congrArg (fun p => p.calibration.zeroTimeout) hspout :), (congrArg (fun p => p.context.gate) hspout :)⟩

/-! ## What every stage keeps -/

theorem orderFrame_cut {i : SpoutId} (n : SlotId) {s : State} (h : s.isTwin i = false) (reason : Option Code) :
    OrderFrame i n s (cut i reason s) := by
  rw [cut_alone h]
  have hgate : OrderFrame i n s (if (s.gate i).isOpen then cutGate i s else s) := by
    split
    · exact (OrderFrame.updateContext i n s fun c => { c with gate := c.gate.cut (s.closeTime i) }).trans
        (.updateContext i n _ fun c => { c with compartment := { c.compartment with closeAwaited := true } })
    · exact .refl i n s
  exact (hgate.trans (.updateContext i n _ fun c => { c with compartment := c.compartment.setCause reason })).trans
    (.setStage ..)

theorem orderFrame_noSettle (i : SpoutId) (n : SlotId) (s : State) :
    OrderFrame i n s (s.updateCompartment i fun c => { c with noSettle := true }) :=
  .updateContext i n s fun c => { c with compartment := { c.compartment with noSettle := true } }

theorem orderFrame_lossRecorded (i : SpoutId) (n : SlotId) (s : State) : OrderFrame i n s (lossRecorded i s) :=
  (orderFrame_frozen i n s).trans (.updateContext i n _ fun c => { c with compartment := c.compartment.record .sensorLost })

section Stages

variable {i : SpoutId} {n : SlotId} {s : State}

theorem orderFrame_open (h : (s.spout i).WorksAlone n) (hs : (s.stage i).isOpen = true) :
    OrderFrame i n s (contextFaulted react i .sensorLost s) := by
  rw [contextFaulted_open h hs]
  exact ((orderFrame_frozen i n s).trans (orderFrame_cut n h.frozen.twin _)).trans (orderFrame_noSettle ..)

theorem orderFrame_closing (h : (s.spout i).WorksAlone n) (hs : s.stage i = .closing) :
    OrderFrame i n s (contextFaulted react i .sensorLost s) := by
  rw [contextFaulted_closing h hs]
  exact (orderFrame_lossRecorded i n s).trans (orderFrame_noSettle i n _)

theorem orderFrame_idle (h : (s.spout i).WorksAlone n) (hs : s.stage i = .idle) :
    OrderFrame i n s (contextFaulted react i .sensorLost s) := by
  have hidle : contextFaulted react i .sensorLost s = s := by
    unfold contextFaulted; dsimp only
    rw [ownerOf_alone h, hs]; exact if_neg fun c => by cases c.2
  rw [hidle]; exact .refl i n s

theorem orderFrame_zeroRun (h : (s.spout i).WorksAlone n) (hs : s.stage i = .zeroRun) :
    OrderFrame i n s (contextFaulted react i .sensorLost s) := by
  rw [contextFaulted_zeroRun h hs]
  exact (orderFrame_zeroUnchanged i n s).trans (.restContext ..)

theorem orderFrame_settling (hm : s.memory.wf = true) (h : (s.spout i).WorksAlone n) (hmark : (s.order i).mark ≠ .reset)
    (he : (s.compartment i).index < 12) (hs : s.stage i = .settling) :
    OrderFrame i n s (contextFaulted react i .sensorLost s) := by
  have hloss := orderFrame_lossRecorded i n s
  have hindex : ((lossRecorded i s).compartment i).index = (s.compartment i).index :=
    (congrArg (fun p => p.context.compartment.index) (spout_lossRecorded i hmark) :)
  rw [contextFaulted_settling h hs]
  exact hloss.trans (orderFrame_finishCompartment (hloss.wf hm) (h.frozen.withCompartment _) (hindex ▸ he))

theorem orderFrame_unopened (hm : s.memory.wf = true) (h : (s.spout i).WorksAlone n) (he : (s.compartment i).index < 12)
    (hs : s.stage i = .engaging ∨ s.stage i = .zeroing) : OrderFrame i n s (contextFaulted react i .sensorLost s) := by
  have hloss := orderFrame_lossBeforeOpening i n s
  have hindex : ((lossBeforeOpening i s).compartment i).index = (s.compartment i).index :=
    (congrArg (fun p => p.context.compartment.index) (spout_lossBeforeOpening i s) :)
  rw [contextFaulted_unopened h hs]
  exact hloss.trans (orderFrame_finishCompartment (hloss.wf hm) h.lossBeforeOpening (hindex ▸ he))

theorem orderFrame_waiting (hm : s.memory.wf = true) (h : (s.spout i).WorksAlone n) (hmark : (s.order i).mark ≠ .reset)
    (hs : s.stage i = .waitIndex ∨ s.stage i = .releasing) : OrderFrame i n s (contextFaulted react i .sensorLost s) := by
  have hmarked := orderFrame_markOrder i n .spoutFault s
  rw [contextFaulted_waiting h hmark hs]
  exact hmarked.trans (orderFrame_concludeOrder (hmarked.wf hm) (h.marked _))

/-- R46, R109: in whatever stage a sensor loss finds a spout that works by itself. -/
theorem orderFrame_contextFaulted (hm : s.memory.wf = true) (h : (s.spout i).WorksAlone n)
    (hmark : (s.order i).mark ≠ .reset) (he : (s.compartment i).index < 12 ∨ s.stage i = .zeroRun) :
    OrderFrame i n s (contextFaulted react i .sensorLost s) := by
  have hindex {x : Stage} (e : s.stage i = x) (hx : x ≠ .zeroRun) : (s.compartment i).index < 12 :=
    he.resolve_right (e ▸ hx)
  cases e : s.stage i with
  | idle => exact orderFrame_idle h e
  | bound => exact absurd e h.bound
  | waitIndex => exact orderFrame_waiting hm h hmark (.inl e)
  | releasing => exact orderFrame_waiting hm h hmark (.inr e)
  | engaging => exact orderFrame_unopened hm h (hindex e (by decide)) (.inl e)
  | zeroing => exact orderFrame_unopened hm h (hindex e (by decide)) (.inr e)
  | zeroRun => exact orderFrame_zeroRun h e
  | opening | coarse | fine | trim => exact orderFrame_open h (by rw [e]; rfl)
  | closing => exact orderFrame_closing h e
  | settling => exact orderFrame_settling hm h hmark (hindex e (by decide)) e

end Stages

end Sys2Proof.Machine

/-! A PRESENT link is lost on a spout that works by itself (R46, R134, R148): the entry into FAULTED, and the whole step. -/

namespace Sys2Proof.Machine

/-! ## The slots that the entry into FAULTED writes (R134) -/

theorem memory_updatePosition (i : SpoutId) (f : Positioner → Positioner) {s : State} (hm : s.memory.wf = true) :
    (updatePosition i f s).memory.wf = true ∧ ∀ m, SameSlot m s (updatePosition i f s) := by
  have hu (m : SlotId) : SameSlot m s (s.updatePositioner i f) := sameSlot_updateSpout m s i _
  unfold updatePosition; dsimp only; split
  · exact ⟨hm, hu⟩
  · exact ⟨wf_refreshPanel (s := s.updatePositioner i f) hm i, fun m => (hu m).trans (sameSlot_refreshPanel m i _)⟩

/-- R134, R165: the orders of the queue end without running, and no other slot is written. -/
theorem enterFault_slots (cause : FaultCause) {i : SpoutId} {s : State} (hm : s.memory.wf = true)
    (hf : s.isFaulted i = false) (hx : s.port.exchange ≠ .resetting)
    (hc : ∀ q ∈ s.queue i, s.slotKind q = 1 ∨ s.slotKind q = 2 → s.loadCount q ≤ 12) :
    let t := enterFault i cause s
    t.memory.wf = true ∧ (∀ m ∉ s.queue i, SameSlot m s t)
      ∧ ∀ q ∈ s.queue i, t.slotStateByte q = 4 ∧ t.slotU8 q 3 = 6
        ∧ (s.slotKind q = 1 ∨ s.slotKind q = 2 → ∀ e < s.loadCount q, t.entryCode q e = closedCode (s.entryCode q e)) := by
  have hposition := sameButMemory_updatePosition i (Positioner.enterFault cause) s
  obtain ⟨hw, hslots⟩ := memory_updatePosition i (Positioner.enterFault cause) hm
  have hqueue : (updatePosition i (Positioner.enterFault cause) s).queue i = s.queue i :=
    (congrArg Spout.queue (hposition.spout i)).trans (State.queue_updatePositioner ..)
  have hexchange : (updatePosition i (Positioner.enterFault cause) s).port.exchange = s.port.exchange :=
    (SameButAnswers.of_memory hposition).exchange
  have henter : enterFault i cause s = setSpoutChange (dropCapture i (returnQueue i
      (updatePosition i (Positioner.enterFault cause) s))) := if_neg (by rw [hf]; exact Bool.false_ne_true)
  have hreturn : returnQueue i (updatePosition i (Positioner.enterFault cause) s)
      = (s.queue i).foldl (fun t n => endWithoutRunning n .spoutFault t)
        ((updatePosition i (Positioner.enterFault cause) s).setQueue i []) := by
    unfold returnQueue
    rw [hexchange, if_neg hx, hqueue]
  generalize updatePosition i (Positioner.enterFault cause) s = p at *
  have hkind (m : SlotId) : (p.setQueue i []).slotKind m = s.slotKind m := (hslots m).slotKind
  have hcount (m : SlotId) : (p.setQueue i []).loadCount m = s.loadCount m := (hslots m).slotU8 (by omega)
  obtain ⟨hw', hother, hreturned⟩ := returned_slots .spoutFault (s.queue i) (s := p.setQueue i []) hw
    fun q hq => by rw [hkind, hcount]; exact hc q hq
  rw [henter, hreturn]
  generalize (s.queue i).foldl _ (p.setQueue i []) = r at *
  refine ⟨hw', fun m hq => (hslots m).trans (hother m hq), fun q hq => ?_⟩
  obtain ⟨hstate, hresult, hcodes⟩ := hreturned q hq
  rw [hkind, hcount] at hcodes
  exact ⟨hstate, hresult, fun hk e he => (hcodes hk e he).trans
    (congrArg closedCode ((hslots q).entryCode (lt_of_lt_of_le he (hc q hq hk))))⟩

/-! ## The step -/

/-- The state in which the context of spout `i` meets the fault of its lost link. -/
def faultedByLoss (i : SpoutId) (s : State) : State := enterFault i .sensorLost (linkDown i s)

/-- R134: without a claim on the spout, its own context alone follows the fault. -/
theorem loseLink_unclaimed {i : SpoutId} {s : State} (hf : s.isFaulted i = false) (hc : (s.context i).claim = none) :
    loseLink i s = showLink i (contextFaulted react i .sensorLost (faultedByLoss i s)) := by
  have hclaim : ((enterFault i .sensorLost (linkDown i s)).context i).claim = none :=
    (congrArg (fun p => p.context.claim) (spout_enterFault_linkDown hf)).trans hc
  have hwithdraw : withdrawClaimOn react i (enterFault i .sensorLost (linkDown i s)) = faultedByLoss i s := by
    unfold withdrawClaimOn
    rw [hclaim]; rfl
  rw [loseLink_eq, spoutFault, hwithdraw]

/-- R134, R148: what the entry into FAULTED leaves of the spout, the slots and the rest of the part. -/
structure State.EntersFault (i : SpoutId) (s u : State) : Prop where
  spout : u.spout i = (s.spout i).loseLink.enterFault .sensorLost s.port.exchange
  others : SameOtherSpouts i s u
  tables : SameTables s u
  wf : u.memory.wf = true
  slots : ∀ m ∉ s.queue i, SameSlot m s u
  returned : ∀ q ∈ s.queue i, u.slotStateByte q = 4 ∧ u.slotU8 q 3 = 6
    ∧ (s.slotKind q = 1 ∨ s.slotKind q = 2 → ∀ e < s.loadCount q, u.entryCode q e = closedCode (s.entryCode q e))

theorem entersFault_faultedByLoss {i : SpoutId} {s : State} (hm : s.memory.wf = true) (hf : s.isFaulted i = false)
    (hx : s.port.exchange ≠ .resetting)
    (hc : ∀ q ∈ s.queue i, s.slotKind q = 1 ∨ s.slotKind q = 2 → s.loadCount q ≤ 12) :
    s.EntersFault i (faultedByLoss i s) := by
  have hf' := (isFaulted_linkDown i s).trans hf
  have hqueue : (linkDown i s).queue i = s.queue i := (congrArg Spout.queue (spout_linkDown i s) :)
  have hentry := sameButAnswers_enterFault .sensorLost hf'
  obtain ⟨hw, hslots, hreturned⟩ := enterFault_slots .sensorLost (s := linkDown i s) hm hf' hx (by rw [hqueue]; exact hc)
  rw [hqueue] at hslots hreturned
  exact {
    spout := spout_enterFault_linkDown hf
    others := fun j hj => (hentry.spout j).trans
      ((State.spout_updateSpout_ne _ hj _).trans (State.spout_updateSpout_ne s hj Spout.loseLink))
    tables := hentry.sameTables
    wf := hw
    slots := hslots
    returned := hreturned }

/-- A fault of a spout that works by itself finds it still at work, and its queue empty. -/
theorem State.EntersFault.worksAlone {i : SpoutId} {n : SlotId} {s u : State} (h : s.EntersFault i u) (hs : s.single i)
    (hn : (s.context i).slot = some n) (hc : (s.context i).claim = none) (hcount : (s.order i).count ≤ 12)
    (hx : s.port.exchange ≠ .resetting) : (u.spout i).WorksAlone n := by
  rw [h.spout]
  exact {
    slot := hn
    claim := hc
    twin := hs.1
    bound := beq_eq_false_iff_ne.1 hs.2
    count := hcount
    queue := if_neg hx
    faulted := rfl }

end Sys2Proof.Machine

/-! A PRESENT link is lost (R46, R134, R144, R147, R148): the settled statement. -/

namespace Sys2Proof.Machine

/-! ## What a step shows of a spout and its slot -/

/-- Two states that show the same of spout `i` and of slot `n`. -/
structure SameWork (i : SpoutId) (n : SlotId) (s t : State) : Prop where
  spout : t.spout i = s.spout i
  slot : SameSlot n s t

namespace SameWork

variable {i : SpoutId} {n : SlotId} {s t : State} (h : SameWork i n s t)
include h

theorem context : t.context i = s.context i := congrArg Spout.context h.spout
theorem channel : t.channel i = s.channel i := congrArg Spout.channel h.spout
theorem calibration : t.calibration i = s.calibration i := congrArg Spout.calibration h.spout
theorem stage : t.stage i = s.stage i := congrArg Context.stage h.context
theorem gate : t.gate i = s.gate i := congrArg Context.gate h.context
theorem order : t.order i = s.order i := congrArg Context.order h.context
theorem compartment : t.compartment i = s.compartment i := congrArg Context.compartment h.context

theorem gateIsCut (hs : s.gateIsCut i) : t.gateIsCut i := by
  unfold State.gateIsCut State.profile at hs ⊢
  rwa [h.gate, h.calibration]

theorem ended (hs : s.atRest i ∧ s.slotStateByte n = 4 ∧ s.slotU8 n 3 = 6) :
    t.atRest i ∧ t.slotStateByte n = 4 ∧ t.slotU8 n 3 = 6 := by
  obtain ⟨hrest, hstate, hresult⟩ := hs
  refine ⟨?_, h.slot.slotStateByte.trans hstate, (h.slot.slotU8 (by omega)).trans hresult⟩
  unfold State.atRest at hrest ⊢
  rwa [h.stage, h.context, h.order, h.compartment]

theorem entryShows {e code secondary trims final : Nat} (he : e < 12) (hs : s.entryShows n e code secondary trims final) :
    t.entryShows n e code secondary trims final :=
  hs.of_bytes (h.slot.entryCode he) fun _ _ _ => h.slot.slotU8 (by unfold entryOffset; omega)

end SameWork

theorem sameWork_showLink (i : SpoutId) (n : SlotId) (s : State) : SameWork i n s (showLink i s) where
  spout := ((sameButMemory_writeLinkState i s).trans (sameButMemory_refreshPanel ..)).spout i
  slot := (sameSlot_writeLinkState n i s).trans (sameSlot_refreshPanel n i _)

/-! ## A spout that works by itself -/

section Alone

variable {i : SpoutId} {n : SlotId} {s u t : State} (hu : s.EntersFault i u) (hworks : (u.spout i).WorksAlone n)
  (ht : SameWork i n (contextFaulted react i .sensorLost u) t) (hmark : (s.order i).mark ≠ .reset)

include hu

theorem State.EntersFault.context : u.context i = s.context i := (congrArg Spout.context hu.spout :)
theorem State.EntersFault.stage : u.stage i = s.stage i := congrArg Context.stage hu.context
theorem State.EntersFault.gate : u.gate i = s.gate i := congrArg Context.gate hu.context
theorem State.EntersFault.order : u.order i = s.order i := congrArg Context.order hu.context
theorem State.EntersFault.compartment : u.compartment i = s.compartment i := congrArg Context.compartment hu.context
theorem State.EntersFault.delivered : (u.channel i).delivered = (s.channel i).delivered :=
  (congrArg (fun p => p.channel.delivered) hu.spout :)

include hworks ht hmark

/-- R46: an open stage is cut. -/
theorem loss_open (hs : (s.stage i).isOpen = true) (hg : (s.gate i).isOpen = true) (hp : s.hasProfile i = true) :
    let x := s.compartment i
    t.stage i = .closing ∧ t.gateIsCut i ∧ (t.channel i).integrating = false
      ∧ t.compartment i = { x with cause := some (x.cause.getD .sensorLost), closeAwaited := true, noSettle := true }
      ∧ (t.order i).mark = .spoutFault ∧ (t.context i).slot = some n := by
  have hprofile : u.hasProfile i = true := (congrArg (fun p => p.calibration.profileValid) hu.spout).trans hp
  have hheld := contextFaulted_open_holds hworks (hu.order ▸ hmark) (hu.stage ▸ hs) (hu.gate ▸ hg) hprofile
  dsimp only at hheld
  rw [hu.compartment, ← ht.stage, ← ht.channel, ← ht.compartment, ← ht.order, ← ht.context] at hheld
  obtain ⟨hstage, hcut, hrest⟩ := hheld
  exact ⟨hstage, ht.gateIsCut hcut, hrest⟩

/-- R46: a close runs on. -/
theorem loss_closing (hs : s.stage i = .closing) :
    let x := s.compartment i
    t.stage i = .closing ∧ t.gate i = s.gate i ∧ (t.channel i).integrating = false
      ∧ t.compartment i = { x with
          cause := some (x.cause.getD .sensorLost)
          secondary := if x.cause ≠ none ∧ x.secondary = none then some .sensorLost else x.secondary
          noSettle := true }
      ∧ (t.order i).mark = .spoutFault ∧ (t.context i).slot = some n := by
  have hheld := contextFaulted_closing_holds hworks (hu.order ▸ hmark) (hu.stage.trans hs)
  dsimp only at hheld
  rw [hu.compartment, hu.gate, ← ht.stage, ← ht.gate, ← ht.channel, ← ht.compartment, ← ht.order, ← ht.context] at hheld
  exact hheld

/-- R46: SETTLING ends at once, with the order. -/
theorem loss_settling (hs : s.stage i = .settling) (he : (s.compartment i).index < (s.order i).count)
    (ho : (s.compartment i).opened = true) (htrims : (s.compartment i).trimsUsed ≤ 3)
    (hd : (s.channel i).delivered ≤ 4294967295) (hreset : (s.compartment i).cause ≠ some .reset)
    (hpending : (s.compartment i).cause ≠ some .pending) :
    let x := s.compartment i
    let secondary := if x.cause ≠ none ∧ x.secondary = none then some .sensorLost else x.secondary
    (t.atRest i ∧ t.slotStateByte n = 4 ∧ t.slotU8 n 3 = 6)
      ∧ t.entryShows n x.index (x.cause.getD .sensorLost).value ((secondary.map Code.value).getD 0) x.trimsUsed
        (s.channel i).delivered
      ∧ (t.channel i).integrating = false ∧ t.gate i = s.gate i := by
  have hcount : (u.order i).count ≤ 12 := hworks.count
  rw [hu.order] at hcount
  have hheld := contextFaulted_settling_holds hu.wf hworks (hu.order ▸ hmark) (hu.stage.trans hs)
    (by rw [hu.compartment, hu.order]; exact he) (hu.compartment ▸ ho) (hu.compartment ▸ htrims) (hu.delivered ▸ hd)
    (hu.compartment ▸ hreset) (hu.compartment ▸ hpending)
  dsimp only at hheld
  rw [hu.compartment, hu.gate, hu.delivered, ← ht.gate, ← ht.channel] at hheld
  obtain ⟨hended, hshows, hrest⟩ := hheld
  exact ⟨ht.ended hended, ht.entryShows (by omega) hshows, hrest⟩

/-- R26, R28: before the opening the order ends with a final of 0 g. -/
theorem loss_unopened (hs : s.stage i = .engaging ∨ s.stage i = .zeroing)
    (he : (s.compartment i).index < (s.order i).count) (hc : (s.compartment i).cause = none)
    (ho : (s.compartment i).opened = false) :
    (t.atRest i ∧ t.slotStateByte n = 4 ∧ t.slotU8 n 3 = 6) ∧ t.entryCode n (s.compartment i).index = 11
      ∧ t.slotU32 n (0x40 + 16 * (s.compartment i).index + 12) = 0 ∧ t.gate i = s.gate i := by
  have hcount : (u.order i).count ≤ 12 := hworks.count
  rw [hu.order] at hcount
  have hheld := contextFaulted_unopened_holds hu.wf hworks (hu.order ▸ hmark) (by rw [hu.stage]; exact hs)
    (by rw [hu.compartment, hu.order]; exact he) (hu.compartment ▸ hc) (hu.compartment ▸ ho)
  dsimp only at hheld
  rw [hu.compartment, hu.gate, ← ht.gate] at hheld
  obtain ⟨hended, hcode, hmass, hgate⟩ := hheld
  exact ⟨ht.ended hended, (ht.slot.entryCode (by omega)).trans hcode, (ht.slot.slotU32 (by omega)).trans hmass, hgate⟩

/-- R40, R107: between two compartments the order ends. -/
theorem loss_waiting (hn : SameSlot n s u) (hs : s.stage i = .waitIndex ∨ s.stage i = .releasing) :
    (t.atRest i ∧ t.slotStateByte n = 4 ∧ t.slotU8 n 3 = 6) ∧ t.gate i = s.gate i
      ∧ ∀ e ∈ List.range (s.order i).count, t.entryCode n e = if s.entryCode n e = 0 then 21 else s.entryCode n e := by
  have hcount : (u.order i).count ≤ 12 := hworks.count
  rw [hu.order] at hcount
  have hheld := contextFaulted_waiting_holds hu.wf hworks (hu.order ▸ hmark) (by rw [hu.stage]; exact hs)
  dsimp only at hheld
  rw [hu.gate, hu.order, ← ht.gate] at hheld
  obtain ⟨hended, hgate, hcodes⟩ := hheld
  refine ⟨ht.ended hended, hgate, fun e he => ?_⟩
  have he12 : e < 12 := lt_of_lt_of_le (List.mem_range.1 he) hcount
  rw [ht.slot.entryCode he12, hcodes e he, hn.entryCode he12]

omit hmark in
/-- R93: a ZERO ends with Z unchanged. -/
theorem loss_zeroRun (hs : s.stage i = .zeroRun) :
    (t.atRest i ∧ t.slotStateByte n = 4 ∧ t.slotU8 n 3 = 6) ∧ t.slotU16 n 0x10 = t.slotU16 n 0x12
      ∧ (t.calibration i).zero = (s.calibration i).zero ∧ (t.calibration i).debt = (s.calibration i).debt
      ∧ (t.calibration i).zeroTimeout = none ∧ t.gate i = s.gate i := by
  have hzero : (u.calibration i).zero = (s.calibration i).zero := (congrArg (fun p => p.calibration.zero) hu.spout :)
  have hdebt : (u.calibration i).debt = (s.calibration i).debt := (congrArg (fun p => p.calibration.debt) hu.spout :)
  have hheld := contextFaulted_zeroRun_holds hu.wf hworks (hu.stage.trans hs)
  dsimp only at hheld
  rw [hu.gate, hzero, hdebt, ← ht.gate, ← ht.calibration, ← ht.slot.slotU16 (by omega), ← ht.slot.slotU16 (by omega)] at hheld
  obtain ⟨hended, hrest⟩ := hheld
  exact ⟨ht.ended hended, hrest⟩

end Alone

/-! ## The statement -/

/-- R118, R134: the orders of the queue, at the end of the step. -/
theorem queueReturned_of_frame {i : SpoutId} {n : SlotId} {s u t : State} (hu : s.EntersFault i u)
    (ht : OrderFrame i n u t) (hx : s.port.exchange ≠ .resetting)
    (hq : ∀ q ∈ s.queue i, q ≠ n ∧ (s.slotKind q = 1 ∨ s.slotKind q = 2 → s.loadCount q ≤ 12)) : s.queueReturned t i := by
  refine ⟨ht.queue.trans ((congrArg Spout.queue hu.spout).trans (if_neg hx)), fun q hmem => ?_⟩
  obtain ⟨hne, hcount⟩ := hq q hmem
  obtain ⟨hstate, hresult, hcodes⟩ := hu.returned q hmem
  have hsame := ht.slots q hne
  refine ⟨hsame.slotStateByte.trans hstate, (hsame.slotU8 (by omega)).trans hresult, fun hk e he => ?_⟩
  have he' := List.mem_range.1 he
  exact (hsame.entryCode (lt_of_lt_of_le he' (hcount hk))).trans (hcodes hk e he')

/-- Settles O28: `exec_linkLost` for the loss of any spout; for a spout that works by itself, the stages of its context. -/
theorem presentLinkIsLost : Obligations.PresentLinkIsLost := by
  unfold Obligations.PresentLinkIsLost
  refine ⟨fun i c s hp hc => ?_, ?_⟩
  · obtain ⟨t, hexec, h⟩ := exec_linkLost hp hc
    exact ⟨t, hexec, h.link, h.silence, h.missingRun, h.watch, h.faulted, h.fresh, h.replaced, h.kept,
      (congrArg Channel.window h.restarted).symm, (congrArg Channel.rate h.restarted).symm,
      (congrArg Channel.surgeRun h.restarted).symm, h.delivered, h.remainder, h.queue, h.products, h.pending, h.exchange⟩
  · intro i n s hm hrun hs hn hclaim hf hq hp hsilence hmark he hcount x cause secondary ended
    have hx : s.port.exchange ≠ .resetting := by rw [hrun]; decide
    have hlost := linkLost_loseLink i s
    have hu := entersFault_faultedByLoss hm hf hx fun q hmem => (hq q hmem).2
    have hworks := hu.worksAlone hs hn hclaim hcount hx
    have hexec := exec_silence hp hsilence
    rw [loseLink_unclaimed hf hclaim] at hexec hlost
    have hnq : n ∉ s.queue i := fun hmem => (hq n hmem).1 rfl
    generalize faultedByLoss i s = u at *
    have ht := sameWork_showLink i n (contextFaulted react i .sensorLost u)
    have hframe := (orderFrame_contextFaulted hu.wf hworks (hu.order ▸ hmark) (by
      rw [hu.compartment, hu.stage]; exact he.imp_left (lt_of_lt_of_le · hcount))).trans (.showLink ..)
    generalize showLink i (contextFaulted react i .sensorLost u) = t at *
    have hindex {y : Stage} (e : s.stage i = y) (hy : y ≠ .zeroRun) : x.index < (s.order i).count := he.resolve_right (e ▸ hy)
    refine ⟨t, hexec, hlost.faulted, (hlost.fresh hf).1, ?_, hframe.capture ?_, queueReturned_of_frame hu hframe hx hq,
      hlost.delivered, loss_open hu hworks ht hmark, loss_closing hu hworks ht hmark,
      fun e => loss_settling hu hworks ht hmark e (hindex e (by decide)),
      fun e => loss_unopened hu hworks ht hmark e (e.elim (hindex · (by decide)) (hindex · (by decide))),
      loss_waiting hu hworks ht hmark (hu.slots n hnq), loss_zeroRun hu hworks ht,
      fun j hj => (hframe.others j hj).trans (hu.others j hj), hu.tables.trans hframe.tables⟩
    · exact (congrArg Positioner.drive hframe.positioner).trans (congrArg (fun p => p.positioner.drive) hu.spout)
    · exact (congrArg (fun p => p.calibration.capture) hu.spout :)

end Sys2Proof.Machine

/-! Spout `i` alone changes (R20): a relation that each handler's effect on one spout is stated in, so that what it leaves of the rest
of the part is said once. -/

namespace Sys2Proof.Machine

/-! ## Updates of one spout's blocks -/

namespace Spout

def onChannel (f : Channel → Channel) (p : Spout) : Spout := { p with channel := f p.channel }
def onCalibration (f : Calibration → Calibration) (p : Spout) : Spout := { p with calibration := f p.calibration }
def onPositioner (f : Positioner → Positioner) (p : Spout) : Spout := { p with positioner := f p.positioner }
def onField (f : FieldGroup → FieldGroup) (p : Spout) : Spout := { p with field := f p.field }
def onContext (f : Context → Context) (p : Spout) : Spout := { p with context := f p.context }
def onCompartment (f : Compartment → Compartment) : Spout → Spout := onContext fun c => { c with compartment := f c.compartment }
def onOrder (f : OrderState → OrderState) : Spout → Spout := onContext fun c => { c with order := f c.order }
def onGate (f : GateUnit → GateUnit) : Spout → Spout := onContext fun c => { c with gate := f c.gate }
def onStage (x : Stage) : Spout → Spout := onContext fun c => { c with stage := x }

end Spout

/-! ## The relation -/

/-- In `t` spout `i` is `p` and the port is `q`; of the rest of `s`, memory below the slots and the slots of `w` alone are written. -/
structure Becomes (i : SpoutId) (w : Option SlotId) (p : Spout) (q : Port) (s t : State) : Prop where
  spout : t.spout i = p
  port : t.port = q
  others : SameOtherSpouts i s t
  tables : SameTables s t
  slots : ∀ m, some m ≠ w → SameSlot m s t
  wf : s.memory.wf = true → t.memory.wf = true

namespace Becomes

variable {i : SpoutId} {w : Option SlotId} {p p' : Spout} {q q' : Port} {s t u : State}

theorem refl (i : SpoutId) (w : Option SlotId) (s : State) : Becomes i w (s.spout i) s.port s s :=
  ⟨rfl, rfl, fun _ _ => rfl, ⟨rfl, rfl, rfl⟩, fun m _ => .refl m s, id⟩

theorem trans (h : Becomes i w p q s t) (h' : Becomes i w p' q' t u) : Becomes i w p' q' s u where
  spout := h'.spout
  port := h'.port
  others j hj := (h'.others j hj).trans (h.others j hj)
  tables := h.tables.trans h'.tables
  slots m hm := (h.slots m hm).trans (h'.slots m hm)
  wf := h'.wf ∘ h.wf

/-- The state reached, as it stands. -/
theorem here (h : Becomes i w p q s t) : Becomes i none p q t t := by
  have hrefl := refl i none t
  rw [h.spout, h.port] at hrefl
  exact hrefl

/-- What writes no slot may be read as writing one. -/
theorem widen (h : Becomes i none p q s t) (w : Option SlotId) : Becomes i w p q s t :=
  { h with slots := fun m _ => h.slots m (by simp) }

/-! ## Reading the spout -/

section Reading

variable (h : Becomes i w p q s t)
include h

theorem receiver : t.receiver i = p.receiver := congrArg Spout.receiver h.spout
theorem channel : t.channel i = p.channel := congrArg Spout.channel h.spout
theorem calibration : t.calibration i = p.calibration := congrArg Spout.calibration h.spout
theorem profile : t.profile i = p.calibration.profile := congrArg Calibration.profile h.calibration
theorem hasProfile : t.hasProfile i = p.calibration.profileValid := congrArg Calibration.profileValid h.calibration
theorem positioner : t.positioner i = p.positioner := congrArg Spout.positioner h.spout
theorem isFaulted : t.isFaulted i = (p.positioner.position == .faulted) :=
  congrArg (fun x : Positioner => x.position == .faulted) h.positioner
theorem field : t.field i = p.field := congrArg Spout.field h.spout
theorem present (n : InputName) : t.present i n = (p.field.line n).taken :=
  congrArg (fun x : FieldGroup => (x.line n).taken) h.field
theorem queue : t.queue i = p.queue := congrArg Spout.queue h.spout
theorem context : t.context i = p.context := congrArg Spout.context h.spout
theorem stage : t.stage i = p.context.stage := congrArg Context.stage h.context
theorem gate : t.gate i = p.context.gate := congrArg Context.gate h.context
theorem compartment : t.compartment i = p.context.compartment := congrArg Context.compartment h.context
theorem order : t.order i = p.context.order := congrArg Context.order h.context
theorem isTwin : t.isTwin i = p.context.order.twin := congrArg OrderState.twin h.order
theorem isBound : t.isBound i = (p.context.stage == .bound) := congrArg (· == Stage.bound) h.stage

end Reading

/-! ## Updates of the spout -/

theorem update (h : Becomes i w p q s t) (f : Spout → Spout) : Becomes i w (f p) q s (t.updateSpout i f) where
  spout := (State.spout_updateSpout_self ..).trans (congrArg f h.spout)
  port := h.port
  others j hj := (State.spout_updateSpout_ne t hj f).trans (h.others j hj)
  tables := h.tables
  slots := h.slots
  wf := h.wf

theorem updateContext (h : Becomes i w p q s t) (f : Context → Context) :
    Becomes i w (p.onContext f) q s (t.updateContext i f) := h.update (Spout.onContext f)
theorem updateCompartment (h : Becomes i w p q s t) (f : Compartment → Compartment) :
    Becomes i w (p.onCompartment f) q s (t.updateCompartment i f) := h.update (Spout.onCompartment f)
theorem updateOrder (h : Becomes i w p q s t) (f : OrderState → OrderState) :
    Becomes i w (p.onOrder f) q s (t.updateOrder i f) := h.update (Spout.onOrder f)
theorem updateGate (h : Becomes i w p q s t) (f : GateUnit → GateUnit) :
    Becomes i w (p.onGate f) q s (t.updateGate i f) := h.update (Spout.onGate f)
theorem updateChannel (h : Becomes i w p q s t) (f : Channel → Channel) :
    Becomes i w (p.onChannel f) q s (t.updateChannel i f) := h.update (Spout.onChannel f)
theorem updateCalibration (h : Becomes i w p q s t) (f : Calibration → Calibration) :
    Becomes i w (p.onCalibration f) q s (t.updateCalibration i f) := h.update (Spout.onCalibration f)
theorem updatePositioner (h : Becomes i w p q s t) (f : Positioner → Positioner) :
    Becomes i w (p.onPositioner f) q s (t.updatePositioner i f) := h.update (Spout.onPositioner f)
theorem updateField (h : Becomes i w p q s t) (f : FieldGroup → FieldGroup) :
    Becomes i w (p.onField f) q s (t.updateField i f) := h.update (Spout.onField f)
theorem setQueue (h : Becomes i w p q s t) (l : List SlotId) :
    Becomes i w { p with queue := l } q s (t.setQueue i l) := h.update fun p => { p with queue := l }

theorem updatePort (h : Becomes i w p q s t) (f : Port → Port) : Becomes i w p (f q) s (t.updatePort f) :=
  { h with port := congrArg f h.port }

/-! ## Writes of the memory -/

/-- A write of memory alone, below the slots or in a slot of `w`. -/
theorem of_memory (h : Becomes i w p q s t) (hm : SameButMemory t u) (hslots : ∀ m, some m ≠ w → SameSlot m t u)
    (hw : t.memory.wf = true → u.memory.wf = true) : Becomes i w p q s u where
  spout := (hm.spout i).trans h.spout
  port := hm.port.trans h.port
  others j hj := (hm.spout j).trans (h.others j hj)
  tables := h.tables.trans hm.sameTables
  slots m hne := (h.slots m hne).trans (hslots m hne)
  wf := hw ∘ h.wf

/-- The panel of any spout is refreshed. -/
theorem refreshPanel (h : Becomes i w p q s t) (j : SpoutId) : Becomes i w p q s (refreshPanel j t) :=
  h.of_memory (sameButMemory_refreshPanel ..) (fun m _ => sameSlot_refreshPanel m j t) (wf_refreshPanel · j)

/-- R21: a stage, and the panel that shows it. -/
theorem setStage (h : Becomes i w p q s t) (x : Stage) :
    Becomes i w (p.onStage x) q s (setStage i x t) := by
  have hset := h.updateContext fun c => { c with stage := x }
  unfold Machine.setStage; dsimp only; split
  · exact hset
  · exact hset.refreshPanel i

/-- R127: a positioner's state, and the panel that shows it. -/
theorem updatePosition (h : Becomes i w p q s t) (f : Positioner → Positioner) :
    Becomes i w (p.onPositioner f) q s (updatePosition i f t) := by
  have hset := h.updatePositioner f
  unfold Machine.updatePosition; dsimp only; split
  · exact hset
  · exact hset.refreshPanel i

end Becomes

end Sys2Proof.Machine

/-! The starve, aeration and close timers expire (R24, R32, R34, R125). -/

namespace Sys2Proof.Machine

/-- R32: the spout after a first expiry of its starve timer. -/
def Spout.firstStarve (p : Spout) : Spout :=
  ((p.onField fun g => { g with aerate := true, aerateTimer := some p.calibration.profile.aerationTime }).onGate
    fun g => { g with starve := some p.calibration.profile.starveWindow }).onCompartment fun c => { c with starveCount := 1 }

theorem becomes_firstStarve (i : SpoutId) (s : State) :
    Becomes i none (s.spout i).firstStarve s.port s (firstStarve i s) := by
  have haerate := (Becomes.refl i none s).updateField
    fun g => { g with aerate := true, aerateTimer := some (s.profile i).aerationTime }
  have hstarve := (haerate.updateGate fun g => { g with starve := some ((requestAerate i s).profile i).starveWindow }).updateCompartment
    fun c => { c with starveCount := 1 }
  have hprofile : (requestAerate i s).profile i = s.profile i := haerate.profile
  rw [hprofile] at hstarve
  unfold Machine.firstStarve; dsimp only
  rw [hprofile]
  exact hstarve

theorem exec_closeHoldExpiry {i : SpoutId} {s : State} (h : (s.gate i).hold.isSome = true) :
    exec (.closeHoldExpiry i) s = .next (s.updateGate i fun g =>
      { g with hold := none, output := if g.failed then g.output else .none }) :=
  congrArg Host.Outcome.next (if_pos h)

/-- An update of the gate depends on what it makes of the gate as it stands alone. -/
theorem State.updateGate_congr {s : State} {i : SpoutId} {f g : GateUnit → GateUnit} (h : f (s.gate i) = g (s.gate i)) :
    s.updateGate i f = s.updateGate i g := by
  have hspout : (fun p : Spout => { p with context := { p.context with gate := f p.context.gate } }) (s.spout i)
      = (fun p : Spout => { p with context := { p.context with gate := g p.context.gate } }) (s.spout i) := by
    dsimp only
    exact congrArg (fun x => { s.spout i with context := { s.context i with gate := x } }) h
  unfold State.updateGate State.updateContext State.updateSpout
  exact congrArg (fun x => { s with spouts := s.spouts.set i x }) hspout

/-- Settles O38: each expiry is one branch of its command. -/
theorem starveAndGateTimersExpire : Obligations.StarveAndGateTimersExpire := by
  unfold Obligations.StarveAndGateTimersExpire
  refine ⟨fun i s hs hc => ?_, fun i s ha => congrArg Host.Outcome.next (if_pos ha), fun i s => ⟨fun hc h2 => ?_, fun hr hp => ?_⟩,
    fun i s hh => ⟨fun hf => ?_, fun hf => ?_⟩⟩
  · have h := becomes_firstStarve i s
    have hexec : exec (.starveTimerExpiry i) s = .next (firstStarve i s) :=
      congrArg Host.Outcome.next ((if_pos hs).trans (if_pos hc))
    exact ⟨_, hexec, h.field, h.gate, h.compartment, h.stage, h.channel, h.order, h.positioner, h.others, rfl, h.port, h.tables⟩
  · exact congrArg Host.Outcome.next ((if_pos hc).trans (if_neg (by rw [h2]; exact Bool.false_ne_true)))
  · have htime : s.closeTime i = some (s.profile i).gateCloseTime := if_pos hp
    have hexec : exec (.retryPauseExpiry i) s = .next (s.updateGate i (GateUnit.reassert (s.closeTime i))) :=
      congrArg Host.Outcome.next (if_pos hr)
    rw [hexec, htime]; rfl
  · rw [exec_closeHoldExpiry hh]
    exact congrArg Host.Outcome.next (State.updateGate_congr (by rw [hf]; rfl))
  · rw [exec_closeHoldExpiry hh]
    exact congrArg Host.Outcome.next (State.updateGate_congr (by rw [hf]; rfl))

end Sys2Proof.Machine

/-! A spout that works by itself, and its gate (R22, R29, R33, R41 to R44): what a cut and an interlock make of it. -/

namespace Sys2Proof.Machine

/-! ## On the context -/

namespace Context

/-- R33: the gate is asked shut if it is open. -/
def cutGate (closeTime : Timer) (c : Context) : Context :=
  if c.gate.isOpen then
    { c with gate := c.gate.cut closeTime, compartment := { c.compartment with closeAwaited := true } }
  else c

/-- R33: a cut. -/
def cut (closeTime : Timer) (reason : Option Code) (c : Context) : Context :=
  { c.cutGate closeTime with compartment := (c.cutGate closeTime).compartment.setCause reason, stage := .closing }

/-- What an interlock that does not cut records in the compartment (R42, R47). -/
def record (code : Code) (c : Context) : Context :=
  { c with compartment :=
      if code = .level then { c.compartment.setCause (some .level) with levelAfterCut := true } else c.compartment.record code }

/-- R41 to R44: an interlock. -/
def interlock (closeTime : Timer) (code : Code) (c : Context) : Context :=
  if c.stage.isOpen then c.cut closeTime (some code)
  else if c.stage.isClosed then (c.record code).cutGate closeTime
  else c

theorem cutGate_open {c : Context} (h : c.gate.isOpen = true) (closeTime : Timer) : c.cutGate closeTime
    = { c with gate := c.gate.cut closeTime, compartment := { c.compartment with closeAwaited := true } } := if_pos h

theorem cutGate_shut {c : Context} (h : c.gate.isOpen = false) (closeTime : Timer) : c.cutGate closeTime = c :=
  if_neg (by rw [h]; exact Bool.false_ne_true)

theorem interlock_open {c : Context} (h : c.stage.isOpen = true) (closeTime : Timer) (code : Code) :
    c.interlock closeTime code = c.cut closeTime (some code) := if_pos h

/-- CLOSING and SETTLING are no open stages. -/
theorem not_isOpen_of_isClosed {x : Stage} (h : x.isClosed = true) : x.isOpen = false := by
  cases x with
  | closing | settling => rfl
  | _ => cases h

theorem interlock_shut {c : Context} (h : c.stage.isClosed = true) (hg : c.gate.isOpen = false) (closeTime : Timer)
    (code : Code) : c.interlock closeTime code = c.record code := by
  unfold interlock
  rw [not_isOpen_of_isClosed h, if_neg Bool.false_ne_true, if_pos h]
  exact cutGate_shut (c := c.record code) hg closeTime

/-- An interlock moves an open stage alone, and to CLOSING. -/
theorem stage_interlock (c : Context) (closeTime : Timer) (code : Code) :
    (c.interlock closeTime code).stage = if c.stage.isOpen then .closing else c.stage := by
  unfold interlock; split_ifs
  · rfl
  · unfold cutGate; split <;> rfl
  · rfl

end Context

/-! ## On the spout -/

namespace Spout

/-- The close timer of the spout (R25, R33). -/
def closeTime (p : Spout) : Timer :=
  if p.calibration.profileValid then some p.calibration.profile.gateCloseTime else none

def cutGate (p : Spout) : Spout := p.onContext (Context.cutGate p.closeTime)
def cut (reason : Option Code) (p : Spout) : Spout := p.onContext (Context.cut p.closeTime reason)
def interlock (code : Code) (p : Spout) : Spout := p.onContext (Context.interlock p.closeTime code)

end Spout

/-! ## On the state -/

theorem isTwin_of_spout_eq {s : State} {i : SpoutId} {p : Spout} (h : s.spout i = p) (ht : p.context.order.twin = false) :
    s.isTwin i = false := by
  rw [← ht, ← h]; rfl

/-- R52: a spout that is not BOUND works for its own context. -/
theorem ownerOf_self {i : SpoutId} {s : State} (h : s.stage i ≠ .bound) : s.ownerOf i = i := by
  have hbound : s.isBound i = false := beq_eq_false_iff_ne.2 h
  unfold State.ownerOf
  rw [hbound, if_neg Bool.false_ne_true]

namespace Becomes

variable {i : SpoutId} {w : Option SlotId} {p : Spout} {q : Port} {s t : State}

theorem ownerOf (h : Becomes i w p q s t) (hb : p.context.stage ≠ .bound) : t.ownerOf i = i :=
  ownerOf_self (by rw [h.stage]; exact hb)

theorem forMembers (h : Becomes i w p q s t) (ht : p.context.order.twin = false) (f : SpoutId → State → State) :
    forMembers i f t = f i t := forMembers_single (isTwin_of_spout_eq h.spout ht) f

theorem closeTime (h : Becomes i w p q s t) : t.closeTime i = p.closeTime := by
  unfold State.closeTime Spout.closeTime
  rw [h.hasProfile, h.profile]

theorem cutMember (h : Becomes i w p q s t) : Becomes i w p.cutGate q s (cutMember i i t) := by
  unfold Machine.cutMember Spout.cutGate Spout.onContext Context.cutGate
  rw [h.gate]; split
  · have hcut := (h.updateGate (GateUnit.cut p.closeTime)).updateCompartment fun c => { c with closeAwaited := true }
    unfold setMemberPhase
    rw [if_pos rfl]
    unfold Machine.cutGate setCloseAwaited
    rw [h.closeTime]; exact hcut
  · exact h

theorem cut (h : Becomes i w p q s t) (ht : p.context.order.twin = false) (reason : Option Code) :
    Becomes i w (p.cut reason) q s (cut i reason t) := by
  unfold Machine.cut
  rw [h.forMembers ht]
  exact (h.cutMember.updateCompartment (Compartment.setCause reason)).setStage .closing

/-- R41, R43, R44: an interlock other than LEVEL_HIGH. -/
theorem interlock (h : Becomes i w p q s t) (ht : p.context.order.twin = false) {code : Code} (hc : code ≠ .level) :
    Becomes i w (p.interlock code) q s (interlock i code t) := by
  unfold Machine.interlock Spout.interlock Spout.onContext Context.interlock Context.record
  rw [h.stage, if_neg hc]; split_ifs
  · exact h.cut ht _
  · have hrecord := h.updateCompartment (Compartment.record code)
    rw [hrecord.forMembers ht]
    exact hrecord.cutMember
  · exact h

/-- R42: LEVEL_HIGH taken present. -/
theorem levelInterlock (h : Becomes i w p q s t) (ht : p.context.order.twin = false) :
    Becomes i w (p.interlock .level) q s (levelInterlock i t) := by
  unfold Machine.levelInterlock Spout.interlock Spout.onContext Context.interlock Context.record
  rw [h.stage, if_pos rfl]; split_ifs
  · exact h.cut ht _
  · have hrecord := h.updateCompartment fun c => { c.setCause (some .level) with levelAfterCut := true }
    rw [hrecord.forMembers ht]
    exact hrecord.cutMember
  · exact h

end Becomes

/-! ## What a cut shows -/

/-- The cause that a cut leaves. -/
theorem Compartment.setCause_some (code : Code) (c : Compartment) :
    c.setCause (some code) = { c with cause := some (c.cause.getD code) } := by
  obtain ⟨_, _, cause⟩ := c
  cases cause <;> rfl

/-- R47: what the record of a failure leaves. -/
theorem Compartment.record_failure {code : Code} (h : code.isFailure = true) (c : Compartment) : c.record code = { c with
    cause := some (c.cause.getD code)
    secondary := if c.cause ≠ none ∧ c.secondary = none then some code else c.secondary } := by
  obtain ⟨_, _, cause, secondary⟩ := c
  cases cause <;> cases secondary <;> simp [Compartment.record, h]

/-- R47: what an interlock records. -/
theorem Context.compartment_record {code : Code} (h : code = .level ∨ code.isFailure = true) (c : Context) :
    (c.record code).compartment = { c.compartment with
      cause := some (c.compartment.cause.getD code)
      secondary := if c.compartment.cause ≠ none ∧ c.compartment.secondary = none ∧ code ≠ .level then some code
        else c.compartment.secondary
      levelAfterCut := c.compartment.levelAfterCut || code == .level } := by
  by_cases hl : code = .level
  · subst hl
    simp [Context.record, Compartment.setCause_some]
  · have hb : (code == Code.level) = false := beq_eq_false_iff_ne.2 hl
    have hcond : (c.compartment.cause ≠ none ∧ c.compartment.secondary = none ∧ code ≠ .level)
        = (c.compartment.cause ≠ none ∧ c.compartment.secondary = none) := by simp [hl]
    unfold Context.record
    rw [if_neg hl, Compartment.record_failure (h.resolve_left hl), hb, Bool.or_false]
    simp only [hcond]

/-- R33: the cut of an open gate. -/
theorem Context.cut_open {c : Context} (hg : c.gate.isOpen = true) (closeTime : Timer) (reason : Option Code) :
    c.cut closeTime reason = { c with
      gate := c.gate.cut closeTime, stage := .closing
      compartment := { c.compartment with closeAwaited := true }.setCause reason } := by
  unfold Context.cut
  rw [Context.cutGate_open hg]

/-- R33: the gate of a spout with a profile after the cut of an open gate. -/
theorem Becomes.gateIsCut {i : SpoutId} {w : Option SlotId} {p : Spout} {q : Port} {s t : State} (h : Becomes i w p q s t)
    {g : GateUnit} (hg : p.context.gate = g.cut p.closeTime) (hp : p.calibration.profileValid = true) : t.gateIsCut i := by
  have htime : p.closeTime = some p.calibration.profile.gateCloseTime := if_pos hp
  rw [htime] at hg
  unfold State.gateIsCut
  rw [h.gate, h.profile, hg]
  exact ⟨rfl, rfl, rfl, rfl⟩

end Sys2Proof.Machine

/-! Events that forbid metering (R33, R41 to R44, R130): the change of an input taken, a seat lost, and the cut or the record that follows. -/

namespace Sys2Proof.Machine

/-! ## A change taken (R120, R121) -/

/-- R120: the expiry of a due change takes it. -/
theorem exec_debounceExpiry {i : SpoutId} {n : InputName} {level : Bool} {s : State} (h : s.changeDue i n level) :
    exec (.debounceExpiry i n) s = .next (takeChange i n level s) := by
  obtain ⟨htimer, hwired, htaken⟩ := h
  have hdue : ((s.line i n).timer.isSome && (s.line i n).wired != (s.line i n).taken) = true := by
    rw [htimer, hwired, htaken]; cases level <;> rfl
  refine congrArg Host.Outcome.next ((if_pos hdue).trans ?_)
  rw [hwired]

/-- R121: a change that skips the debounce is taken as it is wired. -/
theorem exec_inputChange_atOnce {i : SpoutId} {n : InputName} {level : Bool} {s : State} (hl : s.port.linesLive = true)
    (hi : (s.line i n).initiallyTaken = true) (ht : s.present i n = !level) (ha : takenAtOnce n level = true) :
    exec (.inputChange i n level) s = .next (takeChange i n level (updateLine i n (fun l => { l with wired := level }) s)) := by
  have hline : (updateLine i n (fun l => { l with wired := level }) s).line i n = { s.line i n with wired := level } := by
    unfold updateLine State.line
    rw [State.field_updateField_self, FieldGroup.line_setLine]
  have hlive : ((updateLine i n (fun l => { l with wired := level }) s).port.linesLive
      && ((updateLine i n (fun l => { l with wired := level }) s).line i n).initiallyTaken) = true := by
    rw [hline]
    exact Bool.and_eq_true_iff.2 ⟨hl, hi⟩
  have hne : level ≠ ((updateLine i n (fun l => { l with wired := level }) s).line i n).taken := by
    rw [hline]
    show level ≠ s.present i n
    rw [ht]; cases level <;> decide
  refine congrArg Host.Outcome.next ((if_pos hlive).trans ?_)
  unfold wiredChange; dsimp only
  rw [if_neg hne, ha, Bool.true_or, if_pos rfl]

namespace Becomes

variable {i : SpoutId} {w : Option SlotId} {p : Spout} {q : Port} {s t : State}

theorem updateLine (h : Becomes i w p q s t) (n : InputName) (f : InputLine → InputLine) :
    Becomes i w (p.onField fun g => g.setLine n (f (g.line n))) q s (updateLine i n f t) := h.updateField _

end Becomes

/-- The spout with an input's change to a level taken. -/
def Spout.taking (n : InputName) (level : Bool) : Spout → Spout := Spout.onField fun g => g.taking n level

theorem Becomes.taking {i : SpoutId} {w : Option SlotId} {p : Spout} {q : Port} {s t : State} (h : Becomes i w p q s t)
    (n : InputName) (level : Bool) :
    Becomes i w (p.taking n level) q s (Machine.updateLine i n (fun l => { l with taken := level, timer := none }) t) :=
  h.updateField fun g => g.taking n level

/-! ## A seat lost (R130) -/

/-- R124, R133: the spout's travel time. -/
def Spout.travelTime (p : Spout) : Nat :=
  if p.calibration.profileValid then p.calibration.profile.travelTime else Config.defaultTravelMs

/-- R124, R133: a raise begins. -/
def Spout.beginRaise (p : Spout) : Spout :=
  p.onPositioner fun x => { x with drive := .raise, travel := some p.travelTime, position := .raising }

/-- R128: a lowering begins. -/
def Spout.beginLower (p : Spout) : Spout :=
  p.onPositioner fun x => { x with drive := .lower, travel := some p.travelTime, position := .lowering }

namespace Becomes

variable {i : SpoutId} {w : Option SlotId} {p : Spout} {q : Port} {s t : State}

theorem travelTime (h : Becomes i w p q s t) : t.travelTime i = p.travelTime := by
  unfold State.travelTime Spout.travelTime
  rw [h.hasProfile, h.profile]

theorem beginRaise (h : Becomes i w p q s t) : Becomes i w p.beginRaise q s (beginRaise i t) := by
  unfold Machine.beginRaise Spout.beginRaise
  rw [h.travelTime]; exact h.updatePosition _

theorem beginLower (h : Becomes i w p q s t) : Becomes i w p.beginLower q s (beginLower i t) := by
  unfold Machine.beginLower Spout.beginLower
  rw [h.travelTime]; exact h.updatePosition _

/-- R131: a raise that is not at its switch goes on. -/
theorem testRaised_below (h : Becomes i w p q s t) (k : Reaction) (hr : p.field.spoutRaised.taken = false) :
    Becomes i w p q s (testRaised k i t) := by
  have hraised : t.present i .spoutRaised = false := (h.present _).trans hr
  unfold testRaised; dsimp only
  rw [hraised, if_neg fun c => Bool.false_ne_true c.2]
  exact h

/-- R129: a lowering whose switch is absent goes on. -/
theorem testLowered_above (h : Becomes i w p q s t) (k : Reaction) (hl : p.field.spoutLowered.taken = false) :
    Becomes i w p q s (testLowered k i t) := by
  have hlowered : t.present i .spoutLowered = false := (h.present _).trans hl
  unfold testLowered
  rw [hlowered, if_neg fun c => Bool.false_ne_true c.2.1]
  exact h

end Becomes

/-- R130: a raise that has begun and is not at its switch. -/
theorem Becomes.isRaising {i : SpoutId} {w : Option SlotId} {p : Spout} {q : Port} {s t : State} (h : Becomes i w p q s t)
    (hp : p.positioner.position = .raising) (hd : p.positioner.drive = .raise) (ht : p.positioner.travel = some p.travelTime) :
    t.isRaising i := by
  unfold State.isRaising
  rw [h.positioner, h.travelTime]
  exact ⟨hp, hd, ht⟩

/-- R131: RELEASED moves no context that is not in RELEASING. -/
theorem onReleased_of_stage_ne (k : Reaction) {i : SpoutId} {s : State} (h : s.stage (s.ownerOf i) ≠ .releasing) :
    onReleased k i s = s := if_neg fun c => h c.1

/-- R130, R131: the raise of a spout whose lower switch is absent moves its positioner alone, while its context is not in RELEASING. -/
theorem Becomes.testRaised_moves {i : SpoutId} {w : Option SlotId} {p : Spout} {q : Port} {s t : State} (h : Becomes i w p q s t)
    (hl : p.field.spoutLowered.taken = false) (hb : p.context.stage ≠ .bound) (hr : p.context.stage ≠ .releasing) :
    ∃ f, Becomes i w (p.onPositioner f) q s (testRaised react i t) := by
  unfold testRaised; dsimp only; split
  · have harrived := h.updatePosition fun x => { x.arrive .released with engageWaiting := false }
    split
    · have hlowered := harrived.beginLower.testLowered_above react hl
      exact ⟨fun x => { x.arrive .released with
        engageWaiting := false, drive := .lower, travel := some p.travelTime, position := .lowering }, hlowered⟩
    · have hstage : (Machine.updatePosition i (fun x => { x.arrive .released with engageWaiting := false }) t).stage i
          = p.context.stage := harrived.stage
      have howner : (Machine.updatePosition i (fun x => { x.arrive .released with engageWaiting := false }) t).ownerOf i = i :=
        harrived.ownerOf hb
      rw [react_released, onReleased_of_stage_ne _ (by rw [howner, hstage]; exact hr)]
      exact ⟨_, harrived⟩
  · exact ⟨id, h⟩

end Sys2Proof.Machine

/-! Events that forbid metering on a spout that works by itself (R33, R41 to R44, R47, R130): the settled statement. -/

namespace Sys2Proof.Machine

/-- What an event of a code leaves of a spout that works by itself. -/
structure State.MeetsEvent (i : SpoutId) (code : Code) (s t : State) : Prop where
  context : t.context i = (s.context i).interlock (s.spout i).closeTime code
  channel : t.channel i = s.channel i
  calibration : t.calibration i = s.calibration i
  positioner : code ≠ .seatLost → t.positioner i = s.positioner i
  raising : code = .seatLost → s.present i .spoutRaised = false → t.isRaising i
  field : code = .noOpen ∨ code = .noFlow → t.field i = s.field i
  others : SameOtherSpouts i s t
  port : t.port = s.port
  tables : SameTables s t

section Events

variable {i : SpoutId} {s : State}

/-- R41 to R44: an interlock that meets an input's change. -/
theorem meetsEvent_interlock (f : FieldGroup → FieldGroup) {code : Code} {t : State} (hs : code ≠ .seatLost)
    (hf : code ≠ .noOpen ∧ code ≠ .noFlow)
    (h : Becomes i none (((s.spout i).onField f).interlock code) s.port s t) : s.MeetsEvent i code t where
  context := h.context
  channel := h.channel
  calibration := h.calibration
  positioner _ := h.positioner
  raising e := absurd e hs
  field e := (e.elim hf.1 hf.2).elim
  others := h.others
  port := h.port
  tables := h.tables

/-- R29, R32: an expiry that cuts an open stage. -/
theorem meetsEvent_cut {code : Code} {t : State} (hs : code ≠ .seatLost) (ho : (s.stage i).isOpen = true)
    (h : Becomes i none ((s.spout i).cut (some code)) s.port s t) : s.MeetsEvent i code t where
  context := h.context.trans (Context.interlock_open (c := s.context i) ho _ _).symm
  channel := h.channel
  calibration := h.calibration
  positioner _ := h.positioner
  raising e := absurd e hs
  field _ := h.field
  others := h.others
  port := h.port
  tables := h.tables

variable (ht : s.isTwin i = false)
include ht

theorem exec_permitLost (hb : s.stage i ≠ .bound) (hl : s.port.linesLive = true)
    (hi : (s.line i .permit).initiallyTaken = true) (hp : s.present i .permit = true) :
    ∃ t, exec (.inputChange i .permit false) s = .next t ∧ s.MeetsEvent i .permitLost t := by
  have htaken := ((Becomes.refl i none s).updateLine .permit fun l => { l with wired := false }).taking .permit false
  have hlock := htaken.interlock ht (code := .permitLost) (by decide)
  refine ⟨_, exec_inputChange_atOnce hl hi hp rfl, ?_⟩
  unfold takeChange deliverChange; dsimp only
  rw [if_neg Bool.false_ne_true, htaken.ownerOf hb]
  exact meetsEvent_interlock (fun g => (g.setLine .permit { g.line .permit with wired := false }).taking .permit false)
    (by decide) (by decide) hlock

theorem exec_levelHigh (hb : s.stage i ≠ .bound) (hl : s.port.linesLive = true)
    (hi : (s.line i .levelHigh).initiallyTaken = true) (hp : s.present i .levelHigh = false) :
    ∃ t, exec (.inputChange i .levelHigh true) s = .next t ∧ s.MeetsEvent i .level t := by
  have htaken := ((Becomes.refl i none s).updateLine .levelHigh fun l => { l with wired := true }).taking .levelHigh true
  have hlock := htaken.levelInterlock ht
  refine ⟨_, exec_inputChange_atOnce hl hi hp rfl, ?_⟩
  unfold takeChange deliverChange; dsimp only
  rw [if_pos rfl, htaken.ownerOf hb]
  exact meetsEvent_interlock (fun g => (g.setLine .levelHigh { g.line .levelHigh with wired := true }).taking .levelHigh true)
    (by decide) (by decide) hlock

/-- R44: INDEX_READY taken absent in a stage that meters or closes. -/
theorem exec_vehicleMoved (hs : (s.stage i).isOpen = true ∨ (s.stage i).isClosed = true) (hd : s.changeDue i .indexReady false) :
    ∃ t, exec (.debounceExpiry i .indexReady) s = .next t ∧ s.MeetsEvent i .vehicleMoved t := by
  have htaken := (Becomes.refl i none s).taking .indexReady false
  have hlock := htaken.interlock ht (code := .vehicleMoved) (by decide)
  refine ⟨_, exec_debounceExpiry hd, ?_⟩
  have hindex : indexChange i false (updateLine i .indexReady (fun l => { l with taken := false, timer := none }) s)
      = interlock i .vehicleMoved (updateLine i .indexReady (fun l => { l with taken := false, timer := none }) s) := by
    have hstage := htaken.stage
    generalize updateLine i .indexReady (fun l => { l with taken := false, timer := none }) s = u at *
    have hs' : (u.stage i).isOpen = true ∨ (u.stage i).isClosed = true := by rw [hstage]; exact hs
    unfold indexChange
    cases e : u.stage i with
    | opening | coarse | fine | trim | closing | settling => exact if_neg Bool.false_ne_true
    | _ => rw [e] at hs'; cases hs' <;> contradiction
  unfold takeChange deliverChange; dsimp only
  rw [hindex]
  exact meetsEvent_interlock (fun g => g.taking .indexReady false) (by decide) (by decide) hlock

/-- R43, R130: SPOUT_LOWERED taken absent in ENGAGED: the context is met first, then the raise is tested. -/
theorem exec_seatLost (hs : (s.stage i).isOpen = true ∨ (s.stage i).isClosed = true) (hd : s.changeDue i .spoutLowered false)
    (hp : (s.positioner i).position = .engaged) :
    ∃ t, exec (.debounceExpiry i .spoutLowered) s = .next t ∧ s.MeetsEvent i .seatLost t := by
  have hstages : s.stage i ≠ .bound ∧ s.stage i ≠ .zeroing := by
    constructor <;> (intro e; rw [e] at hs; cases hs <;> contradiction)
  have htaken := (Becomes.refl i none s).taking .spoutLowered false
  have hraise := htaken.beginRaise
  have hlock := hraise.interlock ht (code := .seatLost) (by decide)
  have hposition : ((updateLine i .spoutLowered (fun l => { l with taken := false, timer := none }) s).positioner i).position
      = .engaged := (congrArg Positioner.position htaken.positioner).trans hp
  have hexec : exec (.debounceExpiry i .spoutLowered) s = .next (testRaised react i (interlock i .seatLost
      (beginRaise i (updateLine i .spoutLowered (fun l => { l with taken := false, timer := none }) s)))) := by
    have hseat := ownerOf_self (s := beginRaise i (updateLine i .spoutLowered (fun l => { l with taken := false, timer := none }) s))
      (i := i) (by rw [hraise.stage]; exact hstages.1)
    rw [exec_debounceExpiry hd]
    unfold takeChange deliverChange spoutLoweredChange; dsimp only
    rw [hposition]; dsimp only
    rw [if_neg Bool.false_ne_true]
    unfold loseSeat seatLoss; dsimp only
    rw [hseat, if_neg (by rw [hraise.stage]; exact hstages.2)]
  have hstage : (((s.spout i).taking .spoutLowered false).beginRaise.interlock .seatLost).context.stage
      = if (s.stage i).isOpen then .closing else s.stage i := Context.stage_interlock ..
  have hafter : (((s.spout i).taking .spoutLowered false).beginRaise.interlock .seatLost).context.stage ≠ .bound
      ∧ (((s.spout i).taking .spoutLowered false).beginRaise.interlock .seatLost).context.stage ≠ .releasing := by
    rw [hstage]
    constructor <;> (split <;> intro e)
    · cases e
    · exact hstages.1 e
    · cases e
    · rw [e] at hs; cases hs <;> contradiction
  obtain ⟨f, hmoved⟩ := hlock.testRaised_moves rfl hafter.1 hafter.2
  exact ⟨_, hexec, {
    context := hmoved.context
    channel := hmoved.channel
    calibration := hmoved.calibration
    positioner := fun e => absurd rfl e
    raising := fun _ hr => (hlock.testRaised_below react hr).isRaising rfl rfl rfl
    field := fun e => by cases e <;> contradiction
    others := hmoved.others
    port := hmoved.port
    tables := hmoved.tables }⟩

/-- R29, R32: the opening timer's expiry, and a second expiry of the starve timer. -/
theorem exec_cutExpiry {c : Instr} {code : Code} (ho : (s.stage i).isOpen = true)
    (hc : (c = .openingTimerExpiry i ∧ code = .noOpen ∧ (s.gate i).opening.isSome = true)
      ∨ (c = .starveTimerExpiry i ∧ code = .noFlow ∧ (s.gate i).starve.isSome = true ∧ (s.compartment i).starveCount = 1)) :
    ∃ t, exec c s = .next t ∧ s.MeetsEvent i code t := by
  have howner : s.ownerOf i = i := ownerOf_self (fun e => by rw [e] at ho; cases ho)
  have hcut (code : Code) := (Becomes.refl i none s).cut ht (some code)
  obtain ⟨rfl, rfl, hopening⟩ | ⟨rfl, rfl, hstarve, hcount⟩ := hc
  · refine ⟨_, congrArg Host.Outcome.next (if_pos hopening), ?_⟩
    rw [howner]
    exact meetsEvent_cut (by decide) ho (hcut _)
  · refine ⟨_, congrArg Host.Outcome.next ((if_pos hstarve).trans (if_neg (by rw [hcount]; decide))), ?_⟩
    rw [howner]
    exact meetsEvent_cut (by decide) ho (hcut _)

/-- Every event that forbids metering, in an open stage; those of an interlock also in CLOSING and SETTLING. -/
theorem exec_cutEvent {c : Instr} {code : Code} (he : s.cutEvent c i code)
    (hs : (s.stage i).isOpen = true ∨ (s.stage i).isClosed = true ∧ code ≠ .noOpen ∧ code ≠ .noFlow) :
    ∃ t, exec c s = .next t ∧ s.MeetsEvent i code t := by
  have hstage : (s.stage i).isOpen = true ∨ (s.stage i).isClosed = true := hs.imp_right And.left
  have hb : s.stage i ≠ .bound := fun e => by rw [e] at hstage; cases hstage <;> contradiction
  obtain ⟨rfl, rfl, hl, hi, hp⟩ | ⟨rfl, rfl, hl, hi, hp⟩ | ⟨rfl, rfl, hd, hp⟩ | ⟨rfl, rfl, hd, -⟩ | ⟨rfl, rfl, ho⟩
    | ⟨rfl, rfl, hst, hcount⟩ := he
  · exact exec_permitLost ht hb hl hi hp
  · exact exec_levelHigh ht hb hl hi hp
  · exact exec_seatLost ht hstage hd hp
  · exact exec_vehicleMoved ht hstage hd
  · exact exec_cutExpiry ht (hs.resolve_right fun h => h.2.1 rfl) (.inl ⟨rfl, rfl, ho⟩)
  · exact exec_cutExpiry ht (hs.resolve_right fun h => h.2.2 rfl) (.inr ⟨rfl, rfl, hst, hcount⟩)

end Events

/-- Settles O37: `exec_cutEvent` gives what each event makes of the context; an open gate is cut, a shut one left. -/
theorem eventsCutAnOpenStage : Obligations.EventsCutAnOpenStage := by
  unfold Obligations.EventsCutAnOpenStage
  intro i c code s he ht
  refine ⟨fun ho hg hp => ?_, fun hs hg hcode => ?_⟩
  · obtain ⟨t, hexec, h⟩ := exec_cutEvent ht he (.inl ho)
    have hcontext := h.context
    rw [Context.interlock_open (c := s.context i) ho, Context.cut_open (c := s.context i) hg, Compartment.setCause_some] at hcontext
    have htime : (s.spout i).closeTime = some (s.profile i).gateCloseTime := if_pos hp
    have hprofile : t.profile i = s.profile i := congrArg Calibration.profile h.calibration
    have hgate : t.gate i = (s.gate i).cut (some (s.profile i).gateCloseTime) := by
      rw [← htime]; exact (congrArg (fun x => x.gate) hcontext :)
    refine ⟨t, hexec, (congrArg (fun x => x.stage) hcontext :), ?_, (congrArg (fun x => x.compartment.cause) hcontext :),
      (congrArg (fun x => x.compartment.secondary) hcontext :), (congrArg (fun x => x.compartment.hold) hcontext :), h.channel,
      (congrArg (fun x => x.order) hcontext :), h.calibration, h.positioner, h.raising, h.field, h.others, h.port, h.tables⟩
    unfold State.gateIsCut
    rw [hgate, hprofile]
    exact ⟨rfl, rfl, rfl, rfl⟩
  · have hclosed : (s.stage i).isClosed = true := by
      obtain e | e := hs <;> (rw [e]; rfl)
    have hkind : (code ≠ .noOpen ∧ code ≠ .noFlow) ∧ (code = .level ∨ code.isFailure = true) := by
      obtain rfl | rfl | rfl | rfl := hcode <;> decide
    obtain ⟨t, hexec, h⟩ := exec_cutEvent ht he (.inr ⟨hclosed, hkind.1⟩)
    have hcontext := h.context
    rw [Context.interlock_shut (c := s.context i) hclosed hg] at hcontext
    exact ⟨t, hexec, (congrArg (fun x => x.stage) hcontext :), (congrArg (fun x => x.gate) hcontext :),
      (congrArg Context.compartment hcontext).trans (Context.compartment_record hkind.2 _), h.channel,
      (congrArg (fun x => x.order) hcontext :), h.calibration, h.others, h.port, h.tables⟩

end Sys2Proof.Machine

/-! The feed and its cuts by prediction (R30, R31, R38, R45): a sample of a spout that works by itself. -/

namespace Sys2Proof.Machine

/-! ## The prediction and the cut that follows it -/

/-- R31: P is 0 g where the predicted mass is negative. -/
theorem le_add_inFlightMass (target mass rate lag : Nat) (offset : Int) : target ≤ mass + inFlightMass rate lag offset
    ↔ (target : Int) ≤ mass + max 0 (((rate * lag / 1000 : Nat) : Int) + offset) := by
  have hmass : ((inFlightMass rate lag offset : Nat) : Int) = max 0 (((rate * lag / 1000 : Nat) : Int) + offset) :=
    (Int.toNat_eq_max _).trans (Int.max_comm ..)
  rw [← hmass]; omega

theorem Compartment.setCause_none (c : Compartment) : c.setCause none = c := by
  obtain ⟨_, _, cause⟩ := c
  cases cause <;> rfl

theorem mass_single {i : SpoutId} {s : State} (ht : s.isTwin i = false) : s.mass i = (s.channel i).delivered := by
  unfold State.mass
  rw [ht, if_neg Bool.false_ne_true]

theorem residual_single {i : SpoutId} {s : State} (ht : s.isTwin i = false) : s.residual i = 0 := by
  unfold State.residual; dsimp only
  rw [ht]; rfl

theorem closeFollower_single {i : SpoutId} {s : State} (ht : s.isTwin i = false) : closeFollower i s = s := by
  unfold closeFollower; dsimp only
  rw [ht, Bool.false_and, Bool.false_and, if_neg Bool.false_ne_true]

/-- R31: a normal fine cut records its hold values. -/
def Spout.holding (v : HoldValues) : Spout → Spout := Spout.onCompartment fun c => { c with hold := some v }

/-- R33: a cut without a reason, of a context with an open gate. -/
def Context.shut (closeTime : Timer) (c : Context) : Context :=
  { c with gate := c.gate.cut closeTime, stage := .closing, compartment := { c.compartment with closeAwaited := true } }

theorem Context.cut_none {c : Context} (hg : c.gate.isOpen = true) (closeTime : Timer) :
    c.cut closeTime none = c.shut closeTime := by
  rw [Context.cut_open hg, Compartment.setCause_none]; rfl

/-- What a cut without a reason leaves of spout `i` of `s`, whose gate is open. -/
structure State.IsShut (i : SpoutId) (s t : State) : Prop where
  context : t.context i = (s.context i).shut (some (s.profile i).gateCloseTime)
  channel : t.channel i = s.channel i
  profile : t.profile i = s.profile i
  others : SameOtherSpouts i s t
  port : t.port = s.port
  tables : SameTables s t

section Shut

variable {i : SpoutId} {s t : State}

theorem isShut_cut (ht : s.isTwin i = false) (hp : s.hasProfile i = true) (hg : (s.gate i).isOpen = true) :
    s.IsShut i (cut i none s) := by
  have h := (Becomes.refl i none s).cut ht none
  have htime : (s.spout i).closeTime = some (s.profile i).gateCloseTime := if_pos hp
  have hcontext : ((s.spout i).cut none).context = (s.context i).shut (s.spout i).closeTime := Context.cut_none hg _
  exact {
    context := (h.context.trans hcontext).trans (by rw [htime])
    channel := h.channel
    profile := h.profile
    others := h.others
    port := h.port
    tables := h.tables }

variable (h : s.IsShut i t)
include h

theorem State.IsShut.stage : t.stage i = .closing := (congrArg (fun c => c.stage) h.context :)
theorem State.IsShut.order : t.order i = s.order i := (congrArg (fun c => c.order) h.context :)
theorem State.IsShut.gate : t.gate i = (s.gate i).cut (some (s.profile i).gateCloseTime) := (congrArg (fun c => c.gate) h.context :)
theorem State.IsShut.compartment : t.compartment i = { s.compartment i with closeAwaited := true } :=
  (congrArg (fun c => c.compartment) h.context :)

theorem State.IsShut.gateIsCut : t.gateIsCut i := by
  unfold State.gateIsCut
  rw [h.gate, h.profile]
  exact ⟨rfl, rfl, rfl, rfl⟩

end Shut

/-! ## The evaluation of a sample, by the stage -/

section Feed

variable {i : SpoutId} {s : State} (ht : s.isTwin i = false)
include ht

/-- R31: the fine cut of a spout that works by itself. -/
theorem fineCut_single : fineCut i s =
    if (s.compartment i).effectiveTarget ≤ (s.channel i).delivered + s.prediction i (s.channel i).rate then
      cut i none (s.updateCompartment i fun c => { c with hold := some {
        deliveredAtCut := (s.channel i).delivered, rateAtCut := (s.channel i).rate, lagUsed := s.lag i (s.order i).product } })
    else s := by
  unfold fineCut; dsimp only
  rw [mass_single ht, residual_single ht, Nat.add_zero]

theorem fineSample_single : fineSample i s = fineCut i s := by
  unfold fineSample
  rw [closeFollower_single ht, ite_self]

theorem coarseSample_single : coarseSample i s =
    if (s.compartment i).effectiveTarget ≤ (s.channel i).delivered + (s.order i).fineBand then
      fineCut i (setStage i .fine (s.updateGate i GateUnit.toFine))
    else s := by
  unfold coarseSample State.switchHolds
  rw [closeFollower_single ht, mass_single ht]
  simp only [decide_eq_true_eq]

theorem trimCut_single : trimCut i s =
    if (s.compartment i).effectiveTarget ≤ (s.channel i).delivered + s.prediction i (trimRate (s.order i) (s.compartment i)) then
      cut i none s
    else s := by
  unfold trimCut
  rw [mass_single ht]

/-- R31: a fine cut that is due. -/
theorem isShut_fineCut (hp : s.hasProfile i = true) (hg : (s.gate i).isOpen = true)
    (hr : (s.compartment i).effectiveTarget ≤ (s.channel i).delivered + s.prediction i (s.channel i).rate) :
    (s.updateCompartment i fun c => { c with hold := some {
        deliveredAtCut := (s.channel i).delivered, rateAtCut := (s.channel i).rate,
        lagUsed := s.lag i (s.order i).product } }).IsShut i (fineCut i s) := by
  rw [fineCut_single ht, if_pos hr]
  have hheld := (Becomes.refl i none s).updateCompartment fun c => { c with hold := some {
        deliveredAtCut := (s.channel i).delivered, rateAtCut := (s.channel i).rate, lagUsed := s.lag i (s.order i).product } }
  exact isShut_cut (hheld.isTwin.trans ht) (hheld.hasProfile.trans hp) (by rw [hheld.gate]; exact hg)

end Feed

theorem becomes_updateCompartment (i : SpoutId) (f : Compartment → Compartment) (s : State) :
    Becomes i none ((s.spout i).onCompartment f) s.port s (s.updateCompartment i f) := (Becomes.refl i none s).updateCompartment f

/-- R38: the rate of a trim's prediction. -/
theorem trimRate_eq (o : OrderState) (c : Compartment) : trimRate o c =
    if (c.hold.map HoldValues.rateAtCut).getD 0 = 0 then o.trimRate else (c.hold.map HoldValues.rateAtCut).getD 0 := by
  unfold trimRate
  cases c.hold <;> rfl

/-! ## Surge (R45) -/

/-- R6 to R16: what a sample leaves of its spout, and of the rest. -/
theorem becomes_channelSample (i : SpoutId) (x : Sample) (s : State) :
    Becomes i none ((s.spout i).sample x (s.sampleSettings i)) (channelSample i x s).port s (channelSample i x s) := by
  have h := ((Becomes.refl i none s).update (Spout.sample x (s.sampleSettings i))).updatePort fun p =>
    { p with spoutChange := p.spoutChange || (((s.channel i).process x (s.sampleSettings i)).leak && !(s.channel i).leak) }
  rw [channelSample_eq]; exact h

/-- R13: what follows a sample of a spout that is not BOUND and has no capture in progress. -/
theorem deliverSample_own (k : Reaction) {i : SpoutId} (x : Sample) {s : State} (hb : s.isBound i = false)
    (hc : (s.calibration i).capture = .none) : deliverSample k i x s = ownSample k i (channelSample i x s) := by
  have hbound : (channelSample i x s).isBound i = false := (becomes_channelSample i x s).isBound.trans hb
  unfold deliverSample; dsimp only
  rw [if_pos hc, hbound, if_neg Bool.false_ne_true]

/-- R32: the starve timer of a state whose spout has these settings. -/
theorem restartStarve_eq {i : SpoutId} {s u : State} (hg : u.gate i = s.gate i) (hp : u.profile i = s.profile i) :
    restartStarve i u = if (s.gate i).starve.isSome = true ∧ (s.profile i).starveRate ≤ (u.channel i).rate then
        (u.updateGate i fun g => { g with starve := some (s.profile i).starveWindow }).updateCompartment i fun c =>
          { c with starveCount := 0 }
      else u := by
  unfold restartStarve; dsimp only
  rw [hg, hp]
  simp only [Bool.and_eq_true, decide_eq_true_eq]

/-! ## The statement, stage by stage -/

section Clauses

variable {i : SpoutId} {s : State} (ht : s.isTwin i = false) (hp : s.hasProfile i = true)
include ht hp

/-- R31: the fine cut, with its hold values. -/
theorem evaluateFeed_fine (hs : s.stage i = .fine) (hg : (s.gate i).isOpen = true) :
    ((s.compartment i).effectiveTarget ≤ (s.channel i).delivered + s.prediction i (s.channel i).rate →
      (s.updateCompartment i fun c => { c with hold := some {
        deliveredAtCut := (s.channel i).delivered, rateAtCut := (s.channel i).rate,
        lagUsed := s.lag i (s.order i).product } }).IsShut i (evaluateFeed i s))
      ∧ ((s.channel i).delivered + s.prediction i (s.channel i).rate < (s.compartment i).effectiveTarget →
        evaluateFeed i s = s) := by
  unfold evaluateFeed
  rw [hs]; dsimp only
  rw [fineSample_single ht]
  exact ⟨isShut_fineCut ht hp hg, fun hr => (fineCut_single ht).trans (if_neg (Nat.not_le.2 hr))⟩

/-- R38: the trim cut. -/
theorem evaluateFeed_trim (hs : s.stage i = .trim) (hg : (s.gate i).isOpen = true) :
    ((s.channel i).delivered + s.prediction i (trimRate (s.order i) (s.compartment i)) < (s.compartment i).effectiveTarget →
        evaluateFeed i s = s)
      ∧ ((s.compartment i).effectiveTarget
          ≤ (s.channel i).delivered + s.prediction i (trimRate (s.order i) (s.compartment i)) →
        s.IsShut i (evaluateFeed i s)) := by
  unfold evaluateFeed
  rw [hs]; dsimp only
  rw [trimCut_single ht]
  refine ⟨fun hr => if_neg (Nat.not_le.2 hr), fun hr => ?_⟩
  rw [if_pos hr]
  exact isShut_cut ht hp hg

/-- R30: the switch to fine feed. -/
def Spout.switched (p : Spout) : Spout := (p.onGate GateUnit.toFine).onStage .fine

omit ht hp in
theorem becomes_switched (i : SpoutId) (s : State) :
    Becomes i none (s.spout i).switched s.port s (setStage i .fine (s.updateGate i GateUnit.toFine)) :=
  ((Becomes.refl i none s).updateGate _).setStage _

omit ht hp in
/-- R31, R67: the prediction depends on the order and the preact table alone. -/
theorem Becomes.prediction {w : Option SlotId} {p : Spout} {q : Port} {t : State} (h : Becomes i w p q s t) (rate : Nat)
    (ho : p.context.order = s.order i) : t.prediction i rate = s.prediction i rate := by
  have horder : t.order i = s.order i := h.order.trans ho
  unfold State.prediction State.lag
  rw [horder, h.tables.2.1]

/-- R30: the coarse-to-fine switch, with the fine cut on its sample. -/
theorem evaluateFeed_coarse (hs : s.stage i = .coarse) :
    let g := (s.channel i).delivered
    let rate := (s.channel i).rate
    let u := setStage i .fine (s.updateGate i GateUnit.toFine)
    (g + (s.order i).fineBand < (s.compartment i).effectiveTarget → evaluateFeed i s = s)
      ∧ ((s.compartment i).effectiveTarget ≤ g + (s.order i).fineBand →
        (g + s.prediction i rate < (s.compartment i).effectiveTarget → evaluateFeed i s = u)
          ∧ ((s.compartment i).effectiveTarget ≤ g + s.prediction i rate →
            (u.updateCompartment i fun c => { c with hold := some {
              deliveredAtCut := g, rateAtCut := rate, lagUsed := s.lag i (s.order i).product } }).IsShut i (evaluateFeed i s))) := by
  intro g rate u
  have hu := becomes_switched i s
  have htwin : u.isTwin i = false := hu.isTwin.trans ht
  have hchannel : u.channel i = s.channel i := hu.channel
  have horder : u.order i = s.order i := hu.order
  have hlag : u.lag i (s.order i).product = s.lag i (s.order i).product := by
    unfold State.lag; rw [hu.tables.2.1]
  have htarget : (u.compartment i).effectiveTarget = (s.compartment i).effectiveTarget :=
    congrArg (fun c => c.effectiveTarget) hu.compartment
  have hpredicted : u.prediction i rate = s.prediction i rate := hu.prediction rate rfl
  have hfeed : evaluateFeed i s = coarseSample i s := by unfold evaluateFeed; rw [hs]
  rw [hfeed, coarseSample_single ht]
  refine ⟨fun hswitch => if_neg (Nat.not_le.2 hswitch), fun hswitch => ?_⟩
  rw [if_pos hswitch]
  refine ⟨fun hr => ?_, fun hr => ?_⟩
  · refine (fineCut_single htwin).trans (if_neg (Nat.not_le.2 ?_))
    rw [hchannel, htarget, hpredicted]; exact hr
  · have hcut := isShut_fineCut htwin (hu.hasProfile.trans hp) (by rw [hu.gate]; rfl)
      (by rw [hchannel, htarget, hpredicted]; exact hr)
    rw [hchannel, horder, hlag] at hcut
    exact hcut

end Clauses

/-- Settles O43: each stage evaluates its own prediction on the sample, surge first. -/
theorem feedIsSwitchedAndCutByPrediction : Obligations.FeedIsSwitchedAndCutByPrediction := by
  unfold Obligations.FeedIsSwitchedAndCutByPrediction
  refine ⟨fun i s hs ht hp hg => ?_, fun i s hs ht hp => ?_, fun i s hs ht hp hg => ?_, fun i x s hb hs hc => ?_⟩
  · have hreach := le_add_inFlightMass (s.compartment i).effectiveTarget (s.channel i).delivered (s.channel i).rate
      (s.lag i (s.order i).product) (s.order i).offset
    obtain ⟨hcut, hshort⟩ := evaluateFeed_fine ht hp hs hg
    refine ⟨fun hr => ?_, fun hr => hshort (Nat.lt_of_not_le fun h => absurd (hreach.1 h) (Int.not_le.2 hr))⟩
    have h := hcut (hreach.2 hr)
    have hheld := becomes_updateCompartment i (fun c => { c with hold := some {
      deliveredAtCut := (s.channel i).delivered, rateAtCut := (s.channel i).rate, lagUsed := s.lag i (s.order i).product } }) s
    have hgate := h.gate
    have hcompartment := h.compartment
    rw [hheld.gate, hheld.profile] at hgate
    rw [hheld.compartment] at hcompartment
    exact ⟨h.stage, (congrArg GateUnit.output hgate :), (congrArg GateUnit.opening hgate :), (congrArg GateUnit.starve hgate :),
      (congrArg GateUnit.close hgate :), hcompartment, h.channel.trans hheld.channel,
      fun j hj => (h.others j hj).trans (hheld.others j hj), h.port, hheld.tables.trans h.tables⟩
  · have hreach := le_add_inFlightMass (s.compartment i).effectiveTarget (s.channel i).delivered (s.channel i).rate
      (s.lag i (s.order i).product) (s.order i).offset
    have hu := becomes_switched i s
    obtain ⟨hcoarse, hswitch⟩ := evaluateFeed_coarse ht hp hs
    refine ⟨hcoarse, fun hband => ?_⟩
    obtain ⟨hfine, hcut⟩ := hswitch hband
    obtain hr | hr := Int.lt_or_le (((s.channel i).delivered : Int)
      + max 0 ((((s.channel i).rate * s.lag i (s.order i).product / 1000 : Nat) : Int) + (s.order i).offset))
      (s.compartment i).effectiveTarget
    · dsimp only
      rw [hfine (Nat.lt_of_not_le fun h => absurd (hreach.1 h) (Int.not_le.2 hr))]
      exact ⟨fun _ => ⟨hu.stage, hu.gate, hu.compartment⟩, fun h => absurd h (Int.not_le.2 hr), hu.channel, hu.order, hu.others,
        hu.port, hu.tables⟩
    · have h := hcut (hreach.2 hr)
      have hheld := hu.updateCompartment fun c => { c with hold := some {
        deliveredAtCut := (s.channel i).delivered, rateAtCut := (s.channel i).rate, lagUsed := s.lag i (s.order i).product } }
      have hcompartment := h.compartment
      rw [hheld.compartment] at hcompartment
      exact ⟨fun h => absurd hr (Int.not_le.2 h), fun _ => ⟨h.stage, h.gateIsCut, (congrArg (fun c => c.cause) hcompartment :),
          (congrArg (fun c => c.hold) hcompartment :)⟩, h.channel.trans hheld.channel, h.order.trans hheld.order,
        fun j hj => (h.others j hj).trans (hheld.others j hj), h.port.trans hheld.port, hheld.tables.trans h.tables⟩
  · intro atCut rate
    have hrate : trimRate (s.order i) (s.compartment i) = rate := trimRate_eq ..
    have hreach := le_add_inFlightMass (s.compartment i).effectiveTarget (s.channel i).delivered rate
      (s.lag i (s.order i).product) (s.order i).offset
    obtain ⟨hshort, hcut⟩ := evaluateFeed_trim ht hp hs hg
    rw [hrate] at hshort hcut
    refine ⟨fun hr => hshort (Nat.lt_of_not_le fun h => absurd (hreach.1 h) (Int.not_le.2 hr)), fun hr => ?_⟩
    have h := hcut (hreach.2 hr)
    exact ⟨h.stage, h.gateIsCut, h.compartment, h.channel, h.others, h.port, h.tables⟩
  · have hu := becomes_channelSample i x s
    have hopen : ((channelSample i x s).stage i).isOpen = true := by rw [hu.stage]; exact hs
    have hreport : (channelSample i x s).surgeReport i = true
        ↔ s.hasProfile i = true ∧ (s.profile i).surgeCount ≤ ((channelSample i x s).channel i).surgeRun := by
      unfold State.surgeReport
      rw [hu.hasProfile, hu.profile, Bool.and_eq_true, decide_eq_true_eq]; rfl
    have hown := deliverSample_own react x hb hc
    refine ⟨fun hsurge ht hg => ?_, fun hsurge => ?_⟩
    · have hcut := hu.cut (ht : (s.order i).twin = false) (some .surge)
      have hdone : deliverSample react i x s = cut i (some .surge) (channelSample i x s) :=
        hown.trans (if_pos (by rw [hopen, hreport.2 hsurge]; rfl))
      have hgate : (((s.spout i).sample x (s.sampleSettings i)).cut (some .surge)).context.gate
          = (s.gate i).cut (s.spout i).closeTime :=
        congrArg (fun c => c.gate) (Context.cut_open (c := s.context i) hg (s.spout i).closeTime (some .surge))
      have hcause := congrArg (fun c => c.compartment.cause)
        (Context.cut_open (c := s.context i) hg (s.spout i).closeTime (some .surge))
      rw [Compartment.setCause_some] at hcause
      dsimp only
      rw [hdone]
      exact ⟨hcut.stage, hcut.gateIsCut hgate hsurge.1, (congrArg (fun c => c.cause) hcut.compartment).trans hcause,
        hcut.channel.trans hu.channel.symm, hcut.others, hcut.tables⟩
    · have hsettling : (channelSample i x s).stage i ≠ .settling := fun e => by rw [e] at hopen; cases hopen
      rw [← restartStarve_eq hu.gate hu.profile, hown]
      unfold ownSample
      rw [if_neg fun h => hsurge (hreport.1 (Bool.and_eq_true_iff.1 h).2), if_neg fun h => hsettling h.1]

end Sys2Proof.Machine

/-! Settle and trim (R36 to R38, R61): the run of a settle counted, and what follows its end, for one spout or a pair. -/

namespace Sys2Proof.Machine

/-! ## The run of a settle -/

theorem State.updateCompartment_congr {s : State} {i : SpoutId} {f g : Compartment → Compartment}
    (h : f (s.compartment i) = g (s.compartment i)) : s.updateCompartment i f = s.updateCompartment i g := by
  have h' : f s.spouts[i].context.compartment = g s.spouts[i].context.compartment := h
  simp only [State.updateCompartment, State.updateContext, State.updateSpout, h']

/-- R36: the settle run of spout `i` of `s` after the sample that leaves `u`. -/
def State.runAfter (s u : State) (i : SpoutId) : Nat :=
  if (u.channel i).rate ≤ (s.profile i).settleBand then (s.compartment i).settleRun + 1 else 0

/-- R36: the sample that leaves `u` is counted in the settle run of spout `i` of `s`. -/
def State.settleCounted (s u : State) (i : SpoutId) : State := u.updateCompartment i fun c =>
  { c with settleRun := s.runAfter u i, settleDone := decide ((s.profile i).settleCount ≤ s.runAfter u i) }

theorem countSettle_eq {i : SpoutId} {s u : State} (hc : u.compartment i = s.compartment i) (hp : u.profile i = s.profile i)
    (hd : (s.compartment i).settleDone = false) : countSettle i u = s.settleCounted u i := by
  have hdone : (u.compartment i).settleDone = false := by rw [hc]; exact hd
  unfold countSettle; dsimp only
  rw [hp]
  refine State.updateCompartment_congr ?_
  rw [hdone, if_neg Bool.false_ne_true, hc]
  rfl

theorem Becomes.settleCounted {i : SpoutId} {w : Option SlotId} {p : Spout} {q : Port} {v u : State} (h : Becomes i w p q v u)
    (s : State) : Becomes i w (p.onCompartment fun c =>
      { c with settleRun := s.runAfter u i, settleDone := decide ((s.profile i).settleCount ≤ s.runAfter u i) }) q v
      (s.settleCounted u i) := h.updateCompartment _

/-! ## The end of a settle -/

theorem members_single {o : SpoutId} {s : State} (h : s.isTwin o = false) : s.members o = [o] := by
  unfold State.members
  rw [h, Bool.false_and, if_neg Bool.false_ne_true]

theorem members_pair {o : SpoutId} {s : State} (ht : s.isTwin o = true) (hb : s.isBound (followerOf o) = true) :
    s.members o = [o, followerOf o] := by
  unfold State.members
  rw [ht, hb]; rfl

theorem settleCheck_done (k : Reaction) {o : SpoutId} {s : State} (hs : s.stage o = .settling)
    (hn : (s.compartment o).noSettle = false) (hd : ∀ m ∈ s.members o, (s.compartment m).settleDone = true) :
    settleCheck k o s = settleEnd k o s :=
  if_pos ⟨hs, by rw [hn]; exact Bool.false_ne_true, List.all_eq_true.2 hd⟩

theorem settleCheck_runs (k : Reaction) {o m : SpoutId} {s : State} (hm : m ∈ s.members o)
    (hd : (s.compartment m).settleDone = false) : settleCheck k o s = s :=
  if_neg fun h => by
    have hdone := List.all_eq_true.1 h.2.2 m hm
    rw [hd] at hdone; cases hdone

theorem evaluateFeed_settling {o : SpoutId} {s : State} (hs : s.stage o = .settling) : evaluateFeed o s = s := by
  unfold evaluateFeed
  rw [hs]

theorem evaluateFeed_if_settling {o : SpoutId} {s : State} :
    (if s.stage o = .settling then evaluateFeed o s else s) = s := by
  split
  · next hs => exact evaluateFeed_settling hs
  · rfl

/-- R36: an own sample in SETTLING. -/
theorem ownSample_settling (k : Reaction) {o : SpoutId} {s : State} (hs : s.stage o = .settling)
    (hn : (s.compartment o).noSettle = false) : ownSample k o s = settleCheck k o (countSettle o s) := by
  unfold ownSample
  rw [hs, hn]
  exact (if_neg Bool.false_ne_true).trans (if_pos ⟨rfl, Bool.false_ne_true⟩)

/-- R36: a sample counted in the settle run of a spout that is not BOUND. -/
theorem deliverSample_settling (k : Reaction) {i : SpoutId} (x : Sample) {s : State} (hb : s.isBound i = false)
    (hs : s.stage i = .settling) (hn : (s.compartment i).noSettle = false) (hd : (s.compartment i).settleDone = false)
    (hc : (s.calibration i).capture = .none) :
    deliverSample k i x s = settleCheck k i (s.settleCounted (channelSample i x s) i) := by
  have hu := becomes_channelSample i x s
  rw [deliverSample_own k x hb hc, ownSample_settling k (hu.stage.trans hs) ((congrArg (fun c => c.noSettle) hu.compartment).trans hn),
    countSettle_eq hu.compartment hu.profile hd]

/-! ## A trim (R38) -/

/-- R38: the spout whose trim opens, before its verification. -/
def Spout.trimming (p : Spout) : Spout :=
  (((p.onCompartment fun c => { c with trimsUsed := c.trimsUsed + 1 }).onGate
    (GateUnit.feed .openFine p.calibration.profile.gateOpenTime)).onChannel Channel.restartWindow).onStage .trim

/-- R29, R38: the opening of the spout is verified. -/
def Spout.verified (p : Spout) : Spout :=
  (p.onGate (GateUnit.verify p.calibration.profile.starveWindow)).onCompartment fun c => { c with starveCount := 0 }

namespace Becomes

variable {i : SpoutId} {w : Option SlotId} {p : Spout} {q : Port} {s t : State}

/-- R29: the opening of a spout that is not BOUND is verified past OPENING. -/
theorem verifyOpening (h : Becomes i w p q s t) (hb : p.context.stage ≠ .bound) (ho : p.context.stage ≠ .opening) :
    Becomes i w p.verified q s (verifyOpening i t) := by
  have hverified := (h.updateGate (GateUnit.verify p.calibration.profile.starveWindow)).updateCompartment
    fun c => { c with starveCount := 0 }
  unfold Machine.verifyOpening; dsimp only
  rw [h.ownerOf hb, h.profile]
  unfold setMemberPhase
  rw [if_pos rfl, if_neg fun c => ho (hverified.stage.symm.trans c.1)]
  exact hverified

theorem startTrim (h : Becomes i w p q s t) :
    Becomes i w (if p.field.gateClosed.taken then p.trimming else p.trimming.verified) q s (startTrim i t) := by
  have hprofile : (t.updateCompartment i fun c => { c with trimsUsed := c.trimsUsed + 1 }).profile i = p.calibration.profile :=
    (h.updateCompartment _).profile
  have hopened := (((h.updateCompartment fun c => { c with trimsUsed := c.trimsUsed + 1 }).updateGate
    (GateUnit.feed .openFine p.calibration.profile.gateOpenTime)).updateChannel Channel.restartWindow).setStage .trim
  have hdone : Becomes i w p.trimming q s (Machine.setStage i .trim (restartWindow i (openGate i .openFine
      (t.updateCompartment i fun c => { c with trimsUsed := c.trimsUsed + 1 })))) := by
    unfold openGate restartWindow
    rw [hprofile]; exact hopened
  unfold Machine.startTrim; dsimp only
  rw [show _ = p.field.gateClosed.taken from hdone.present .gateClosed]
  cases p.field.gateClosed.taken with
  | true => exact hdone
  | false => exact hdone.verifyOpening (fun e => by cases e) (fun e => by cases e)

end Becomes

theorem trimDue_iff (o : OrderState) (c : Compartment) (settled : Nat) : trimDue o c settled = true
    ↔ c.cause = none ∧ c.stopPending = false ∧ c.levelAfterCut = false ∧ settled + o.underTol < c.effectiveTarget
      ∧ c.trimsUsed < o.maxTrims := by
  simp [trimDue, and_assoc]

/-- R37, R58: the mass that a settle ends on. -/
theorem settleEnd_ends (k : Reaction) {o : SpoutId} {s : State} (h : trimDue (s.order o) (s.compartment o) (s.mass o) = false) :
    settleEnd k o s = finishCompartment k o true s := by
  unfold settleEnd
  rw [h, if_neg Bool.false_ne_true]

theorem becomes_settleEnd (k : Reaction) {o : SpoutId} {s : State}
    (h : trimDue (s.order o) (s.compartment o) (s.mass o) = true) :
    Becomes o none (if s.present o .gateClosed then (s.spout o).trimming else (s.spout o).trimming.verified) s.port s
      (settleEnd k o s) := by
  unfold settleEnd
  rw [if_pos h]
  exact (Becomes.refl o none s).startTrim

/-! ## A settle of a pair (R61) -/

section Pair

variable {o m : SpoutId} {s : State}

theorem leaderOf_followerOf {o : SpoutId} (h : o.val % 2 = 0) : leaderOf (followerOf o) = o := by
  revert o; decide

theorem followerOf_ne {o : SpoutId} (h : o.val % 2 = 0) : followerOf o ≠ o := by
  revert o; decide

/-- R59, R61: a sample of a settling BOUND follower whose gate is shut. -/
theorem followerSample_settling (k : Reaction) (hf : leaderOf m = o) (hs : s.stage o = .settling) (hg : (s.gate m).isOpen = false)
    (ht : (s.gate m).starve = none) (hp : (s.context m).phase = .settling) :
    followerSample k m s = if ((countSettle m s).compartment m).settleDone then
      settleCheck k o (setPhase m .settled (countSettle m s)) else countSettle m s := by
  have hstarve : restartStarve m s = s := by
    unfold restartStarve; dsimp only
    rw [ht]; exact if_neg Bool.false_ne_true
  unfold followerSample followerSettle; dsimp only
  rw [hg, hstarve, hf, hs, hp, Bool.false_and, if_neg Bool.false_ne_true, if_pos rfl]
  exact evaluateFeed_if_settling

/-- What the update of a spout keeps of it is kept of every spout. -/
theorem Becomes.same_at {i : SpoutId} {w : Option SlotId} {p : Spout} {q : Port} {t : State} (h : Becomes i w p q s t)
    {α : Type} (g : Spout → α) (hp : g p = g (s.spout i)) (j : SpoutId) : g (t.spout j) = g (s.spout j) := by
  obtain rfl | hj := eq_or_ne j i
  · rw [h.spout, hp]
  · rw [h.others j hj]

/-- R54: a phase, and the panel that shows its change. -/
theorem Becomes.setPhase {i : SpoutId} {w : Option SlotId} {p : Spout} {q : Port} {t : State} (h : Becomes i w p q s t)
    (x : Phase) : Becomes i w (p.onContext fun c => { c with phase := x }) q s (setPhase i x t) := by
  have hset := h.updateContext fun c => { c with phase := x }
  unfold Machine.setPhase; dsimp only; split
  · exact hset
  · exact hset.refreshPanel i

/-- R61: the settle of a pair ends with the later of its two spouts' runs. -/
theorem settleCheck_reported (k : Reaction) {o m : SpoutId} {w : Option SlotId} {p : Spout} {q : Port} {s r : State}
    (hp : s.pair o) (hm : m = o ∨ m = followerOf o) (hs : s.stage o = .settling) (hn : (s.compartment o).noSettle = false)
    (h : Becomes m w p q s r) (hstage : p.context.stage = s.stage m) (horder : p.context.order = s.order m)
    (hsettle : p.context.compartment.noSettle = (s.compartment m).noSettle) (hdone : p.context.compartment.settleDone = true) :
    let other := if m = o then followerOf o else o
    ((s.compartment other).settleDone = false → settleCheck k o r = r)
      ∧ ((s.compartment other).settleDone = true → settleCheck k o r = settleEnd k o r) := by
  obtain ⟨heven, htwin, -, hbound, -, -⟩ := hp
  have hstages : ∀ j, r.stage j = s.stage j := h.same_at (fun x => x.context.stage) hstage
  have hmembers : r.members o = [o, followerOf o] := members_pair
    (((h.same_at (fun x => x.context.order.twin) (congrArg OrderState.twin horder) o :)).trans htwin)
    ((congrArg (· == Stage.bound) (hstages (followerOf o))).trans hbound)
  have hreported : (r.compartment m).settleDone = true := (congrArg (fun c => c.settleDone) h.compartment).trans hdone
  intro other
  have hother : other ≠ m ∧ other ∈ r.members o ∧ ∀ j ∈ r.members o, j = m ∨ j = other := by
    have hne := followerOf_ne heven
    rw [hmembers]
    obtain rfl | rfl := hm
    · simp [other, hne]
    · simp [other, hne, hne.symm, or_comm]
  have hkept : (r.compartment other).settleDone = (s.compartment other).settleDone :=
    congrArg (fun x : Spout => x.context.compartment.settleDone) (h.others other hother.1)
  refine ⟨fun hd => settleCheck_runs k hother.2.1 (hkept.trans hd), fun hd => settleCheck_done k ((hstages o).trans hs)
    ((h.same_at (fun x => x.context.compartment.noSettle) hsettle o :).trans hn) fun j hj => ?_⟩
  obtain rfl | rfl := hother.2.2 j hj
  · exact hreported
  · exact hkept.trans hd

/-- R36, R59, R61: a sample of either spout of a settling pair is counted, and a complete run reported. -/
theorem deliverSample_pair (k : Reaction) {o m : SpoutId} (x : Sample) {s : State} (hp : s.pair o)
    (hm : m = o ∨ m = followerOf o) (hs : s.stage o = .settling) (hn : (s.compartment o).noSettle = false)
    (hc : (s.calibration m).capture = .none) (ht : (s.gate m).starve = none) (hg : (s.gate m).isOpen = false)
    (hd : (s.compartment m).settleDone = false) (hf : m = followerOf o → (s.context m).phase = .settling) :
    let v := s.settleCounted (channelSample m x s) m
    let r := if m = o then v else setPhase m .settled v
    deliverSample k m x s = if (s.profile m).settleCount ≤ s.runAfter (channelSample m x s) m then settleCheck k o r
      else v := by
  intro v r
  obtain ⟨heven, htwin, hob, hbound, -, -⟩ := hp
  have hne := followerOf_ne heven
  have hu := becomes_channelSample m x s
  have hv := hu.settleCounted s
  have hdone : (v.compartment m).settleDone = decide ((s.profile m).settleCount ≤ s.runAfter (channelSample m x s) m) :=
    (congrArg (fun c => c.settleDone) hv.compartment :)
  obtain rfl | rfl := hm
  · rw [deliverSample_settling k x hob hs hn hd hc]
    split
    · rw [show r = v from if_pos rfl]
    · next hrun =>
      have hmembers : m ∈ v.members m := by unfold State.members; split <;> exact List.mem_cons_self
      exact settleCheck_runs k hmembers (hdone.trans (decide_eq_false hrun))
  · have hb : (channelSample (followerOf o) x s).isBound (followerOf o) = true := hu.isBound.trans hbound
    have hleader : (channelSample (followerOf o) x s).stage o = .settling :=
      (congrArg (fun p : Spout => p.context.stage) (hu.others o hne.symm)).trans hs
    have hsample := followerSample_settling k (leaderOf_followerOf heven) hleader (by rw [hu.gate]; exact hg)
      ((congrArg (fun g => g.starve) hu.gate).trans ht) ((congrArg (fun c => c.phase) hu.context).trans (hf rfl))
    rw [countSettle_eq hu.compartment hu.profile hd, hdone] at hsample
    simp only [decide_eq_true_eq] at hsample
    unfold deliverSample; dsimp only
    rw [if_pos hc, hb, if_pos rfl, hsample, show r = setPhase (followerOf o) .settled v from if_neg hne]

end Pair

/-- Settles O45: a settle counts its samples, and its end trims or ends the compartment; a pair waits for its later run. -/
theorem settleEndTrimsOrEnds : Obligations.SettleEndTrimsOrEnds := by
  unfold Obligations.SettleEndTrimsOrEnds
  refine ⟨fun i x s hi hs hn hd hc => ?_, fun o s hwork hs _ => ?_, fun o m x s hp hm hs hn hc ht hg hd hf => ?_⟩
  · obtain ⟨htwin, hb⟩ := hi
    have hsample := deliverSample_settling react x hb hs hn hd hc
    have hv := (becomes_channelSample i x s).settleCounted s
    have hmembers := members_single (hv.isTwin.trans htwin)
    have hdone : ((s.settleCounted (channelSample i x s) i).compartment i).settleDone
        = decide ((s.profile i).settleCount ≤ s.runAfter (channelSample i x s) i) := (congrArg (fun c => c.settleDone) hv.compartment :)
    refine ⟨fun hrun => hsample.trans (settleCheck_runs react (m := i) ?_ (hdone.trans (decide_eq_false (Nat.not_le.2 hrun)))),
      fun hrun => hsample.trans (settleCheck_done react (hv.stage.trans hs)
        ((congrArg (fun c => c.noSettle) hv.compartment).trans hn) fun m hm => ?_)⟩
    · rw [hmembers]; exact List.mem_cons_self
    · rw [hmembers, List.mem_singleton] at hm
      subst hm
      exact hdone.trans (decide_eq_true hrun)
  · have hdue := trimDue_iff (s.order o) (s.compartment o) (s.mass o)
    refine ⟨fun h => settleEnd_ends react (Bool.eq_false_iff.2 fun e => h (hdue.1 e)), fun h => ?_⟩
    have ht := becomes_settleEnd react (hdue.2 h)
    cases hclosed : s.present o .gateClosed with
    | true =>
      rw [hclosed, if_pos rfl] at ht
      exact ⟨ht.stage, (congrArg (fun c => c.trimsUsed) ht.compartment :), (congrArg (fun c => c.hold) ht.compartment :),
        (congrArg (fun g => g.output) ht.gate :), (congrArg (fun g => g.close) ht.gate :), (congrArg (fun g => g.retry) ht.gate :),
        (congrArg (fun g => g.hold) ht.gate :), fun _ => (congrArg (fun g => g.opening) ht.gate :), (fun e => by cases e),
        (congrArg (fun c => c.window) ht.channel :), (congrArg (fun c => c.rate) ht.channel :),
        (congrArg (fun c => c.surgeRun) ht.channel :), (congrArg (fun c => c.delivered) ht.channel :),
        (congrArg (fun c => c.integrating) ht.channel :), ht.order, ht.others, ht.port, ht.tables⟩
    | false =>
      rw [hclosed, if_neg Bool.false_ne_true] at ht
      exact ⟨ht.stage, (congrArg (fun c => c.trimsUsed) ht.compartment :), (congrArg (fun c => c.hold) ht.compartment :),
        (congrArg (fun g => g.output) ht.gate :), (congrArg (fun g => g.close) ht.gate :), (congrArg (fun g => g.retry) ht.gate :),
        (congrArg (fun g => g.hold) ht.gate :), (fun e => by cases e),
        fun _ => ⟨(congrArg (fun g => g.opening) ht.gate :), (congrArg (fun g => g.starve) ht.gate :)⟩,
        (congrArg (fun c => c.window) ht.channel :), (congrArg (fun c => c.rate) ht.channel :),
        (congrArg (fun c => c.surgeRun) ht.channel :), (congrArg (fun c => c.delivered) ht.channel :),
        (congrArg (fun c => c.integrating) ht.channel :), ht.order, ht.others, ht.port, ht.tables⟩
  · have hsample := deliverSample_pair react x hp hm hs hn hc ht hg hd hf
    have hv := (becomes_channelSample m x s).settleCounted s
    have hreported (hrun : (s.profile m).settleCount ≤ s.runAfter (channelSample m x s) m) :
        let other := if m = o then followerOf o else o
        let v := s.settleCounted (channelSample m x s) m
        let r := if m = o then v else setPhase m .settled v
        ((s.compartment other).settleDone = false → settleCheck react o r = r)
          ∧ ((s.compartment other).settleDone = true → settleCheck react o r = settleEnd react o r) := by
      intro other v r
      by_cases hmo : m = o
      · rw [show r = v from if_pos hmo]
        exact settleCheck_reported react hp hm hs hn hv rfl rfl rfl (decide_eq_true hrun)
      · rw [show r = setPhase m .settled v from if_neg hmo]
        exact settleCheck_reported react hp hm hs hn (hv.setPhase .settled) rfl rfl rfl (decide_eq_true hrun)
    refine ⟨fun hrun => hsample.trans (if_neg (Nat.not_le.2 hrun)),
      fun hrun hother => (hsample.trans (if_pos hrun)).trans ((hreported hrun).1 hother),
      fun hrun hother => (hsample.trans (if_pos hrun)).trans ((hreported hrun).2 hother)⟩

end Sys2Proof.Machine

/-! The slot of a running order (R39, R104, R108, R109, R117): its entries and progress fields as the part writes them, and what the
end of the order leaves of it. -/

namespace Sys2Proof.Machine

/-! ## The progress fields (R108) -/

theorem lastCompleted_range (f : Nat → Nat) (count : Nat) : lastCompleted ((List.range count).map f)
    = ((List.range count).filter fun e => decide (1 ≤ f e ∧ f e ≤ 17)).getLast?.getD 0xFF := by
  induction count with
  | zero => rfl
  | succ c ih =>
    have hfinal : finalCode (f c) = decide (1 ≤ f c ∧ f c ≤ 17) := (Bool.decide_and ..).symm
    rw [List.range_succ, List.map_append, List.filter_append]
    unfold lastCompleted at ih ⊢
    rw [List.reverse_append, List.map_cons, List.map_nil, List.reverse_singleton, List.singleton_append, List.findIdx?_cons, hfinal]
    by_cases h : 1 ≤ f c ∧ f c ≤ 17
    · rw [decide_eq_true h, if_pos rfl]
      simp [h]
    · rw [decide_eq_false h, if_neg Bool.false_ne_true]
      simp only [List.filter_cons, h, decide_false, Bool.false_eq_true, if_false, List.filter_nil, List.append_nil]
      rw [← ih]
      cases ((List.range c).map f).reverse.findIdx? finalCode with
      | none => rfl
      | some k => simp only [Option.map_some, List.length_append, List.length_map, List.length_range, List.length_singleton]; omega

theorem lastCompleted_lt (f : Nat → Nat) {count : Nat} (hc : count ≤ 12) : lastCompleted ((List.range count).map f) < 256 := by
  unfold lastCompleted; split
  · rw [List.length_map, List.length_range]; omega
  · decide

/-- The progress fields as the model computes them from the codes. -/
theorem progressFollows_iff {s : State} {n : SlotId} {count total : Nat} : s.progressFollows n count total
    ↔ s.progressShows n ((s.entryCodes n count).countP openCode) ((s.entryCodes n count).findIdx openCode)
      (lastCompleted (s.entryCodes n count)) (min total 4294967295) := by
  have hopen : (fun e => s.entryCode n e == 0 || s.entryCode n e == 21) = openCode ∘ s.entryCode n := rfl
  unfold State.progressFollows State.entryCodes; dsimp only
  rw [← lastCompleted_range, hopen, ← List.countP_map, ← List.findIdx_map]

/-- The progress fields depend on the codes and on eight bytes of the slot. -/
theorem State.progressFollows.of_bytes {s t : State} {n : SlotId} {count total : Nat} (h : s.progressFollows n count total)
    (hcodes : ∀ e < count, t.entryCode n e = s.entryCode n e)
    (hfields : ∀ k, 0x18 ≤ k → k < 0x20 → t.slotU8 n k = s.slotU8 n k) : t.progressFollows n count total := by
  have hlist : t.entryCodes n count = s.entryCodes n count :=
    List.map_congr_left fun e he => hcodes e (List.mem_range.1 he)
  obtain ⟨hremaining, hnext, hlast, htotal⟩ := progressFollows_iff.1 h
  rw [progressFollows_iff, hlist]
  exact ⟨(hfields _ (by omega) (by omega)).trans hremaining, (hfields _ (by omega) (by omega)).trans hnext,
    (hfields _ (by omega) (by omega)).trans hlast,
    (slotU32_of_bytes fun k hk => hfields _ (by omega) (by omega)).trans htotal⟩

theorem State.progressFollows.of_sameSlot {s t : State} {n : SlotId} {count total : Nat} (h : s.progressFollows n count total)
    (hc : count ≤ 12) (hs : SameSlot n s t) : t.progressFollows n count total :=
  h.of_bytes (fun _ he => hs.entryCode (by omega)) fun _ _ _ => hs.slotU8 (by omega)

theorem entryCode_writeProgress (n : SlotId) (count total e : Nat) (s : State) :
    (writeProgress n count total s).entryCode n e = s.entryCode n e :=
  entryCode_of_read (read_writeProgress s n count total (.inr (by unfold entryOffset; omega)))

/-- R108: the progress fields once they are written. -/
theorem progressFollows_writeProgress {s : State} (hm : s.memory.wf = true) (n : SlotId) {count : Nat} (hc : count ≤ 12)
    (total : Nat) : (writeProgress n count total s).progressFollows n count total := by
  have hshows : (writeProgress n count total s).progressShows n ((s.entryCodes n count).countP openCode)
      ((s.entryCodes n count).findIdx openCode) (lastCompleted (s.entryCodes n count)) (min total 4294967295) := by
    have hcount : (s.entryCodes n count).countP openCode < 256 := by
      have := List.countP_le_length (p := openCode) (l := s.entryCodes n count)
      rw [State.entryCodes, List.length_map, List.length_range] at this
      rw [State.entryCodes]; omega
    have hindex : (s.entryCodes n count).findIdx openCode < 256 := by
      have := List.findIdx_le_length (p := openCode) (xs := s.entryCodes n count)
      rw [State.entryCodes, List.length_map, List.length_range] at this
      rw [State.entryCodes]; omega
    have hlast : lastCompleted (s.entryCodes n count) < 256 := lastCompleted_lt _ hc
    have hbytes := (State.holds_writeMemory hm (Config.slotBase n + 0x18) (u8Bytes ((s.entryCodes n count).countP openCode)
      ++ u8Bytes ((s.entryCodes n count).findIdx openCode) ++ u8Bytes (lastCompleted (s.entryCodes n count)))).writeMemory_other
      (b := Config.slotBase n + 0x1C) (other := u32Bytes (min total Config.maxU32))
      (.inl (by simp only [List.length_append, length_u8Bytes]; omega))
    obtain ⟨hpair, hthird⟩ := State.holds_append.1 hbytes
    obtain ⟨hfirst, hsecond⟩ := State.holds_append.1 hpair
    simp only [List.length_append, length_u8Bytes, Nat.add_assoc, Nat.reduceAdd] at hthird hfirst hsecond
    exact ⟨hfirst.u8_field.trans (Nat.mod_eq_of_lt hcount), hsecond.u8_field.trans (Nat.mod_eq_of_lt hindex),
      hthird.u8_field.trans (Nat.mod_eq_of_lt hlast),
      (State.holds_writeMemory (Memory.wf_writeBytes hm _ _) _ _).u32_field.trans
        (Nat.mod_eq_of_lt (by show min total 4294967295 < 4294967296; omega))⟩
  have hcodes : (writeProgress n count total s).entryCodes n count = s.entryCodes n count :=
    List.map_congr_left fun e _ => entryCode_writeProgress n count total e s
  rw [progressFollows_iff, hcodes]
  exact hshows

/-! ## The end of an order (R109, R117) -/

/-- R109, R117: the slot of an order that has ended with a state and a result: its PENDING entries NOT_REACHED, its progress fields
after them, and no other byte of its body written. -/
structure State.SlotClosed (n : SlotId) (count total state result : Nat) (s t : State) : Prop where
  slotState : t.slotStateByte n = state
  result : t.slotU8 n 3 = result
  codes : ∀ e < count, t.entryCode n e = closedCode (s.entryCode n e)
  bytes : ∀ k < 256, 6 ≤ k → ¬ (0x18 ≤ k ∧ k < 0x20) → (∀ e < count, k ≠ 0x45 + 16 * e) → t.slotU8 n k = s.slotU8 n k
  progress : t.progressFollows n count total

section Closed

variable {n : SlotId} {count total state result : Nat} {s t u : State}

theorem State.SlotClosed.entriesClosed (h : s.SlotClosed n count total state result t) : s.entriesClosed t n count :=
  fun e he => h.codes e (List.mem_range.1 he)

theorem State.SlotClosed.after (h : s.SlotClosed n count total state result t) (hc : count ≤ 12) (hs : SameSlot n t u) :
    s.SlotClosed n count total state result u where
  slotState := hs.slotStateByte.trans h.slotState
  result := (hs.slotU8 (by omega)).trans h.result
  codes e he := (hs.entryCode (by omega)).trans (h.codes e he)
  bytes k hk h6 hp he := (hs.slotU8 hk).trans (h.bytes k hk h6 hp he)
  progress := h.progress.of_sameSlot hc hs

theorem State.SlotClosed.before (h : t.SlotClosed n count total state result u) (hc : count ≤ 12) (hs : SameSlot n s t) :
    s.SlotClosed n count total state result u where
  slotState := h.slotState
  result := h.result
  codes e he := by rw [h.codes e he, hs.entryCode (by omega)]
  bytes k hk h6 hp he := (h.bytes k hk h6 hp he).trans (hs.slotU8 hk)
  progress := h.progress

/-- R39 step 2: an entry that has a code shows the same when its order has ended. -/
theorem State.SlotClosed.entryShows (h : s.SlotClosed n count total state result t) {e code secondary trims final : Nat}
    (he : e < count) (hc : count ≤ 12) (hcode : code ≠ 0) (hs : s.entryShows n e code secondary trims final) :
    t.entryShows n e code secondary trims final :=
  hs.of_bytes ((h.codes e he).trans (by rw [hs.1]; exact if_neg hcode)) fun off _ _ =>
    h.bytes _ (by unfold entryOffset; omega) (by unfold entryOffset; omega) (by unfold entryOffset; omega)
      (by unfold entryOffset; omega)

theorem slotU8_writeProgress (s : State) (n : SlotId) (count total : Nat) {k : Nat} (hk : ¬ (0x18 ≤ k ∧ k < 0x20)) :
    (writeProgress n count total s).slotU8 n k = s.slotU8 n k :=
  congrArg BitVec.toNat (read_writeProgress s n count total (by omega))

/-- R109 step 1, in a slot whose header is then written. -/
theorem slotClosed_of_header (hm : s.memory.wf = true) (hc : count ≤ 12) (hstate : t.slotStateByte n = state)
    (hresult : t.slotU8 n 3 = result) (ht : ∀ k < 256, 6 ≤ k → t.slotU8 n k = (closeEntries n count total s).slotU8 n k) :
    s.SlotClosed n count total state result t where
  slotState := hstate
  result := hresult
  codes e he := (ht _ (by unfold entryOffset; omega) (by unfold entryOffset; omega)).trans (entryCode_closeEntries hm n he total)
  bytes k hk h6 hp he := (ht k hk h6).trans (congrArg BitVec.toNat (read_closeEntries hm n count total (by omega) fun e hec => by
    have := he e hec
    unfold entryOffset; omega))
  progress := by
    have hclosed : (closeEntries n count total s).progressFollows n count total :=
      progressFollows_writeProgress (closeEntry_range hm n count).1 n hc total
    exact hclosed.of_bytes (fun e he => ht _ (by unfold entryOffset; omega) (by unfold entryOffset; omega))
      fun k _ _ => ht k (by omega) (by omega)

/-- R109 steps 1 to 3. -/
theorem slotClosed_closeOrderSlot (hm : s.memory.wf = true) {o : OrderState} (hc : o.count ≤ 12) :
    s.SlotClosed n o.count o.total 4 (orderResult o.mark ((closeEntries n o.count o.total s).entryCodes n o.count)).value
      (closeOrderSlot n o s) := by
  have hw := wf_closeEntries hm n o.count o.total
  have hr (r : Result) : r.value % 256 = r.value := by cases r <;> rfl
  unfold closeOrderSlot; dsimp only
  rw [markDone_eq]
  exact slotClosed_of_header hm hc (slotStateByte_answered hw ..) ((result_answered hw ..).trans (hr _))
    fun k _ h6 => slotU8_answered _ n _ _ _ (by omega) (by omega)

/-- R117: steps 1 and 2 for an order that a soft reset ends; its slot stays RUNNING. -/
theorem slotClosed_resetSlot (hm : s.memory.wf = true) (hc : count ≤ 12) :
    s.SlotClosed n count total (s.slotStateByte n) 7 (writeResult n .reset .none noField (closeEntries n count total s)) := by
  have hw := wf_closeEntries hm n count total
  have hother (k : Nat) (hk : k < 3 ∨ 6 ≤ k) : (writeResult n .reset .none noField (closeEntries n count total s)).slotU8 n k
      = (closeEntries n count total s).slotU8 n k :=
    congrArg BitVec.toNat (Memory.read_writeBytes_other _ _ _ (by simp only [List.length_append, length_u8Bytes]; omega))
  refine slotClosed_of_header hm hc ((hother 0 (by omega)).trans (slotU8_closeEntries hm n count total (by omega))) ?_
    fun k _ h6 => hother k (by omega)
  have hbytes := State.holds_writeMemory hw (Config.slotBase n + 3) (u8Bytes Result.reset.value ++ u8Bytes Reason.none.value
    ++ u8Bytes noField)
  exact (State.holds_append.1 (State.holds_append.1 hbytes).1).1.u8_field

end Closed

/-! ## The record of a compartment (R39, R104) -/

theorem slotU8_updateOrder (s : State) (i : SpoutId) (f : OrderState → OrderState) (n : SlotId) (k : Nat) :
    (s.updateOrder i f).slotU8 n k = s.slotU8 n k := rfl

theorem progressFollows_updateOrder (s : State) (i : SpoutId) (f : OrderState → OrderState) (n : SlotId) (count total : Nat) :
    (s.updateOrder i f).progressFollows n count total ↔ s.progressFollows n count total := Iff.rfl

section Recorded

variable {i : SpoutId} {n : SlotId} {s : State} (h : (s.context i).slot = some n) (code : Code) (final : Nat)
include h

theorem slotU8_recordedAs {k : Nat} (hp : ¬ (0x18 ≤ k ∧ k < 0x20))
    (hc : ¬ (0x45 + 16 * (s.compartment i).index ≤ k ∧ k < 0x48 + 16 * (s.compartment i).index))
    (hf : ¬ (0x4C + 16 * (s.compartment i).index ≤ k ∧ k < 0x50 + 16 * (s.compartment i).index)) :
    (recordedAs i code final s).slotU8 n k = s.slotU8 n k := by
  have hentry (t : State) : (writeEntry n (s.compartment i).index code (s.compartment i).secondary (s.compartment i).trimsUsed final
      t).slotU8 n k = t.slotU8 n k := by
    refine congrArg BitVec.toNat ((Memory.read_writeBytes_other _ _ _ ?_).trans (Memory.read_writeBytes_other _ _ _ ?_))
    · rw [length_u32Bytes]; unfold entryOffset; omega
    · simp only [List.length_append, length_u8Bytes]; unfold entryOffset; omega
  rw [recordedAs_eq h, slotU8_updateOrder, slotU8_writeProgress _ n _ _ hp, hentry, slotU8_updateOrder]

theorem progressFollows_recordedAs (hm : s.memory.wf = true) (hc : (s.order i).count ≤ 12) :
    (recordedAs i code final s).progressFollows n (s.order i).count ((s.order i).total + final) := by
  rw [recordedAs_eq h, progressFollows_updateOrder]
  exact progressFollows_writeProgress (s := writeEntry n (s.compartment i).index code (s.compartment i).secondary
    (s.compartment i).trimsUsed final (s.updateOrder i fun x => { x with total := x.total + final }))
    (Memory.wf_writeBytes (Memory.wf_writeBytes hm _ _) _ _) n hc _

theorem entryCode_recordedAs {e : Nat} (he : e ≠ (s.compartment i).index) :
    (recordedAs i code final s).entryCode n e = s.entryCode n e :=
  slotU8_recordedAs h code final (by unfold entryOffset; omega) (by unfold entryOffset; omega) (by unfold entryOffset; omega)

end Recorded

end Sys2Proof.Machine

/-! The end of a compartment and of its order on a spout that works by itself (R39, R104, R109, R117): what it makes of the spout. -/

namespace Sys2Proof.Machine

namespace Spout

/-- R109 step 4: the spout whose context is at rest. -/
def resting (p : Spout) : Spout := p.onContext fun c => { c.rest with stage := .idle }

/-- R39 step 1: the spout whose channel is frozen. -/
def frozen : Spout → Spout := Spout.onChannel Channel.endCompartment

/-- R104: the final joins the delivered total, and the code gives its mark. -/
def recorded (code : Code) (final : Nat) : Spout → Spout :=
  Spout.onOrder fun o => { o with total := o.total + final, mark := o.mark.strongest code.mark }

def dropCapture : Spout → Spout := Spout.onCalibration Calibration.dropCapture
def startCapture (kind : Capture) : Spout → Spout := Spout.onCalibration (Calibration.startCapture kind)
def marked (m : EndMark) : Spout → Spout := Spout.onOrder fun o => { o with mark := o.mark.strongest m }

end Spout

namespace Becomes

variable {i : SpoutId} {w : Option SlotId} {n : SlotId} {p : Spout} {q : Port} {s t u : State}

/-- What is known of a handler for every state it finds. -/
theorem chain (h : Becomes i w p q s t) (f : Spout → Spout) (h' : Becomes i w (f (t.spout i)) t.port t u) :
    Becomes i w (f p) q s u := by
  rw [h.spout, h.port] at h'
  exact h.trans h'

/-! ## Updates by name -/

theorem endIntegration (h : Becomes i w p q s t) : Becomes i w p.frozen q s (endIntegration i t) := h.updateChannel _
theorem dropCapture (h : Becomes i w p q s t) : Becomes i w p.dropCapture q s (dropCapture i t) := h.updateCalibration _
theorem startCapture (h : Becomes i w p q s t) (kind : Capture) :
    Becomes i w (p.startCapture kind) q s (startCapture i kind t) := h.updateCalibration _
theorem markOrder (h : Becomes i w p q s t) (m : EndMark) : Becomes i w (p.marked m) q s (markOrder i m t) := h.updateOrder _

theorem restContext (h : Becomes i w p q s t) : Becomes i w p.resting q s (restContext i t) :=
  (h.updateContext Context.rest).setStage .idle

/-! ## Writes of the slot -/

theorem writeSlot (h : Becomes i (some n) p q s t) (off : Nat) {bytes : List Byte} (ho : off + bytes.length ≤ 256) :
    Becomes i (some n) p q s (t.writeMemory (Config.slotBase n + off) bytes) :=
  h.of_memory (sameButMemory_writeMemory ..) (fun _ hm => sameSlot_writeSlot (fun e => hm (congrArg some e)) t off ho)
    fun hw => Memory.wf_writeBytes hw _ _

theorem writeProgress (h : Becomes i (some n) p q s t) (count total : Nat) :
    Becomes i (some n) p q s (writeProgress n count total t) :=
  (h.writeSlot 0x18 (by simp only [List.length_append, length_u8Bytes]; omega)).writeSlot 0x1C (by rw [length_u32Bytes]; omega)

theorem writeEntryCode (h : Becomes i (some n) p q s t) {e : Nat} (he : e < 12) (code : Code) :
    Becomes i (some n) p q s (writeEntryCode n e code t) := by
  unfold Machine.writeEntryCode
  rw [Nat.add_assoc]
  exact h.writeSlot _ (by rw [length_u8Bytes]; unfold entryOffset; omega)

theorem writeEffectiveTarget (h : Becomes i (some n) p q s t) {e : Nat} (he : e < 12) (eff : Nat) :
    Becomes i (some n) p q s (writeEffectiveTarget n e eff t) := by
  unfold Machine.writeEffectiveTarget
  rw [Nat.add_assoc]
  exact h.writeSlot _ (by rw [length_u32Bytes]; unfold entryOffset; omega)

theorem writeResult (h : Becomes i (some n) p q s t) (r : Result) (why : Reason) (index : Nat) :
    Becomes i (some n) p q s (writeResult n r why index t) :=
  h.writeSlot 3 (by simp only [List.length_append, length_u8Bytes]; omega)

theorem closeEntries (h : Becomes i (some n) p q s t) (hm : s.memory.wf = true) {count : Nat} (hc : count ≤ 12) (total : Nat) :
    Becomes i (some n) p q s (closeEntries n count total t) :=
  h.of_memory (sameButMemory_closeEntries ..)
    (fun _ hne => sameSlot_closeEntries (fun e => hne (congrArg some e)) (h.wf hm) hc total)
    fun hw => wf_closeEntries hw n count total

/-- R39 step 2, R104: the entry is recorded. -/
theorem recordedAs (h : Becomes i (some n) p q s t) (hslot : p.context.slot = some n) (he : p.context.compartment.index < 12)
    (code : Code) (final : Nat) : Becomes i (some n) (p.recorded code final) q s (recordedAs i code final t) := by
  have hcurrent : (t.context i).slot = some n := (congrArg (fun c => c.slot) h.context).trans hslot
  have hindex : (t.compartment i).index < 12 := by rw [h.compartment]; exact he
  have hframe := orderFrame_recordedAs hcurrent hindex code final
  refine ⟨?_, ?_, fun j hj => (hframe.others j hj).trans (h.others j hj), h.tables.trans hframe.tables,
    fun m hm => (h.slots m hm).trans (hframe.slots m fun e => hm (congrArg some e)), hframe.wf ∘ h.wf⟩
  · rw [spout_recordedAs hcurrent]
    unfold State.order State.context
    rw [h.spout]; rfl
  · rw [recordedAs_eq hcurrent, State.port_updateOrder]
    exact ((sameButMemory_writeEntry ..).trans (sameButMemory_writeProgress ..)).port.trans h.port

/-- R117: the end of an order under a soft reset. -/
theorem resetRest (h : Becomes i (some n) p q s t) (hm : s.memory.wf = true) (hslot : p.context.slot = some n)
    (ht : p.context.order.twin = false) (hc : p.context.order.count ≤ 12) :
    Becomes i (some n) p.resting q s (resetRest i t) := by
  have hcurrent : (t.context i).slot = some n := (congrArg (fun c => c.slot) h.context).trans hslot
  unfold Machine.resetRest; dsimp only
  rw [hcurrent, h.order, ht, if_neg Bool.false_ne_true]
  exact ((h.closeEntries hm hc _).writeResult ..).restContext

end Becomes

/-- R117: what the end of an order under a soft reset writes in its slot. -/
theorem slotClosed_resetRest {i : SpoutId} {n : SlotId} {s : State} (hm : s.memory.wf = true) (hslot : (s.context i).slot = some n)
    (ht : s.isTwin i = false) (hc : (s.order i).count ≤ 12) :
    s.SlotClosed n (s.order i).count (s.order i).total (s.slotStateByte n) 7 (resetRest i s) := by
  have htwin : (s.order i).twin = false := ht
  unfold resetRest; dsimp only
  rw [hslot, htwin, if_neg Bool.false_ne_true]
  exact (slotClosed_resetSlot hm hc).after hc (sameSlot_restContext n i _)

/-- R40, R109: a context at rest. -/
theorem Becomes.atRest {i : SpoutId} {w : Option SlotId} {p : Spout} {q : Port} {s t : State} (h : Becomes i w p.resting q s t) :
    t.atRest i := ⟨h.stage, (congrArg (fun c => c.slot) h.context :), h.order, h.compartment⟩

/-! ## The end of a compartment (R39) -/

/-- The final of a compartment: 0 g without a compartment-start request (R27). -/
def State.finalOf (s : State) (i : SpoutId) : Nat := if (s.compartment i).opened then (s.channel i).delivered else 0

theorem takeFinal_single {i : SpoutId} {s : State} (ht : s.isTwin i = false) (hd : (s.compartment i).opened = true → (s.channel i).delivered ≤ 4294967295) :
    takeFinal i s = (s, s.finalOf i) := by
  unfold State.finalOf
  cases ho : (s.compartment i).opened with
  | true => exact takeFinal_opened ht ho (hd ho)
  | false => exact takeFinal_unopened ho

theorem State.finalOf_le {i : SpoutId} {s : State} (hd : (s.compartment i).opened = true → (s.channel i).delivered ≤ 4294967295) : s.finalOf i ≤ 4294967295 := by
  unfold State.finalOf; split
  · next ho => exact hd ho
  · exact Nat.zero_le _

/-- R39 steps 1 and 2, R104: the compartment whose final is recorded. -/
def State.finalRecorded (s : State) (i : SpoutId) : State :=
  recordedAs i (compartmentCode (s.order i) (s.compartment i) (s.finalOf i)) (s.finalOf i) (endIntegration i s)

/-- R39: the end of a compartment of a spout that works by itself. -/
theorem finishCompartment_single (k : Reaction) (settled : Bool) {i : SpoutId} {s : State} (ht : s.isTwin i = false)
    (hd : (s.compartment i).opened = true → (s.channel i).delivered ≤ 4294967295) :
    finishCompartment k i settled s
      = let code := compartmentCode (s.order i) (s.compartment i) (s.finalOf i)
        let v := handRecord i code (s.finalOf i) settled (s.finalRecorded i)
        if (v.order i).mark = .reset then resetRest i v else startRelease k i settled v := by
  have hfrozen := (Becomes.refl i none s).endIntegration
  have hfinal : (endIntegration i s).finalOf i = s.finalOf i := by
    unfold State.finalOf
    rw [hfrozen.compartment, hfrozen.channel]; rfl
  have hdelivered : ((endIntegration i s).compartment i).opened = true → ((endIntegration i s).channel i).delivered ≤ 4294967295 := by
    rw [hfrozen.compartment, hfrozen.channel]; exact hd
  have htake := takeFinal_single (hfrozen.isTwin.trans ht) hdelivered
  unfold finishCompartment; dsimp only
  rw [forMembers_single ht, htake, hfinal, show (endIntegration i s).order i = s.order i from hfrozen.order,
    show (endIntegration i s).compartment i = s.compartment i from hfrozen.compartment]
  rfl

theorem becomes_finalRecorded {i : SpoutId} {n : SlotId} {s : State} (hslot : (s.context i).slot = some n)
    (he : (s.compartment i).index < 12) :
    Becomes i (some n) ((s.spout i).frozen.recorded (compartmentCode (s.order i) (s.compartment i) (s.finalOf i)) (s.finalOf i))
      s.port s (s.finalRecorded i) := ((Becomes.refl i (some n) s).endIntegration).recordedAs hslot he _ _

section FinalRecorded

variable {i : SpoutId} {n : SlotId} {s : State} (hslot : (s.context i).slot = some n)
include hslot

theorem entryShows_finalRecorded (hm : s.memory.wf = true) (htrims : (s.compartment i).trimsUsed ≤ 3)
    (hd : (s.compartment i).opened = true → (s.channel i).delivered ≤ 4294967295) : (s.finalRecorded i).entryShows n (s.compartment i).index
      (compartmentCode (s.order i) (s.compartment i) (s.finalOf i)).value
      (((s.compartment i).secondary.map Code.value).getD 0) (s.compartment i).trimsUsed (s.finalOf i) := by
  have hfrozen := (Becomes.refl i none s).endIntegration
  have hshows := entryShows_recordedAs (s := endIntegration i s) (hfrozen.wf hm)
    ((congrArg (fun c => c.slot) hfrozen.context).trans hslot)
    (compartmentCode (s.order i) (s.compartment i) (s.finalOf i)) (s.finalOf i)
  have hfinal := State.finalOf_le hd
  rw [show (endIntegration i s).compartment i = s.compartment i from hfrozen.compartment,
    Nat.mod_eq_of_lt (by omega : (s.compartment i).trimsUsed < 256), Nat.mod_eq_of_lt (by omega : s.finalOf i < 4294967296)] at hshows
  exact hshows

theorem progressFollows_finalRecorded (hm : s.memory.wf = true) (hc : (s.order i).count ≤ 12) :
    (s.finalRecorded i).progressFollows n (s.order i).count ((s.order i).total + s.finalOf i) := by
  have hfrozen := (Becomes.refl i none s).endIntegration
  have horder : (endIntegration i s).order i = s.order i := hfrozen.order
  have hprogress := progressFollows_recordedAs (s := endIntegration i s)
    ((congrArg (fun c => c.slot) hfrozen.context).trans hslot)
    (compartmentCode (s.order i) (s.compartment i) (s.finalOf i)) (s.finalOf i) (hfrozen.wf hm) (by rw [horder]; exact hc)
  rw [horder] at hprogress
  exact hprogress

theorem slotU8_finalRecorded {k : Nat} (hk : k < 256) (hp : ¬ (0x18 ≤ k ∧ k < 0x20))
    (hc : ¬ (0x45 + 16 * (s.compartment i).index ≤ k ∧ k < 0x48 + 16 * (s.compartment i).index))
    (hf : ¬ (0x4C + 16 * (s.compartment i).index ≤ k ∧ k < 0x50 + 16 * (s.compartment i).index)) :
    (s.finalRecorded i).slotU8 n k = s.slotU8 n k := by
  have hfrozen := (Becomes.refl i none s).endIntegration
  have hcompartment : (endIntegration i s).compartment i = s.compartment i := hfrozen.compartment
  refine (slotU8_recordedAs (s := endIntegration i s) ((congrArg (fun c => c.slot) hfrozen.context).trans hslot) _ _ hp ?_ ?_).trans
    ((hfrozen.slots n (by simp)).slotU8 hk)
  · rw [hcompartment]; exact hc
  · rw [hcompartment]; exact hf

theorem entryCode_finalRecorded {e : Nat} (he : e < 12) (hne : e ≠ (s.compartment i).index) :
    (s.finalRecorded i).entryCode n e = s.entryCode n e :=
  slotU8_finalRecorded hslot (by unfold entryOffset; omega) (by unfold entryOffset; omega) (by unfold entryOffset; omega)
    (by unfold entryOffset; omega)

end FinalRecorded

end Sys2Proof.Machine

/-! GATE_CLOSED ends a close (R24, R34, R46, R49): settle, or the end of a compartment that waits for it. -/

namespace Sys2Proof.Machine

/-- R24, R34: the spout's close has ended; its compartment waits for it no more. -/
def Spout.closeEnded (p : Spout) : Spout :=
  (p.onGate GateUnit.closedTaken).onCompartment fun c => { c with closeAwaited := false }

/-- R36: the spout's settle run starts afresh in SETTLING. -/
def Spout.settling (p : Spout) : Spout :=
  (p.onCompartment fun c => { c with settleRun := 0, settleDone := false }).onStage .settling

/-- The state in which the end of a close is acted on. -/
def State.closeEnded (s : State) (i : SpoutId) : State :=
  setCloseAwaited false i ((updateLine i .gateClosed (fun l => { l with taken := true, timer := none }) s).updateGate i
    GateUnit.closedTaken)

section CloseEnded

variable {i : SpoutId} {s : State}

theorem becomes_closeEnded (i : SpoutId) (w : Option SlotId) (s : State) :
    Becomes i w ((s.spout i).taking .gateClosed true).closeEnded s.port s (s.closeEnded i) :=
  (((Becomes.refl i w s).taking .gateClosed true).updateGate _).updateCompartment _

/-- R24: GATE_CLOSED taken present by a gate whose close it ends, in CLOSING. -/
theorem exec_gateClosed (hd : s.changeDue i .gateClosed true) (hs : s.stage i = .closing) (hf : (s.gate i).failed = false)
    (ho : (s.gate i).output = .close ∨ (s.gate i).retry.isSome = true) :
    exec (.debounceExpiry i .gateClosed) s = .next (ownCloseTaken react i (s.closeEnded i)) := by
  have htaken := (Becomes.refl i none s).taking .gateClosed true
  have hgate : (updateLine i .gateClosed (fun l => { l with taken := true, timer := none }) s).gate i = s.gate i := htaken.gate
  have htakes : (s.gate i).takesClosed = true := by
    unfold GateUnit.takesClosed
    rw [hf]
    obtain h | h := ho
    · rw [h]; rfl
    · rw [h, Bool.or_true]; rfl
  have hstage : (s.closeEnded i).stage i = .closing := (becomes_closeEnded i none s).stage.trans hs
  rw [exec_debounceExpiry hd]
  unfold takeChange deliverChange; dsimp only
  unfold gateClosedPresent
  rw [if_pos rfl, hgate, if_pos htakes]
  exact congrArg Host.Outcome.next (if_pos hstage)

theorem closeEnded_eq {g : GateUnit} (hg : (s.gate i).closedTaken = g) : s.closeEnded i
    = ((s.updateField i fun g => g.taking .gateClosed true).updateGate i fun _ => g).updateCompartment i
      fun x => { x with closeAwaited := false } := by
  have hgate : (s.updateField i fun g => g.taking .gateClosed true).gate i = s.gate i :=
    ((Becomes.refl i none s).taking .gateClosed true).gate
  have hupdate : (s.updateField i fun g => g.taking .gateClosed true).updateGate i GateUnit.closedTaken
      = (s.updateField i fun g => g.taking .gateClosed true).updateGate i fun _ => g :=
    State.updateGate_congr (by rw [hgate]; exact hg)
  rw [← hupdate]; rfl

/-- R34: the close of a compartment that settles. -/
theorem ownCloseTaken_settles (k : Reaction) (hm : (s.order i).mark ≠ .reset) (hn : (s.compartment i).noSettle = false) :
    ownCloseTaken k i s = setStage i .settling (freshSettle i s) := by
  unfold ownCloseTaken
  rw [if_neg hm, hn, if_neg Bool.false_ne_true]

/-- R46, R49: the close of a compartment that ends without settle, on a spout that works by itself. -/
theorem ownCloseTaken_ends (k : Reaction) (ht : s.isTwin i = false) (hs : s.stage i = .closing)
    (hw : (s.compartment i).closeAwaited = false) (h : (s.order i).mark = .reset ∨ (s.compartment i).noSettle = true) :
    ownCloseTaken k i s = finishCompartment k i false s := by
  unfold ownCloseTaken
  by_cases hm : (s.order i).mark = .reset
  · rw [if_pos hm, ht, if_neg Bool.false_ne_true]
  · have hn := h.resolve_left hm
    rw [if_neg hm, hn, if_pos rfl]
    refine if_pos ⟨by rw [hs]; rfl, hn, hm, ?_⟩
    rw [members_single ht, List.all_cons, hw]; rfl

end CloseEnded

/-- R49, R117: the end of the compartment, and the order, of a spout that works by itself under a soft reset. -/
theorem finishCompartment_reset (k : Reaction) {i : SpoutId} {n : SlotId} {s : State} (hm : s.memory.wf = true)
    (ht : s.isTwin i = false) (hslot : (s.context i).slot = some n) (he : (s.compartment i).index < 12)
    (hc : (s.order i).count ≤ 12) (hd : (s.compartment i).opened = true → (s.channel i).delivered ≤ 4294967295) (hmark : (s.order i).mark = .reset) :
    finishCompartment k i false s = resetRest i (s.finalRecorded i)
      ∧ Becomes i (some n) (s.spout i).frozen.resting s.port s (finishCompartment k i false s) := by
  have hrecorded := becomes_finalRecorded hslot he
  have hreset : ((s.finalRecorded i).order i).mark = .reset := by
    rw [hrecorded.order]
    show (s.order i).mark.strongest _ = .reset
    rw [hmark]
    unfold EndMark.strongest
    rw [if_neg (by cases (compartmentCode (s.order i) (s.compartment i) (s.finalOf i)).mark <;> decide)]
  have hfinish : finishCompartment k i false s = resetRest i (s.finalRecorded i) := by
    rw [finishCompartment_single k false ht hd]; dsimp only
    rw [handRecord_unsettled, if_pos hreset]
  refine ⟨hfinish, ?_⟩
  rw [hfinish]
  exact hrecorded.resetRest hm hslot ht hc

/-- R117: what that end writes in the slot. -/
theorem slotClosed_finishCompartment_reset (k : Reaction) {i : SpoutId} {n : SlotId} {s : State} (hm : s.memory.wf = true)
    (ht : s.isTwin i = false) (hslot : (s.context i).slot = some n) (he : (s.compartment i).index < 12)
    (hc : (s.order i).count ≤ 12) (hd : (s.compartment i).opened = true → (s.channel i).delivered ≤ 4294967295) (hmark : (s.order i).mark = .reset) :
    (s.finalRecorded i).SlotClosed n (s.order i).count ((s.order i).total + s.finalOf i) (s.slotStateByte n) 7
      (finishCompartment k i false s) := by
  have hrecorded := becomes_finalRecorded hslot he
  have hclosed := slotClosed_resetRest (hrecorded.wf hm) ((congrArg (fun c => c.slot) hrecorded.context).trans hslot)
    (hrecorded.isTwin.trans ht) (by rw [hrecorded.order]; exact hc)
  have hstate : (s.finalRecorded i).slotStateByte n = s.slotStateByte n :=
    slotU8_finalRecorded hslot (k := 0) (by omega) (by omega) (by omega) (by omega)
  rw [hrecorded.order, hstate] at hclosed
  rw [(finishCompartment_reset k hm ht hslot he hc hd hmark).1]
  exact hclosed

theorem compartmentCode_reset {o : OrderState} (h : o.mark = .reset) (c : Compartment) (final : Nat) :
    compartmentCode o c final = .reset := if_pos h

/-- Settles O36: the gate's close is over, and the mark and the compartment say what follows. -/
theorem gateClosedEndsTheClose : Obligations.GateClosedEndsTheClose := by
  unfold Obligations.GateClosedEndsTheClose
  refine ⟨fun i s hd hs ht hf ho => ?_, fun i n s hm hd hs hi hf ho hmark hslot hstate he hc hopened htrims hdelivered => ?_⟩
  · have hexec := exec_gateClosed hd hs hf ho
    have hended := becomes_closeEnded i none s
    intro gate
    have hgate : (s.gate i).closedTaken = gate := rfl
    refine ⟨fun hmark hn => ?_, fun hend => ?_⟩
    · have hsettles := ownCloseTaken_settles react (i := i) (s := s.closeEnded i) (by rw [hended.order]; exact hmark)
        (by rw [hended.compartment]; exact hn)
      have hfresh := (hended.updateCompartment fun c => { c with settleRun := 0, settleDone := false }).setStage .settling
      exact ⟨_, hexec.trans (congrArg Host.Outcome.next hsettles), hfresh.stage, hfresh.gate, hfresh.compartment, hfresh.order,
        hfresh.channel, hfresh.positioner, hfresh.others, hfresh.port, hfresh.tables⟩
    · have hends := ownCloseTaken_ends react (i := i) (s := s.closeEnded i) (hended.isTwin.trans ht) (hended.stage.trans hs)
        (by rw [hended.compartment]; rfl) (by rw [hended.order, hended.compartment]; exact hend)
      rw [hexec, hends, closeEnded_eq hgate]
  · have hexec := exec_gateClosed hd hs hf ho
    have hended := becomes_closeEnded i (some n) s
    have hfull := becomes_closeEnded i none s
    have htwin := hended.isTwin.trans hi.1
    have hslot' : ((s.closeEnded i).context i).slot = some n := (congrArg (fun c => c.slot) hended.context).trans hslot
    have he' : ((s.closeEnded i).compartment i).index < (s.order i).count := by rw [hended.compartment]; exact he
    have hc' : ((s.closeEnded i).order i).count ≤ 12 := by rw [hended.order]; exact hc
    have hd' : ((s.closeEnded i).compartment i).opened = true → ((s.closeEnded i).channel i).delivered ≤ 4294967295 := fun _ => by
      rw [hended.channel]; exact hdelivered
    have hmark' : ((s.closeEnded i).order i).mark = .reset := by rw [hended.order]; exact hmark
    have hends := ownCloseTaken_ends react htwin (hended.stage.trans hs) (by rw [hended.compartment]; rfl) (.inl hmark')
    obtain ⟨-, hfinish⟩ := finishCompartment_reset react (hended.wf hm) htwin hslot' (by omega) hc' hd' hmark'
    have hclosed := slotClosed_finishCompartment_reset react (hended.wf hm) htwin hslot' (by omega) hc' hd' hmark'
    have hdone := hended.chain (fun p => p.frozen.resting) hfinish
    have hfinal : (s.closeEnded i).finalOf i = (s.channel i).delivered := by
      unfold State.finalOf
      rw [hended.channel, hended.compartment]
      exact if_pos hopened
    have hshows := entryShows_finalRecorded hslot' (hended.wf hm) (by rw [hended.compartment]; exact htrims) hd'
    rw [compartmentCode_reset hmark', hfinal, hended.compartment] at hshows
    rw [hfinal, hended.order] at hclosed
    have hslots : SameSlot n s (s.closeEnded i) := hfull.slots n (by simp)
    intro x g
    refine ⟨_, hexec.trans (congrArg Host.Outcome.next hends), hdone.atRest,
      hclosed.slotState.trans (hslots.slotStateByte.trans hstate), hclosed.result,
      hclosed.entryShows he hc (by decide) hshows, fun e hrange hne => ?_, hclosed.progress, hdone.channel, hdone.positioner,
      hdone.others, hdone.tables⟩
    have hlt := List.mem_range.1 hrange
    have hcode : ((s.closeEnded i).finalRecorded i).entryCode n e = s.entryCode n e :=
      (entryCode_finalRecorded hslot' (by omega) (by rw [hended.compartment]; exact hne)).trans (hslots.entryCode (by omega))
    rw [hclosed.codes e hlt, hcode]; rfl

end Sys2Proof.Machine

/-! The release of a spout that works by itself (R39 step 5, R40, R90), the end of its order (R109), and the cut record (R68). -/

namespace Sys2Proof.Machine

/-! ## The release -/

namespace Spout

/-- R105: the index watch at the entry into RELEASING. -/
def releaseWatch (p : Spout) : IndexWatch := if p.field.indexReady.taken then .awaitDrop else .awaitRise

/-- R90: a short capture for a settled compartment, while the debt is above 0. -/
def settleCapture (settled : Bool) (p : Spout) : Spout :=
  if settled && !(p.positioner.position == .faulted) && 0 < p.calibration.debt then p.startCapture .shortSettle else p

/-- R40: the spout whose context enters RELEASING. -/
def enterReleasing (settled : Bool) (p : Spout) : Spout :=
  (((p.onOrder fun o => { o with watch := p.releaseWatch }).onCompartment
    fun c => { c with releasedAnswered := false }).onStage .releasing).settleCapture settled

theorem settleCapture_context (settled : Bool) (p : Spout) : (p.settleCapture settled).context = p.context := by
  unfold settleCapture; split <;> rfl

theorem settleCapture_positioner (settled : Bool) (p : Spout) : (p.settleCapture settled).positioner = p.positioner := by
  unfold settleCapture; split <;> rfl

theorem settleCapture_field (settled : Bool) (p : Spout) : (p.settleCapture settled).field = p.field := by
  unfold settleCapture; split <;> rfl

theorem settleCapture_channel (settled : Bool) (p : Spout) : (p.settleCapture settled).channel = p.channel := by
  unfold settleCapture; split <;> rfl

theorem enterReleasing_context (settled : Bool) (p : Spout) : (p.enterReleasing settled).context = { p.context with
    stage := .releasing, order := { p.context.order with watch := p.releaseWatch }
    compartment := { p.context.compartment with releasedAnswered := false } } := settleCapture_context ..

end Spout

namespace Becomes

variable {i : SpoutId} {w : Option SlotId} {n : SlotId} {p : Spout} {q : Port} {s t : State}

theorem settleCapture (h : Becomes i w p q s t) (settled : Bool) :
    Becomes i w (p.settleCapture settled) q s (startSettleCapture settled i t) := by
  unfold startSettleCapture Spout.settleCapture
  rw [h.isFaulted, h.calibration]; split
  · exact h.startCapture .shortSettle
  · exact h

theorem enterReleasing (h : Becomes i w p q s t) (ht : p.context.order.twin = false) (settled : Bool) :
    Becomes i w (p.enterReleasing settled) q s (enterReleasing i settled t) := by
  have hwatched := h.updateOrder fun o => { o with watch := p.releaseWatch }
  have hready : t.present i .indexReady = p.field.indexReady.taken := h.present .indexReady
  have hcleared := hwatched.updateCompartment fun c => { c with releasedAnswered := false }
  have hstaged := hcleared.setStage .releasing
  unfold Machine.enterReleasing; dsimp only
  rw [hready]
  rw [show (if p.field.indexReady.taken = true then IndexWatch.awaitDrop else .awaitRise) = p.releaseWatch from rfl,
    hwatched.forMembers ht, hstaged.forMembers ht]
  unfold setMemberPhase
  rw [if_pos rfl, hstaged.forMembers ht]
  exact hstaged.settleCapture settled

/-- R131: a release request to a spout that is down, or on its way, and not at its upper switch. -/
theorem releaseRequest (h : Becomes i w p q s t) (k : Reaction)
    (hp : p.positioner.position = .engaged ∨ p.positioner.position = .lowering) (hr : p.field.spoutRaised.taken = false) :
    Becomes i w p.beginRaise q s (releaseRequest k i t) := by
  have hposition : (t.positioner i).position = p.positioner.position := congrArg (fun x => x.position) h.positioner
  have hraise := h.beginRaise.testRaised_below k hr
  unfold Machine.releaseRequest raiseSpout
  rw [hposition]
  obtain e | e := hp <;> (rw [e]; exact hraise)

/-- R40: RELEASING waits for a spout that has not answered. -/
theorem releaseCheck_waits (h : Becomes i w p q s t) (k : Reaction) (ht : p.context.order.twin = false)
    (hp : p.positioner.position ≠ .faulted) (ha : p.context.compartment.releasedAnswered = false) :
    releaseCheck k i t = t := by
  have hdone : t.releaseDone i = false := by
    unfold State.releaseDone
    rw [h.isFaulted, h.compartment, ha, beq_eq_false_iff_ne.2 hp]; rfl
  unfold releaseCheck
  rw [members_single (h.isTwin.trans ht), List.all_cons, hdone]
  exact if_neg fun c => Bool.false_ne_true c.2

/-- R39 step 5, R40: the release of a spout that is not FAULTED, as its positioner takes the request. -/
theorem startRelease_of (h : Becomes i w p q s t) (k : Reaction) (ht : p.context.order.twin = false) (settled : Bool)
    (hp : p.positioner.position ≠ .faulted) {f : Positioner → Positioner} (hf : (f p.positioner).position ≠ .faulted)
    (hrequest : Becomes i w ((p.enterReleasing settled).onPositioner f) q s
      (Machine.releaseRequest k i (Machine.enterReleasing i settled t))) :
    Becomes i w ((p.enterReleasing settled).onPositioner f) q s (Machine.startRelease k i settled t) := by
  have hentered := h.enterReleasing ht settled
  have hcontext := Spout.enterReleasing_context settled p
  have htwin : (p.enterReleasing settled).context.order.twin = false := (congrArg (fun c => c.order.twin) hcontext).trans ht
  have hposition : (p.enterReleasing settled).positioner = p.positioner := Spout.settleCapture_positioner ..
  have hanswered : (p.enterReleasing settled).context.compartment.releasedAnswered = false :=
    congrArg (fun c => c.compartment.releasedAnswered) hcontext
  have hstage : (p.enterReleasing settled).context.stage = .releasing := congrArg (fun c => c.stage) hcontext
  have hasked : requestRelease k i i (Machine.enterReleasing i settled t)
      = Machine.releaseRequest k i (Machine.enterReleasing i settled t) := by
    refine if_pos ⟨hentered.stage.trans hstage, ?_, ?_⟩
    · rw [hentered.isFaulted, hposition, beq_eq_false_iff_ne.2 hp]; exact Bool.false_ne_true
    · rw [hentered.compartment, hanswered]; exact Bool.false_ne_true
  unfold Machine.startRelease
  rw [h.isFaulted, beq_eq_false_iff_ne.2 hp, Bool.false_and, if_neg Bool.false_ne_true, hentered.forMembers htwin, hasked,
    hrequest.releaseCheck_waits k htwin (by show (f (p.enterReleasing settled).positioner).position ≠ _; rw [hposition]; exact hf)
      hanswered]
  exact hrequest

/-- R39 step 5, R40: the spout is released, and raised. -/
theorem startRelease (h : Becomes i w p q s t) (k : Reaction) (ht : p.context.order.twin = false) (settled : Bool)
    (hp : p.positioner.position = .engaged ∨ p.positioner.position = .lowering) (hr : p.field.spoutRaised.taken = false) :
    Becomes i w (p.enterReleasing settled).beginRaise q s (startRelease k i settled t) := by
  have hentered := h.enterReleasing ht settled
  have hposition : (p.enterReleasing settled).positioner = p.positioner := Spout.settleCapture_positioner ..
  have hfield : (p.enterReleasing settled).field = p.field := Spout.settleCapture_field ..
  exact h.startRelease_of k ht settled (fun e => by rw [e] at hp; cases hp <;> contradiction)
    (f := fun x => { x with drive := .raise, travel := some (p.enterReleasing settled).travelTime, position := .raising })
    (fun e => by cases e)
    (hentered.releaseRequest k (by rw [hposition]; exact hp) (by rw [hfield]; exact hr))

end Becomes

/-! ## The end of an order (R109) -/

/-- R166: one more slot is counted done. -/
def Port.oneDone (q : Port) : Port := { q with doneCount := min (q.doneCount + 1) 255 }

namespace Becomes

variable {i : SpoutId} {n : SlotId} {p : Spout} {q : Port} {s t : State}

theorem markDone (h : Becomes i (some n) p q s t) (r : Result) : Becomes i (some n) p q.oneDone s (markDone n r t) where
  spout := ((sameButAnswers_markDone n r t).spout i).trans h.spout
  port := congrArg Port.oneDone h.port
  others j hj := ((sameButAnswers_markDone n r t).spout j).trans (h.others j hj)
  tables := h.tables.trans (sameButAnswers_markDone n r t).sameTables
  slots m hm := (h.slots m hm).trans (sameSlot_answered (fun e => hm (congrArg some e)) t _ _ _)
  wf hw := wf_answered (h.wf hw) ..

theorem closeOrderSlot (h : Becomes i (some n) p q s t) (hm : s.memory.wf = true) {o : OrderState} (hc : o.count ≤ 12) :
    Becomes i (some n) p q.oneDone s (closeOrderSlot n o t) := (h.closeEntries hm hc o.total).markDone _

end Becomes

/-- R109: the end of the order that a spout runs by itself, but for what it serves then. -/
def orderClosed (i : SpoutId) (n : SlotId) (s : State) : State := restContext i (closeOrderSlot n (s.order i) s)

theorem endOrder_single (k : Reaction) {i : SpoutId} {n : SlotId} {s : State} (hslot : (s.context i).slot = some n)
    (ht : s.isTwin i = false) : endOrder k i s = k (.idle i) (orderClosed i n s) := by
  have htwin : (s.order i).twin = false := ht
  unfold endOrder; dsimp only
  rw [hslot, htwin, if_neg Bool.false_ne_true]; rfl

theorem Becomes.orderClosed {i : SpoutId} {n : SlotId} {p : Spout} {q : Port} {s t : State} (h : Becomes i (some n) p q s t)
    (hm : s.memory.wf = true) (hc : p.context.order.count ≤ 12) :
    Becomes i (some n) p.resting q.oneDone s (orderClosed i n t) :=
  (h.closeOrderSlot hm (by rw [h.order]; exact hc)).restContext

theorem slotClosed_orderClosed {i : SpoutId} {n : SlotId} {s : State} (hm : s.memory.wf = true) (hc : (s.order i).count ≤ 12) :
    s.SlotClosed n (s.order i).count (s.order i).total 4 (orderResult (s.order i).mark
      ((closeEntries n (s.order i).count (s.order i).total s).entryCodes n (s.order i).count)).value (orderClosed i n s) :=
  (slotClosed_closeOrderSlot hm hc).after hc (sameSlot_restContext n i _)

/-- R109: with no claim on the spout and nothing queued, the end of an order is all that happens. -/
theorem endOrder_unserved {i : SpoutId} {n : SlotId} {s : State} (hm : s.memory.wf = true) (hslot : (s.context i).slot = some n)
    (ht : s.isTwin i = false) (hc : (s.order i).count ≤ 12) (hclaim : (s.context i).claim = none) (hq : s.queue i = []) :
    endOrder react i s = orderClosed i n s := by
  have hclosed := (Becomes.refl i (some n) s).orderClosed hm hc
  rw [endOrder_single react hslot ht]
  exact reactTo_idle_of_nothing _ ((congrArg (fun c => c.claim) hclosed.context).trans hclaim) (hclosed.queue.trans hq)

/-! ## The cut record (R68) -/

/-- Nothing but the preact table and the memory below the slots differs. -/
structure SameButLearning (s t : State) : Prop where
  spout : ∀ j, t.spout j = s.spout j
  port : t.port = s.port
  products : t.products = s.products
  pending : t.pending = s.pending
  slots : ∀ m, SameSlot m s t
  wf : s.memory.wf = true → t.memory.wf = true

theorem SameButLearning.refl (s : State) : SameButLearning s s :=
  ⟨fun _ => rfl, rfl, rfl, rfl, fun m => .refl m s, id⟩

theorem sameButLearning_writePreact (e : Fin 128) (v : PreactEntry) (s : State) : SameButLearning s (writePreact e v s) := by
  have himage := sameButMemory_writeStamped (Config.preactImageBase e)
    (preactFields ({ s with preact := s.preact.set e v } : State).preact[e]) { s with preact := s.preact.set e v }
  exact ⟨himage.spout, himage.port, himage.products, himage.pending,
    fun m => sameSlot_writeStamped (s := { s with preact := s.preact.set e v }) m
      (by rw [length_preactFields, Config.preactImageBase]; omega),
    fun hw => wf_writeStamped (s := { s with preact := s.preact.set e v }) _ _ hw⟩

theorem sameButLearning_learnRecord (r : CutRecord) (s : State) : SameButLearning s (learnRecord r s) := by
  unfold learnRecord; split
  · exact .refl s
  · split
    · exact sameButLearning_writePreact ..
    · exact .refl s

theorem preact_writePreact (e : Fin 128) (v : PreactEntry) (s : State) : (writePreact e v s).preact = s.preact.set e v :=
  (sameButMemory_writeStamped ..).preact

/-- R72: what a record makes of the table depends on the table alone. -/
theorem preact_learnRecord_congr (r : CutRecord) {s u : State} (h : u.preact = s.preact) :
    (learnRecord r u).preact = (learnRecord r s).preact := by
  unfold learnRecord; split
  · exact h
  · split
    · dsimp only
      rw [preact_writePreact, preact_writePreact, h]
    · exact h

end Sys2Proof.Machine

/-! The end of a compartment on a spout that works by itself (R39, R48, R104): the statement on its record and its release. -/

namespace Sys2Proof.Machine

/-! ## The code of a compartment (R48) -/

theorem compartmentCode_cause {o : OrderState} (h : o.mark ≠ .reset) {c : Compartment} {code : Code} (hc : c.cause = some code)
    (final : Nat) : compartmentCode o c final = code := by
  unfold compartmentCode
  rw [if_neg h, hc]

theorem compartmentCode_tolerance {o : OrderState} (h : o.mark ≠ .reset) {c : Compartment} (hc : c.cause = none) (final : Nat) :
    compartmentCode o c final = toleranceCode o c.effectiveTarget final := by
  unfold compartmentCode
  rw [if_neg h, hc]

theorem compartmentCode_ne_reset {o : OrderState} (h : o.mark ≠ .reset) {c : Compartment} (hc : c.cause ≠ some .reset) (final : Nat) :
    compartmentCode o c final ≠ .reset := by
  cases hcause : c.cause with
  | some code => rw [compartmentCode_cause h hcause]; rintro rfl; exact hc hcause
  | none =>
    rw [compartmentCode_tolerance h hcause]
    unfold toleranceCode
    split_ifs <;> decide

theorem compartmentCode_ne_pending {o : OrderState} {c : Compartment} (hc : c.cause ≠ some .pending) (final : Nat) :
    compartmentCode o c final ≠ .pending := by
  by_cases h : o.mark = .reset
  · rw [compartmentCode_reset h]; decide
  · cases hcause : c.cause with
    | some code => rw [compartmentCode_cause h hcause]; rintro rfl; exact hc hcause
    | none =>
      rw [compartmentCode_tolerance h hcause]
      unfold toleranceCode
      split_ifs <;> decide

theorem Code.value_ne_zero {code : Code} (h : code ≠ .pending) : code.value ≠ 0 := by
  cases code with
  | pending => exact absurd rfl h
  | _ => decide

theorem EndMark.strongest_ne_reset {m m' : EndMark} (h : m ≠ .reset) (h' : m' ≠ .reset) : m.strongest m' ≠ .reset := by
  unfold EndMark.strongest; split
  · exact h'
  · exact h

theorem EndMark.strongest_none (m : EndMark) : EndMark.strongest .none m = m := by cases m <;> rfl

/-- R48: the code of a compartment without a cause, by its distance from the target. -/
theorem toleranceCode_eq (o : OrderState) (target final : Nat) :
    let d := (final : Int) - target
    (-(o.underTol : Int) ≤ d → d ≤ o.overTol → toleranceCode o target final = .ok)
      ∧ (d < -(o.underTol : Int) → toleranceCode o target final = .under)
      ∧ ((o.overTol : Int) < d → toleranceCode o target final = .over) := by
  unfold toleranceCode
  refine ⟨fun hlow hhigh => ?_, fun hlow => ?_, fun hhigh => ?_⟩
  · rw [if_neg (by omega), if_neg (by omega)]
  · rw [if_pos (by omega)]
  · rw [if_neg (by omega), if_pos (by omega)]

/-! ## The record handed to the learning unit -/

/-- R68: the cut record of a compartment of a spout that works by itself. -/
def State.recordOf (s : State) (i : SpoutId) (n : SlotId) (settled : Bool) : CutRecord :=
  { spout := i, product := (s.order i).product, slot := n, effectiveTarget := (s.compartment i).effectiveTarget
    final := s.finalOf i, code := compartmentCode (s.order i) (s.compartment i) (s.finalOf i), hold := (s.compartment i).hold
    closeRetried := (s.compartment i).closeRetried, stopPending := (s.compartment i).stopPending
    levelAfterCut := (s.compartment i).levelAfterCut, trimsUsed := (s.compartment i).trimsUsed, settled := settled
    offset := (s.order i).offset, gain := (s.profile i).learnGain, maxStep := (s.profile i).learnMaxStep
    minRate := (s.profile i).learnMinRate }

/-- R39 steps 1 to 4: the compartment recorded, and its record taken by the learning unit. -/
def State.compartmentEnded (s : State) (i : SpoutId) (settled : Bool) : State :=
  handRecord i (compartmentCode (s.order i) (s.compartment i) (s.finalOf i)) (s.finalOf i) settled (s.finalRecorded i)

section Ended

variable {i : SpoutId} {n : SlotId} {settled : Bool} {s : State} (ht : s.isTwin i = false) (hslot : (s.context i).slot = some n)
  (he : (s.compartment i).index < 12)
include ht hslot he

/-- R68: an opened compartment alone hands a record. -/
theorem compartmentEnded_eq : s.compartmentEnded i settled
    = if (s.compartment i).opened then learnRecord (s.recordOf i n settled) (s.finalRecorded i) else s.finalRecorded i := by
  have hrecorded := becomes_finalRecorded hslot he
  have hrecord : (s.finalRecorded i).cutRecord i n (compartmentCode (s.order i) (s.compartment i) (s.finalOf i)) (s.finalOf i)
      settled = s.recordOf i n settled := by
    unfold State.cutRecord State.recordOf; dsimp only
    rw [hrecorded.order, hrecorded.compartment, hrecorded.profile, hrecorded.isTwin.trans ht, Bool.false_and, Bool.or_false]
    rfl
  unfold State.compartmentEnded handRecord
  rw [(congrArg (fun c => c.slot) hrecorded.context).trans hslot]; dsimp only
  rw [hrecord, hrecorded.compartment]; rfl

theorem sameButLearning_compartmentEnded : SameButLearning (s.finalRecorded i) (s.compartmentEnded i settled) := by
  rw [compartmentEnded_eq ht hslot he]; split
  · exact sameButLearning_learnRecord ..
  · exact .refl _

theorem preact_compartmentEnded :
    ((s.compartment i).opened = true → (s.compartmentEnded i settled).preact = (learnRecord (s.recordOf i n settled) s).preact)
      ∧ ((s.compartment i).opened = false → (s.compartmentEnded i settled).preact = s.preact) := by
  have hrecorded := becomes_finalRecorded hslot he
  rw [compartmentEnded_eq ht hslot he]
  refine ⟨fun ho => ?_, fun ho => ?_⟩
  · rw [if_pos ho]; exact preact_learnRecord_congr _ hrecorded.tables.2.1
  · rw [ho, if_neg Bool.false_ne_true]; exact hrecorded.tables.2.1

theorem spout_compartmentEnded : (s.compartmentEnded i settled).spout i
    = (s.spout i).frozen.recorded (compartmentCode (s.order i) (s.compartment i) (s.finalOf i)) (s.finalOf i) :=
  ((sameButLearning_compartmentEnded ht hslot he).spout i).trans (becomes_finalRecorded hslot he).spout

theorem finishCompartment_marked (k : Reaction) (hd : (s.compartment i).opened = true → (s.channel i).delivered ≤ 4294967295) (hmark : (s.order i).mark ≠ .reset)
    (hcause : (s.compartment i).cause ≠ some .reset) :
    finishCompartment k i settled s = startRelease k i settled (s.compartmentEnded i settled) := by
  have hended : ((s.compartmentEnded i settled).order i).mark
      = (s.order i).mark.strongest (compartmentCode (s.order i) (s.compartment i) (s.finalOf i)).mark :=
    congrArg (fun p : Spout => p.context.order.mark) (spout_compartmentEnded ht hslot he)
  rw [finishCompartment_single k settled ht hd]
  refine if_neg ?_
  rw [show handRecord i (compartmentCode (s.order i) (s.compartment i) (s.finalOf i)) (s.finalOf i) settled (s.finalRecorded i)
    = s.compartmentEnded i settled from rfl, hended]
  exact EndMark.strongest_ne_reset hmark (Code.mark_ne_reset (compartmentCode_ne_reset hmark hcause _))

end Ended

/-! ## The two ends -/

/-- The spout whose compartment's final is recorded. -/
def State.recordedSpout (s : State) (i : SpoutId) : Spout :=
  (s.spout i).frozen.recorded (compartmentCode (s.order i) (s.compartment i) (s.finalOf i)) (s.finalOf i)

/-- The state in which the release, or the end of the order, begins. -/
theorem becomes_compartmentEnded {i : SpoutId} {n : SlotId} {settled : Bool} {s : State} (ht : s.isTwin i = false)
    (hslot : (s.context i).slot = some n) (he : (s.compartment i).index < 12) (w : Option SlotId) :
    Becomes i w (s.recordedSpout i) s.port (s.compartmentEnded i settled) (s.compartmentEnded i settled) := by
  have h := Becomes.refl i w (s.compartmentEnded i settled)
  rw [spout_compartmentEnded ht hslot he, (sameButLearning_compartmentEnded ht hslot he).port,
    (becomes_finalRecorded hslot he).port] at h
  exact h

section Ends

variable {i : SpoutId} {n : SlotId} {settled : Bool} {s : State} (ht : s.isTwin i = false)
  (hslot : (s.context i).slot = some n) (he : (s.compartment i).index < 12) (hd : (s.compartment i).opened = true → (s.channel i).delivered ≤ 4294967295)
include ht hslot he hd

/-- R39, R40: the compartment ends and its spout is raised. -/
theorem finishCompartment_releases (hmark : (s.order i).mark ≠ .reset) (hcause : (s.compartment i).cause ≠ some .reset)
    (hr : s.willRaise i) : Becomes i none ((s.recordedSpout i).enterReleasing settled).beginRaise s.port
      (s.compartmentEnded i settled) (finishCompartment react i settled s) := by
  rw [finishCompartment_marked ht hslot he react hd hmark hcause]
  exact (becomes_compartmentEnded ht hslot he none).startRelease react ht settled hr.1 hr.2

/-- R39, R40, R109: the compartment of a FAULTED spout ends, and its order with SPOUT_FAULT. -/
theorem finishCompartment_faulted (hm : s.memory.wf = true) (hc : (s.order i).count ≤ 12) (hmark : (s.order i).mark = .spoutFault)
    (hcause : (s.compartment i).cause ≠ some .reset) (hf : s.isFaulted i = true) (hq : s.queue i = [])
    (hclaim : (s.context i).claim = none) :
    Becomes i (some n) (s.recordedSpout i).resting s.port.oneDone (s.compartmentEnded i settled)
        (finishCompartment react i settled s)
      ∧ (s.compartmentEnded i settled).SlotClosed n (s.order i).count ((s.order i).total + s.finalOf i) 4 6
        (finishCompartment react i settled s) := by
  have hmark' : (s.order i).mark ≠ .reset := by rw [hmark]; decide
  have hlearned := sameButLearning_compartmentEnded (settled := settled) ht hslot he
  have hrecorded := becomes_finalRecorded hslot he
  have hended := becomes_compartmentEnded (settled := settled) ht hslot he (some n)
  have hwf : (s.compartmentEnded i settled).memory.wf = true := hlearned.wf (hrecorded.wf hm)
  have hfault : ((s.compartmentEnded i settled).order i).mark = .spoutFault := by
    rw [hended.order]
    show (s.order i).mark.strongest _ = .spoutFault
    rw [hmark]
    exact EndMark.strongest_of_spoutFault (Code.mark_ne_reset (compartmentCode_ne_reset hmark' hcause _))
  have hcount : ((s.compartmentEnded i settled).order i).count ≤ 12 := by rw [hended.order]; exact hc
  have hend : finishCompartment react i settled s = orderClosed i n (s.compartmentEnded i settled) := by
    rw [finishCompartment_marked ht hslot he react hd hmark' hcause]
    unfold startRelease
    rw [hended.isFaulted, show ((s.recordedSpout i).positioner.position == Position.faulted) = true from hf, hended.isTwin.trans ht]
    refine (if_pos rfl).trans ((if_neg (by rw [hfault]; decide)).trans ?_)
    exact endOrder_unserved hwf ((congrArg (fun c => c.slot) hended.context).trans hslot) (hended.isTwin.trans ht) hcount
      ((congrArg (fun c => c.claim) hended.context).trans hclaim) (hended.queue.trans hq)
  have hclosed := slotClosed_orderClosed (n := n) hwf hcount
  rw [hfault] at hclosed
  rw [hend]
  rw [hended.order] at hclosed
  exact ⟨hended.orderClosed hwf hc, hclosed⟩

end Ends

/-! ## The statement -/

section Statement

variable {i : SpoutId} {n : SlotId} {settled : Bool} {s : State} (ht : s.isTwin i = false)
  (hslot : (s.context i).slot = some n) (he : (s.compartment i).index < 12)
include ht hslot he

/-- The slots of the other orders are not written by the end of a compartment. -/
theorem slotU8_compartmentEnded_other {m : SlotId} (hne : m ≠ n) {k : Nat} (hk : k < 256) :
    (s.compartmentEnded i settled).slotU8 m k = s.slotU8 m k :=
  (((sameButLearning_compartmentEnded ht hslot he).slots m).slotU8 hk).trans
    (((becomes_finalRecorded hslot he).slots m fun e => hne (Option.some.inj e)).slotU8 hk)

theorem slotU8_compartmentEnded {k : Nat} (hk : k < 256) (hp : ¬ (0x18 ≤ k ∧ k < 0x20))
    (hc : ¬ (0x45 + 16 * (s.compartment i).index ≤ k ∧ k < 0x48 + 16 * (s.compartment i).index))
    (hf : ¬ (0x4C + 16 * (s.compartment i).index ≤ k ∧ k < 0x50 + 16 * (s.compartment i).index)) :
    (s.compartmentEnded i settled).slotU8 n k = s.slotU8 n k :=
  (((sameButLearning_compartmentEnded ht hslot he).slots n).slotU8 hk).trans (slotU8_finalRecorded hslot hk hp hc hf)

theorem entryCode_compartmentEnded {e : Nat} (h12 : e < 12) (hne : e ≠ (s.compartment i).index) :
    (s.compartmentEnded i settled).entryCode n e = s.entryCode n e :=
  (((sameButLearning_compartmentEnded ht hslot he).slots n).entryCode h12).trans (entryCode_finalRecorded hslot h12 hne)

theorem others_compartmentEnded : SameOtherSpouts i s (s.compartmentEnded i settled) := fun j hj =>
  ((sameButLearning_compartmentEnded ht hslot he).spout j).trans ((becomes_finalRecorded hslot he).others j hj)

theorem products_compartmentEnded : (s.compartmentEnded i settled).products = s.products :=
  (sameButLearning_compartmentEnded ht hslot he).products.trans (becomes_finalRecorded hslot he).tables.1

theorem pending_compartmentEnded : (s.compartmentEnded i settled).pending = s.pending :=
  (sameButLearning_compartmentEnded ht hslot he).pending.trans (becomes_finalRecorded hslot he).tables.2.2

theorem entryShows_compartmentEnded (hm : s.memory.wf = true) (htrims : (s.compartment i).trimsUsed ≤ 3)
    (hd : (s.compartment i).opened = true → (s.channel i).delivered ≤ 4294967295) : (s.compartmentEnded i settled).entryShows n (s.compartment i).index
      (compartmentCode (s.order i) (s.compartment i) (s.finalOf i)).value
      (((s.compartment i).secondary.map Code.value).getD 0) (s.compartment i).trimsUsed (s.finalOf i) := by
  have hslots := (sameButLearning_compartmentEnded (settled := settled) ht hslot he).slots n
  exact (entryShows_finalRecorded hslot hm htrims hd).of_bytes (hslots.entryCode he)
    fun off _ _ => hslots.slotU8 (by unfold entryOffset; omega)

end Statement

theorem State.entryShows.of_sameSlot {s t : State} {n : SlotId} {e code secondary trims final : Nat}
    (h : s.entryShows n e code secondary trims final) (he : e < 12) (hs : SameSlot n s t) :
    t.entryShows n e code secondary trims final :=
  h.of_bytes (hs.entryCode he) fun off _ _ => hs.slotU8 (by unfold entryOffset; omega)

/-- R104: the end mark that a code leaves on an order without one. -/
theorem mark_of_code {m : EndMark} {code : Code} (h : m = EndMark.strongest .none code.mark) :
    (code = .ok ∨ code = .under ∨ code = .over ∨ code = .level → m = .none)
      ∧ (code = .partialStop → m = .stopped)
      ∧ (code = .noOpen ∨ code = .permitLost ∨ code = .seatLost ∨ code = .vehicleMoved ∨ code = .surge
          ∨ code = .noFlow ∨ code = .zeroUnstable → m = .ended)
      ∧ (code = .sensorLost ∨ code = .travelFault ∨ code = .gateFault → m = .spoutFault) := by
  rw [EndMark.strongest_none] at h
  subst h
  cases code <;> simp [Code.mark]

/-- R40, R104: the context that a compartment's end leaves in RELEASING. -/
def State.contextReleasing (s : State) (i : SpoutId) : Context := { s.context i with
  stage := .releasing
  compartment := { s.compartment i with releasedAnswered := false }
  order := { s.order i with
    total := (s.order i).total + s.finalOf i
    mark := (s.order i).mark.strongest (compartmentCode (s.order i) (s.compartment i) (s.finalOf i)).mark
    watch := if s.present i .indexReady then .awaitDrop else .awaitRise } }

/-- What the end of a compartment makes of a spout that is raised. -/
structure State.IsReleased (i : SpoutId) (settled : Bool) (s t : State) : Prop where
  context : t.context i = s.contextReleasing i
  raising : t.isRaising i
  channel : t.channel i = { s.channel i with integrating := false }
  captures : settled = true → 0 < (s.calibration i).debt →
    (t.calibration i).capture = .shortSettle ∧ (t.calibration i).captureCount = 0
  rests : settled = false ∨ (s.calibration i).debt = 0 → t.calibration i = s.calibration i

theorem Becomes.isReleased {i : SpoutId} {w : Option SlotId} {q : Port} {settled : Bool} {s u t : State}
    (h : Becomes i w ((s.recordedSpout i).enterReleasing settled).beginRaise q u t) (hf : s.isFaulted i = false) :
    s.IsReleased i settled t where
  context := h.context.trans (Spout.enterReleasing_context ..)
  raising := by
    refine h.isRaising rfl rfl ?_
    show some _ = some _
    unfold Spout.travelTime Spout.enterReleasing Spout.settleCapture
    split <;> rfl
  channel := h.channel.trans (Spout.settleCapture_channel ..)
  captures hs hd := by
    have hcapture : (settled && !(s.isFaulted i) && decide (0 < (s.calibration i).debt)) = true := by
      rw [hs, hf, decide_eq_true hd]; rfl
    have hcalibration : t.calibration i = (s.calibration i).startCapture .shortSettle :=
      h.calibration.trans (congrArg Spout.calibration (if_pos hcapture))
    rw [hcalibration]
    exact ⟨rfl, rfl⟩
  rests hs := by
    have hcapture : ¬ (settled && !(s.isFaulted i) && decide (0 < (s.calibration i).debt)) = true := by
      obtain hs | hd := hs
      · rw [hs]; exact Bool.false_ne_true
      · rw [hd, decide_eq_false (Nat.lt_irrefl 0), Bool.and_false]; exact Bool.false_ne_true
    have hcalibration := congrArg Spout.calibration (if_neg hcapture :
      (s.recordedSpout i).enterReleasing settled = _)
    exact h.calibration.trans hcalibration

/-- Settles O46: `finishCompartment_releases` and `finishCompartment_faulted` say what the end of a compartment makes of the spout
and of the slot. -/
theorem compartmentEndRecordsAndReleases : Obligations.CompartmentEndRecordsAndReleases := by
  unfold Obligations.CompartmentEndRecordsAndReleases
  refine ⟨fun i n settled s hm hi hslot he hc htrims hd hcause => ?_, fun o c final hmark =>
    ⟨fun code h => compartmentCode_cause hmark h final, fun h => ?_⟩⟩
  · intro c o p final code record t
    have ht : t = finishCompartment react i settled s := rfl
    clear_value t
    have he' : (s.compartment i).index < 12 := by omega
    have hshows := entryShows_compartmentEnded (settled := settled) hi.1 hslot he' hm htrims fun _ => hd
    refine ⟨fun hmark hr => ?_, fun hmark hf hq hclaim hpending => ?_⟩
    · have hdone := finishCompartment_releases (settled := settled) hi.1 hslot he' (fun _ => hd) hmark hcause hr
      rw [← ht] at hdone
      have hslots : ∀ m, SameSlot m (s.compartmentEnded i settled) t := fun m => hdone.slots m (by simp)
      have hprogress := (progressFollows_finalRecorded hslot hm hc).of_sameSlot hc
        (((sameButLearning_compartmentEnded (settled := settled) hi.1 hslot he').slots n).trans (hslots n))
      have hpreact := preact_compartmentEnded (settled := settled) hi.1 hslot he'
      have hnot : s.isFaulted i = false := beq_eq_false_iff_ne.2 fun e => by
        obtain h | h := hr.1 <;> (rw [e] at h; cases h)
      have hreleased := hdone.isReleased hnot
      have hcontext := hreleased.context
      refine ⟨(congrArg (fun x => x.stage) hcontext :), hreleased.raising, (congrArg (fun x => x.slot) hcontext).trans hslot,
        hshows.of_sameSlot he' (hslots n),
        fun k hk hp hc hf => ((hslots n).slotU8 (List.mem_range.1 hk)).trans
          (slotU8_compartmentEnded hi.1 hslot he' (List.mem_range.1 hk) hp hc hf),
        fun m hne k hk => ((hslots m).slotU8 (List.mem_range.1 hk)).trans
          (slotU8_compartmentEnded_other hi.1 hslot he' hne (List.mem_range.1 hk)),
        (congrArg (fun x => x.order.total) hcontext :), hprogress, fun hnone => mark_of_code ?_,
        (congrArg (fun x => x.order.watch) hcontext :),
        fun ho => hdone.tables.2.1.trans (hpreact.1 ho), fun ho => hdone.tables.2.1.trans (hpreact.2 ho),
        hreleased.channel, (congrArg (fun x => x.gate) hcontext :), hreleased.captures, hreleased.rests,
        fun j hj => (hdone.others j hj).trans (others_compartmentEnded hi.1 hslot he' j hj), hdone.port,
        hdone.tables.1.trans (products_compartmentEnded hi.1 hslot he'), hdone.tables.2.2.trans (pending_compartmentEnded hi.1 hslot he')⟩
      rw [← hnone]; exact (congrArg (fun x => x.order.mark) hcontext :)
    · obtain ⟨hdone, hclosed⟩ := finishCompartment_faulted (settled := settled) hi.1 hslot he' (fun _ => hd) hm hc hmark hcause hf hq hclaim
      rw [← ht] at hdone hclosed
      refine ⟨hdone.atRest, hclosed.entryShows he hc (Code.value_ne_zero (compartmentCode_ne_pending hpending _)) hshows,
        hclosed.slotState, hclosed.result, hclosed.progress, fun e hrange hne => ?_, fun k hk h40 h5 hcode hfinal => ?_,
        fun m hne k hk => ((hdone.slots m fun e => hne (Option.some.inj e)).slotU8 (List.mem_range.1 hk)).trans
          (slotU8_compartmentEnded_other hi.1 hslot he' hne (List.mem_range.1 hk)),
        hdone.channel, hdone.gate, hdone.positioner,
        fun j hj => (hdone.others j hj).trans (others_compartmentEnded hi.1 hslot he' j hj),
        hdone.tables.1.trans (products_compartmentEnded hi.1 hslot he'), hdone.tables.2.2.trans (pending_compartmentEnded hi.1 hslot he')⟩
      · have hlt : e < (s.order i).count := List.mem_range.1 hrange
        have hcode := entryCode_compartmentEnded (settled := settled) hi.1 hslot he' (by omega : e < 12) hne
        rw [hclosed.codes e hlt, hcode]; rfl
      · have hlt := List.mem_range.1 hk
        have hrest : ¬ (0x46 + 16 * (s.compartment i).index ≤ k ∧ k < 0x48 + 16 * (s.compartment i).index) := hcode
        exact (hclosed.bytes k hlt (by omega) (by omega) fun e _ => by omega).trans
          (slotU8_compartmentEnded hi.1 hslot he' hlt (by omega) (by omega) hfinal)
  · rw [compartmentCode_tolerance hmark h]
    exact toleranceCode_eq o c.effectiveTarget final

end Sys2Proof.Machine

/-! A compartment that ends before its opening (R26, R28, R91), and the entry of a spout into FAULTED with nothing queued (R134). -/

namespace Sys2Proof.Machine

namespace Spout

/-- R28, R39, R104: the compartment has ended with a code before its opening, its record with a final of 0 g. -/
def endedUnopened (code : Code) (p : Spout) : Spout :=
  ((p.dropCapture.onCompartment (Compartment.setCause (some code))).frozen).recorded code 0

/-- R134: the spout in FAULTED, its capture abandoned. -/
def faulted (cause : FaultCause) (p : Spout) : Spout := (p.onPositioner (Positioner.enterFault cause)).dropCapture

end Spout

/-- R28, R39 steps 1 and 2: the state in which the release begins, or the order ends. -/
def unopenedRecorded (i : SpoutId) (code : Code) (s : State) : State :=
  recordedAs i code 0 (endIntegration i ((dropCapture i s).updateCompartment i (Compartment.setCause (some code))))

namespace Becomes

variable {i : SpoutId} {w : Option SlotId} {n : SlotId} {p : Spout} {q : Port} {s t : State}

/-! ## The end before the opening -/

theorem unopenedRecorded (h : Becomes i (some n) p q s t) (hslot : p.context.slot = some n)
    (he : p.context.compartment.index < 12) (code : Code) :
    Becomes i (some n) (p.endedUnopened code) q s (unopenedRecorded i code t) := by
  have hended := (h.dropCapture.updateCompartment (Compartment.setCause (some code))).endIntegration
  have hindex : (p.context.compartment.setCause (some code)).index = p.context.compartment.index := by
    unfold Compartment.setCause; split <;> rfl
  exact hended.recordedAs hslot (hindex ▸ he) code 0

/-- R28, R39: a compartment that has no cause and was never opened ends with its code, and its release begins. -/
theorem endUnopened (h : Becomes i (some n) p q s t) (k : Reaction) (hslot : p.context.slot = some n)
    (ht : p.context.order.twin = false) (he : p.context.compartment.index < 12) (hcause : p.context.compartment.cause = none)
    (ho : p.context.compartment.opened = false) (hmark : p.context.order.mark ≠ .reset) {code : Code} (hc : code ≠ .reset) :
    Machine.endUnopened k i code t = Machine.startRelease k i false (Machine.unopenedRecorded i code t) := by
  have hdropped := h.dropCapture.updateCompartment (Compartment.setCause (some code))
  have hset : p.context.compartment.setCause (some code) = { p.context.compartment with cause := some code } := by
    rw [Compartment.setCause_some, hcause]; rfl
  have hcompartment : ((Machine.dropCapture i t).updateCompartment i (Compartment.setCause (some code))).compartment i
      = { p.context.compartment with cause := some code } := hdropped.compartment.trans hset
  have hcurrent : (((Machine.dropCapture i t).updateCompartment i (Compartment.setCause (some code))).context i).slot = some n :=
    (congrArg (fun c => c.slot) hdropped.context).trans hslot
  have hmark' : (((Machine.dropCapture i t).updateCompartment i (Compartment.setCause (some code))).order i).mark ≠ .reset := by
    rw [hdropped.order]; exact hmark
  have hopened : (((Machine.dropCapture i t).updateCompartment i (Compartment.setCause (some code))).compartment i).opened
      = false := by rw [hcompartment]; exact ho
  have hindex : (((Machine.dropCapture i t).updateCompartment i (Compartment.setCause (some code))).compartment i).index
      < 12 := by rw [hcompartment]; exact he
  have hcode : (((Machine.dropCapture i t).updateCompartment i (Compartment.setCause (some code))).compartment i).cause
      = some code := by rw [hcompartment]
  unfold Machine.endUnopened Machine.unopenedRecorded
  rw [h.forMembers ht]
  generalize (Machine.dropCapture i t).updateCompartment i (Compartment.setCause (some code)) = u at *
  have htwin : u.isTwin i = false := hdropped.isTwin.trans ht
  have hfinal : u.finalOf i = 0 := by
    unfold State.finalOf
    rw [hopened, if_neg Bool.false_ne_true]
  rw [finishCompartment_marked htwin hcurrent hindex k (fun e => by rw [hopened] at e; cases e) hmark'
    (by rw [hcode]; exact fun e => hc (Option.some.inj e)), compartmentEnded_eq htwin hcurrent hindex, hopened,
    if_neg Bool.false_ne_true]
  unfold State.finalRecorded
  rw [hfinal, compartmentCode_cause hmark' hcode]

/-- R131: a release request to a spout that is being raised. -/
theorem releaseRequest_raising (h : Becomes i w p q s t) (k : Reaction) (hp : p.positioner.position = .raising) :
    Becomes i w (p.onPositioner fun x => { x with engageWaiting := false }) q s (Machine.releaseRequest k i t) := by
  have hposition : (t.positioner i).position = .raising := (congrArg (fun x => x.position) h.positioner).trans hp
  unfold Machine.releaseRequest
  rw [hposition]
  exact h.updatePositioner _

end Becomes

/-! ## A spout on its way up -/

/-- R124, R133: a positioner that is being raised. -/
structure Positioner.Rising (time : Nat) (x : Positioner) : Prop where
  position : x.position = .raising
  drive : x.drive = .raise
  travel : x.travel = some time

/-- R131: the spout can be raised, or is being raised, and is not at its upper switch. -/
structure Spout.WillRise (p : Spout) : Prop where
  position : p.positioner.position = .engaged ∨ p.positioner.position = .lowering ∨ p.positioner.Rising p.travelTime
  below : p.field.spoutRaised.taken = false

theorem Becomes.rising {i : SpoutId} {w : Option SlotId} {p : Spout} {q : Port} {s t : State} (h : Becomes i w p q s t)
    (hr : p.positioner.Rising p.travelTime) : t.isRaising i := h.isRaising hr.position hr.drive hr.travel

theorem Spout.travelTime_enterReleasing (settled : Bool) (p : Spout) : (p.enterReleasing settled).travelTime = p.travelTime := by
  unfold Spout.travelTime Spout.enterReleasing Spout.settleCapture
  split <;> rfl

/-- R39 step 5, R131: the release raises the spout, or finds it on its way up. -/
theorem Becomes.startRelease_rises {i : SpoutId} {w : Option SlotId} {p : Spout} {q : Port} {s t : State} (h : Becomes i w p q s t)
    (k : Reaction) (ht : p.context.order.twin = false) (settled : Bool) (hp : p.WillRise) :
    ∃ f, Becomes i w ((p.enterReleasing settled).onPositioner f) q s (Machine.startRelease k i settled t)
      ∧ (f p.positioner).Rising p.travelTime := by
  have hposition : (p.enterReleasing settled).positioner = p.positioner := Spout.settleCapture_positioner ..
  let raised : Positioner → Positioner := fun x =>
    { x with drive := .raise, travel := some (p.enterReleasing settled).travelTime, position := .raising }
  obtain he | hl | hr := hp.position
  · exact ⟨raised, h.startRelease k ht settled (.inl he) hp.below, rfl, rfl, congrArg some (Spout.travelTime_enterReleasing ..)⟩
  · exact ⟨raised, h.startRelease k ht settled (.inr hl) hp.below, rfl, rfl, congrArg some (Spout.travelTime_enterReleasing ..)⟩
  · refine ⟨fun x => { x with engageWaiting := false }, h.startRelease_of k ht settled (by rw [hr.position]; decide)
      (by rw [show _ = Position.raising from hr.position]; decide)
      ((h.enterReleasing ht settled).releaseRequest_raising k (by rw [hposition]; exact hr.position)), hr.position, hr.drive, hr.travel⟩

/-! ## A compartment that ends before its opening, and the release that follows -/

/-- R26, R28, R104: what that end leaves; `ready` is INDEX_READY as it is taken then (R105). -/
structure State.EndsUnopened (i : SpoutId) (n : SlotId) (code : Code) (ready : Bool) (s t : State) : Prop where
  context : t.context i = { s.context i with
    stage := .releasing
    compartment := { s.compartment i with cause := some code, releasedAnswered := false }
    order := { s.order i with mark := (s.order i).mark.strongest code.mark, watch := if ready then .awaitDrop else .awaitRise } }
  raising : t.isRaising i
  calibration : t.calibration i = (s.calibration i).dropCapture
  channel : t.channel i = { s.channel i with integrating := false }
  shows : t.entryShows n (s.compartment i).index code.value (((s.compartment i).secondary.map Code.value).getD 0)
    ((s.compartment i).trimsUsed % 256) 0
  slots : ∀ m ≠ n, SameSlot m s t
  bytes : ∀ k < 256, ¬ (0x18 ≤ k ∧ k < 0x20)
    → ¬ (0x45 + 16 * (s.compartment i).index ≤ k ∧ k < 0x48 + 16 * (s.compartment i).index)
    → ¬ (0x4C + 16 * (s.compartment i).index ≤ k ∧ k < 0x50 + 16 * (s.compartment i).index) → t.slotU8 n k = s.slotU8 n k
  raised : t.present i .spoutRaised = false
  others : SameOtherSpouts i s t
  tables : SameTables s t

/-- The slot of a compartment that has ended before its opening. -/
theorem entryShows_unopenedRecorded {i : SpoutId} {n : SlotId} {p : Spout} {q : Port} {s t : State}
    (h : Becomes i none p q s t) (hm : s.memory.wf = true) (hslot : p.context.slot = some n) (code : Code) :
    (unopenedRecorded i code t).entryShows n p.context.compartment.index code.value
      ((p.context.compartment.secondary.map Code.value).getD 0) (p.context.compartment.trimsUsed % 256) 0 := by
  have hended := (h.dropCapture.updateCompartment (Compartment.setCause (some code))).endIntegration
  have hshows := entryShows_recordedAs (hended.wf hm) ((congrArg (fun c => c.slot) hended.context).trans hslot) code 0
  have hcause : p.context.compartment.setCause (some code)
      = { p.context.compartment with cause := some (p.context.compartment.cause.getD code) } := Compartment.setCause_some ..
  rw [hended.compartment] at hshows
  rw [show (p.dropCapture.onCompartment (Compartment.setCause (some code))).frozen.context.compartment
    = p.context.compartment.setCause (some code) from rfl, hcause] at hshows
  exact hshows

theorem slotU8_unopenedRecorded {i : SpoutId} {n : SlotId} {p : Spout} {q : Port} {s t : State} (h : Becomes i none p q s t)
    (hslot : p.context.slot = some n) (code : Code) {k : Nat} (hk : k < 256) (hp : ¬ (0x18 ≤ k ∧ k < 0x20))
    (hc : ¬ (0x45 + 16 * p.context.compartment.index ≤ k ∧ k < 0x48 + 16 * p.context.compartment.index))
    (hf : ¬ (0x4C + 16 * p.context.compartment.index ≤ k ∧ k < 0x50 + 16 * p.context.compartment.index)) :
    (unopenedRecorded i code t).slotU8 n k = s.slotU8 n k := by
  have hended := (h.dropCapture.updateCompartment (Compartment.setCause (some code))).endIntegration
  have hindex : ((endIntegration i ((dropCapture i t).updateCompartment i (Compartment.setCause (some code)))).compartment i).index
      = p.context.compartment.index := by
    rw [hended.compartment]
    show (p.context.compartment.setCause (some code)).index = _
    rw [Compartment.setCause_some]
  exact (slotU8_recordedAs ((congrArg (fun c => c.slot) hended.context).trans hslot) code 0 hp (by rw [hindex]; exact hc)
    (by rw [hindex]; exact hf)).trans ((hended.slots n (by simp)).slotU8 hk)

/-- R28: the end of a compartment before its opening, on a spout that can be raised. -/
theorem endsUnopened {k : Reaction} {i : SpoutId} {n : SlotId} {p : Spout} {q : Port} {s t : State} {code : Code} (hm : s.memory.wf = true)
    (h : Becomes i none p q s t) (hcontext : p.context = s.context i) (hcalibration : p.calibration = s.calibration i)
    (hchannel : p.channel = s.channel i)
    (hslot : (s.context i).slot = some n) (ht : s.isTwin i = false) (he : (s.compartment i).index < 12)
    (hcause : (s.compartment i).cause = none) (ho : (s.compartment i).opened = false) (hmark : (s.order i).mark ≠ .reset)
    (hc : code ≠ .reset) (hp : p.WillRise) : s.EndsUnopened i n code p.field.indexReady.taken (endUnopened k i code t) := by
  have hslot' : p.context.slot = some n := by rw [hcontext]; exact hslot
  have htwin' : p.context.order.twin = false := by rw [hcontext]; exact ht
  have hcompartment : p.context.compartment = s.compartment i := congrArg (fun c => c.compartment) hcontext
  have horder : p.context.order = s.order i := congrArg (fun c => c.order) hcontext
  have he' : p.context.compartment.index < 12 := by rw [hcompartment]; exact he
  have hset : p.context.compartment.setCause (some code) = { s.compartment i with cause := some code } := by
    rw [Compartment.setCause_some, hcompartment, hcause]; rfl
  have hended : (p.endedUnopened code).context = { s.context i with
      compartment := { s.compartment i with cause := some code }, order := { s.order i with mark := (s.order i).mark.strongest code.mark } } := by
    show { p.context with
      compartment := p.context.compartment.setCause (some code)
      order := { p.context.order with
        total := p.context.order.total + 0, mark := p.context.order.mark.strongest code.mark } } = _
    rw [hset, horder, hcontext, Nat.add_zero]
  have hwatch : (p.endedUnopened code).releaseWatch = if p.field.indexReady.taken then .awaitDrop else .awaitRise := rfl
  have hend := h.widen (some n) |>.endUnopened k hslot' htwin' he' (by rw [hcompartment]; exact hcause)
    (by rw [hcompartment]; exact ho) (by rw [horder]; exact hmark) hc
  have hshows := entryShows_unopenedRecorded h hm hslot' code
  have hbytes {off : Nat} := slotU8_unopenedRecorded (k := off) h hslot' code
  have hv := (h.widen (some n)).unopenedRecorded hslot' he' code
  rw [hcompartment] at hshows hbytes
  rw [hend]
  generalize unopenedRecorded i code t = v at *
  obtain ⟨f, hdone, hrising⟩ := hv.here.startRelease_rises k htwin' false ⟨hp.position, hp.below⟩
  generalize startRelease k i false v = w at *
  have hslots (m : SlotId) : SameSlot m v w := hdone.slots m (by simp)
  exact {
    context := by
      rw [hdone.context]
      show { (p.endedUnopened code).context with
        stage := .releasing
        order := { (p.endedUnopened code).context.order with watch := (p.endedUnopened code).releaseWatch }
        compartment := { (p.endedUnopened code).context.compartment with releasedAnswered := false } } = _
      rw [hended, hwatch]
    raising := hdone.rising hrising
    calibration := (hdone.calibration).trans (congrArg Calibration.dropCapture hcalibration)
    channel := hdone.channel.trans (congrArg Channel.endCompartment hchannel)
    shows := hshows.of_sameSlot he (hslots n)
    slots := fun m hne => (hv.slots m fun e => hne (Option.some.inj e)).trans (hslots m)
    bytes := fun off hk h1 h2 h3 => ((hslots n).slotU8 hk).trans (hbytes hk h1 h2 h3)
    raised := (hdone.present .spoutRaised).trans hp.below
    others := fun j hj => (hdone.others j hj).trans (hv.others j hj)
    tables := hv.tables.trans hdone.tables }

end Sys2Proof.Machine

/-! The commands that end a compartment before its opening (R26, R28, R87, R133): the settled statement. -/

namespace Sys2Proof.Machine

theorem testRaised_eq_self (k : Reaction) {i : SpoutId} {s : State} (h : s.present i .spoutRaised = false) :
    testRaised k i s = s := by
  unfold testRaised; dsimp only
  rw [h, if_neg fun c => Bool.false_ne_true c.2]

section Commands

variable {i : SpoutId} {s : State}

/-- R28, R44: INDEX_READY taken absent before the opening. -/
theorem exec_indexAbsent (hd : s.changeDue i .indexReady false) (hs : s.stage i = .engaging ∨ s.stage i = .zeroing) :
    exec (.debounceExpiry i .indexReady) s = .next (endUnopened react i .vehicleMoved
      (updateLine i .indexReady (fun l => { l with taken := false, timer := none }) s)) := by
  have htaken : (updateLine i .indexReady (fun l => { l with taken := false, timer := none }) s).stage i = s.stage i :=
    ((Becomes.refl i none s).taking .indexReady false).stage
  rw [exec_debounceExpiry hd]
  unfold takeChange deliverChange; dsimp only
  unfold indexChange
  rw [htaken]
  obtain e | e := hs <;> (rw [e]; dsimp only; rw [if_neg Bool.false_ne_true])

/-- R28, R43: a seat lost in ZEROING, but for the test of the raise. -/
theorem exec_seatLost_zeroing (hd : s.changeDue i .spoutLowered false) (hs : s.stage i = .zeroing)
    (hp : (s.positioner i).position = .engaged) :
    exec (.debounceExpiry i .spoutLowered) s = .next (testRaised react i (endUnopened react i .seatLost
      (beginRaise i (updateLine i .spoutLowered (fun l => { l with taken := false, timer := none }) s)))) := by
  have htaken := (Becomes.refl i none s).taking .spoutLowered false
  have hraise := htaken.beginRaise
  have hposition : ((updateLine i .spoutLowered (fun l => { l with taken := false, timer := none }) s).positioner i).position
      = .engaged := (congrArg Positioner.position htaken.positioner).trans hp
  have hstage : (beginRaise i (updateLine i .spoutLowered (fun l => { l with taken := false, timer := none }) s)).stage i
      = .zeroing := hraise.stage.trans hs
  rw [exec_debounceExpiry hd]
  unfold takeChange deliverChange spoutLoweredChange; dsimp only
  rw [hposition]; dsimp only
  rw [if_neg Bool.false_ne_true]
  unfold loseSeat seatLoss; dsimp only
  rw [ownerOf_self (by rw [hstage]; decide), if_pos hstage]

/-- R87, R91: the long capture before the opening fails. -/
theorem exec_zeroTimeout_zeroing (ht : (s.calibration i).zeroTimeout.isSome = true) (hs : s.stage i = .zeroing) :
    exec (.zeroTimeoutExpiry i) s = .next (endUnopened react i .zeroUnstable s) := by
  refine congrArg Host.Outcome.next ((if_pos ht).trans ?_)
  unfold failLongCapture
  rw [if_neg (by rw [hs]; decide), ownerOf_self (by rw [hs]; decide)]

end Commands

/-- Each of the three commands ends the compartment with its code. -/
theorem exec_endsUnopened {c : Instr} {i : SpoutId} {n : SlotId} {code : Code} {s : State} (hm : s.memory.wf = true)
    (ht : s.isTwin i = false) (hslot : (s.context i).slot = some n) (he : (s.compartment i).index < 12)
    (hcause : (s.compartment i).cause = none) (ho : (s.compartment i).opened = false) (hmark : (s.order i).mark ≠ .reset)
    (hr : s.willRaise i)
    (hc : (c = .debounceExpiry i .indexReady ∧ code = .vehicleMoved ∧ s.changeDue i .indexReady false
         ∧ (s.stage i = .engaging ∨ s.stage i = .zeroing))
       ∨ (c = .debounceExpiry i .spoutLowered ∧ code = .seatLost ∧ s.changeDue i .spoutLowered false ∧ s.stage i = .zeroing
         ∧ (s.positioner i).position = .engaged)
       ∨ (c = .zeroTimeoutExpiry i ∧ code = .zeroUnstable ∧ s.stage i = .zeroing ∧ (s.calibration i).zeroTimeout.isSome = true)) :
    ∃ ready t, exec c s = .next t ∧ s.EndsUnopened i n code ready t := by
  obtain ⟨hposition, hbelow⟩ := hr
  obtain ⟨rfl, rfl, hd, hs⟩ | ⟨rfl, rfl, hd, hs, hengaged⟩ | ⟨rfl, rfl, hs, htimeout⟩ := hc
  · have htaken := (Becomes.refl i none s).taking .indexReady false
    exact ⟨_, _, exec_indexAbsent hd hs, endsUnopened hm htaken rfl rfl rfl hslot ht he hcause ho hmark (by decide)
      ⟨hposition.imp_right .inl, hbelow⟩⟩
  · have hraise := ((Becomes.refl i none s).taking .spoutLowered false).beginRaise
    have hends := endsUnopened hm hraise rfl rfl rfl hslot ht he hcause ho hmark (k := react) (code := .seatLost)
      (by decide)
      ⟨.inr (.inr ⟨rfl, rfl, rfl⟩), hbelow⟩
    have hexec := exec_seatLost_zeroing hd hs hengaged
    rw [testRaised_eq_self react hends.raised] at hexec
    exact ⟨_, _, hexec, hends⟩
  · exact ⟨_, _, exec_zeroTimeout_zeroing htimeout hs, endsUnopened hm (.refl i none s) rfl rfl rfl hslot ht he hcause ho hmark
      (by decide) ⟨hposition.imp_right .inl, hbelow⟩⟩

/-! ## A travel that ends in a fault before the opening (R26, R133, R134) -/

namespace Becomes

variable {i : SpoutId} {w : Option SlotId} {p : Spout} {q : Port} {s t : State}

/-- R134: the entry into FAULTED of a spout with nothing queued. -/
theorem enterFault (h : Becomes i w p q s t) (cause : FaultCause) (hf : p.positioner.position ≠ .faulted) (hq : p.queue = []) :
    Becomes i w (p.faulted cause) { q with spoutChange := true } s (enterFault i cause t) := by
  have hnot : t.isFaulted i = false := h.isFaulted.trans (beq_eq_false_iff_ne.2 hf)
  have hposition := h.updatePosition (Positioner.enterFault cause)
  have hqueue : (Machine.updatePosition i (Positioner.enterFault cause) t).queue i = [] := hposition.queue.trans hq
  have hempty : ({ p.onPositioner (Positioner.enterFault cause) with queue := [] } : Spout)
      = p.onPositioner (Positioner.enterFault cause) := by
    rw [← show (p.onPositioner (Positioner.enterFault cause)).queue = [] from hq]
  have hreturned : Becomes i w (p.onPositioner (Positioner.enterFault cause)) q s
      (returnQueue i (Machine.updatePosition i (Positioner.enterFault cause) t)) := by
    unfold returnQueue; split
    · exact hposition
    · have hset := hposition.setQueue []
      rw [hempty] at hset
      rw [hqueue]
      exact hset
  unfold Machine.enterFault
  rw [hnot, if_neg Bool.false_ne_true]
  exact hreturned.dropCapture.updatePort fun q => { q with spoutChange := true }

end Becomes

theorem withdrawClaimOn_unclaimed (k : Reaction) {i : SpoutId} {s : State} (h : (s.context i).claim = none) :
    withdrawClaimOn k i s = s := by
  unfold withdrawClaimOn
  rw [h]

/-- R133: the travel timer of a travel expires. -/
theorem exec_travelTimerExpiry {i : SpoutId} {s : State} (ht : (s.positioner i).travel.isSome = true)
    (hp : (s.positioner i).position = .lowering ∨ (s.positioner i).position = .raising) :
    exec (.travelTimerExpiry i) s = .next (spoutFault react i .travelFault s) := congrArg Host.Outcome.next (if_pos ⟨ht, hp⟩)

/-- R26, R134: a spout with nothing queued and no claim on it faults before its opening. -/
theorem spoutFault_unopened {i : SpoutId} {n : SlotId} {s : State} {cause : FaultCause} (hm : s.memory.wf = true)
    (hi : s.single i) (hslot : (s.context i).slot = some n) (he : (s.compartment i).index < 12) (hc : (s.order i).count ≤ 12)
    (hcause : (s.compartment i).cause = none) (ho : (s.compartment i).opened = false) (hmark : (s.order i).mark ≠ .reset)
    (hs : s.stage i = .engaging) (hf : (s.positioner i).position ≠ .faulted) (hq : s.queue i = [])
    (hclaim : (s.context i).claim = none) (hcode : cause.code ≠ .reset) :
    spoutFault react i cause s = orderClosed i n (unopenedRecorded i cause.code (markOrder i .spoutFault (enterFault i cause s)))
      ∧ Becomes i none (((s.spout i).faulted cause).marked .spoutFault) { s.port with spoutChange := true } s
        (markOrder i .spoutFault (enterFault i cause s)) := by
  have hfault := (Becomes.refl i none s).enterFault cause hf hq
  have hmarked := hfault.markOrder .spoutFault
  have hstrong : (s.order i).mark.strongest .spoutFault = .spoutFault := EndMark.strongest_spoutFault hmark
  have hmark' : (((s.spout i).faulted cause).marked .spoutFault).context.order.mark = .spoutFault := hstrong
  refine ⟨?_, hmarked⟩
  have hstage : (enterFault i cause s).stage i = .engaging := hfault.stage.trans hs
  have howner : (enterFault i cause s).ownerOf i = i := ownerOf_self (by rw [hstage]; decide)
  have hv := (hmarked.widen (some n)).unopenedRecorded hslot he cause.code
  have hend := (hmarked.widen (some n)).endUnopened react hslot hi.1 he hcause ho (by rw [hmark']; decide) hcode
  unfold spoutFault
  rw [withdrawClaimOn_unclaimed react ((congrArg (fun c => c.claim) hfault.context).trans hclaim)]
  unfold contextFaulted; dsimp only
  rw [howner, hstage]; dsimp only
  rw [hend]
  generalize unopenedRecorded i cause.code (markOrder i .spoutFault (enterFault i cause s)) = v at *
  have hfinal : (v.order i).mark ≠ .reset := by
    rw [hv.order]
    show ((s.order i).mark.strongest .spoutFault).strongest cause.code.mark ≠ .reset
    rw [hstrong]
    exact EndMark.strongest_ne_reset (by decide) (Code.mark_ne_reset hcode)
  have hconclude : startRelease react i false v = concludeOrder react i v := by
    unfold startRelease
    rw [hv.isFaulted, hv.isTwin.trans hi.1]; rfl
  rw [hconclude]
  refine (if_neg hfinal).trans (endOrder_unserved (hv.wf hm) ((congrArg (fun c => c.slot) hv.context).trans hslot)
    (hv.isTwin.trans hi.1) (by rw [hv.order]; exact hc) ((congrArg (fun c => c.claim) hv.context).trans hclaim) (hv.queue.trans hq))

/-- Settles O34: `exec_endsUnopened` for a spout that can be raised, `spoutFault_unopened` for one that faults. -/
theorem compartmentEndsBeforeItsOpening : Obligations.CompartmentEndsBeforeItsOpening := by
  unfold Obligations.CompartmentEndsBeforeItsOpening
  refine ⟨fun c i n code s hm hi hslot he hcause hsecondary ho htrims hmark hr _ hc => ?_,
    fun i n s hm hi hslot he hcount hcause ho hmark hs hp htravel hq hclaim => ?_⟩
  · obtain ⟨x, rfl, hended, hx⟩ : ∃ x : Code, x.value = code ∧ x.mark = .ended
        ∧ ((c = .debounceExpiry i .indexReady ∧ x = .vehicleMoved ∧ s.changeDue i .indexReady false
            ∧ (s.stage i = .engaging ∨ s.stage i = .zeroing))
          ∨ (c = .debounceExpiry i .spoutLowered ∧ x = .seatLost ∧ s.changeDue i .spoutLowered false ∧ s.stage i = .zeroing
            ∧ (s.positioner i).position = .engaged)
          ∨ (c = .zeroTimeoutExpiry i ∧ x = .zeroUnstable ∧ s.stage i = .zeroing
            ∧ (s.calibration i).zeroTimeout.isSome = true)) := by
      obtain ⟨rfl, rfl, h⟩ | ⟨rfl, rfl, h⟩ | ⟨rfl, rfl, h⟩ := hc
      · exact ⟨.vehicleMoved, rfl, rfl, .inl ⟨rfl, rfl, h⟩⟩
      · exact ⟨.seatLost, rfl, rfl, .inr (.inl ⟨rfl, rfl, h⟩)⟩
      · exact ⟨.zeroUnstable, rfl, rfl, .inr (.inr ⟨rfl, rfl, h⟩)⟩
    obtain ⟨ready, t, hexec, h⟩ := exec_endsUnopened hm hi.1 hslot he hcause ho (by rw [hmark]; decide) hr hx
    have hshows := h.shows
    rw [hsecondary, htrims] at hshows
    have hcontext := h.context
    rw [hmark, EndMark.strongest_none, hended] at hcontext
    exact ⟨t, hexec, (congrArg (fun y => y.stage) hcontext :), h.raising, (congrArg (fun y => y.capture) h.calibration :),
      (congrArg (fun y => y.zeroTimeout) h.calibration :), hshows, (congrArg (fun y => y.order.mark) hcontext :),
      (congrArg (fun y => y.order.total) hcontext :), (congrArg (fun y => y.gate) hcontext :), h.channel, h.others, h.tables⟩
  · obtain ⟨hfault, hmarked⟩ := spoutFault_unopened (n := n) (cause := .travelFault) hm hi hslot (by omega) hcount hcause ho
      (by rw [hmark]; decide) hs (by rw [hp]; decide) hq hclaim (by decide)
    have hshows := entryShows_unopenedRecorded hmarked hm hslot .travelFault
    have hv := (hmarked.widen (some n)).unopenedRecorded hslot (show (s.compartment i).index < 12 by omega) .travelFault
    have hexec := (exec_travelTimerExpiry htravel (.inl hp)).trans (congrArg Host.Outcome.next hfault)
    have hclosed := slotClosed_orderClosed (n := n) (i := i) (hv.wf hm) (by rw [hv.order]; exact hcount)
    have hdone := hv.orderClosed hm hcount
    have hfinal : ((((s.spout i).faulted .travelFault).marked .spoutFault).endedUnopened .travelFault).context.order.mark
        = .spoutFault := by
      show ((s.order i).mark.strongest .spoutFault).strongest Code.travelFault.mark = .spoutFault
      rw [hmark]; rfl
    rw [hv.order, hfinal] at hclosed
    have hended := hclosed.entryShows he hcount (by decide) hshows
    exact ⟨_, hexec, hdone.atRest, hdone.isFaulted, (congrArg (fun x => x.cause) hdone.positioner :), hended.1, hended.2.2.2,
      hclosed.slotState, hclosed.result, hdone.gate, hdone.others, hdone.tables⟩

end Sys2Proof.Machine

/-! The opening of a compartment on a spout that works by itself (R26, R27, R29, R91). -/

namespace Sys2Proof.Machine

/-! ## What the opening makes of the spout -/

namespace Spout

/-- R27 step 1: the compartment's fields are cleared. -/
def cleared (p : Spout) : Spout := p.onContext fun c => { c with
  closeRecord := none
  compartment := { index := c.compartment.index, effectiveTarget := c.compartment.effectiveTarget } }

/-- R27 step 5: the output that opens the gate. -/
def openOutput (p : Spout) : GateOutput :=
  if p.context.order.fineBand < p.context.compartment.effectiveTarget then .openFull else .openFine

/-- R27 steps 4 and 5: the compartment opens. -/
def opens (p : Spout) : Spout :=
  (((p.onCompartment fun c => { c with opened := true }).onChannel Channel.startCompartment).onGate
    (GateUnit.feed p.openOutput p.calibration.profile.gateOpenTime)).onStage .opening

/-- R29: OPEN_FULL is verified at once where GATE_OPEN is present. -/
def opened (p : Spout) : Spout :=
  if p.openOutput = .openFull ∧ p.field.gateOpen.taken = true then p.opens.verified.onStage .coarse else p.opens

/-- R27: the compartment whose GATE_CLOSED check fails. -/
def closesUnopened (p : Spout) : Spout :=
  (((p.onGate (GateUnit.cut p.closeTime)).onCompartment fun c => { c with closeAwaited := true }).onCompartment
    fun c => { c.setCause (some .noOpen) with noSettle := true }).onStage .closing

/-- R27 step 3: PERMIT and GATE_CLOSED are present, and LEVEL_HIGH is absent. -/
structure MayOpen (p : Spout) : Prop where
  permit : p.field.permit.taken = true
  level : p.field.levelHigh.taken = false
  closed : p.field.gateClosed.taken = true

theorem opens_isOpen (p : Spout) : p.opens.context.gate.isOpen = true := by
  show (GateUnit.feed p.openOutput _ _).isOpen = true
  unfold openOutput; split <;> rfl

theorem opens_output (p : Spout) : p.opens.context.gate.output = p.openOutput := rfl

/-- What the verification leaves as the opening made it. -/
theorem opened_cases (p : Spout) : p.opened = p.opens ∨ p.opened = p.opens.verified.onStage .coarse := by
  unfold opened; split
  · exact .inr rfl
  · exact .inl rfl

end Spout

@[simp] theorem setMemberPhase_self (i : SpoutId) (x : Phase) (s : State) : setMemberPhase i i x s = s := if_pos rfl

namespace Becomes

variable {i : SpoutId} {w : Option SlotId} {n : SlotId} {p : Spout} {q : Port} {s t : State}

/-- R27 step 1: the effective target is written and the fields cleared. -/
theorem clearCompartment (h : Becomes i (some n) p q s t) (ht : p.context.order.twin = false) (hslot : p.context.slot = some n)
    (he : p.context.compartment.index < 12) : Becomes i (some n) p.cleared q s (clearCompartment i t) := by
  have hcurrent : (t.context i).slot = some n := (congrArg (fun c => c.slot) h.context).trans hslot
  have hcompartment : t.compartment i = p.context.compartment := h.compartment
  have hwritten := h.writeEffectiveTarget he p.context.compartment.effectiveTarget
  unfold Machine.clearCompartment; dsimp only
  rw [hcurrent]; dsimp only
  rw [hcompartment, hwritten.forMembers ht]
  simp only [if_true]
  exact hwritten.updateContext fun c => { c with
    closeRecord := none
    compartment := { index := p.context.compartment.index, effectiveTarget := p.context.compartment.effectiveTarget } }

/-- R29: the verification of the opening of a spout that works by itself. -/
theorem verifyOpening_opening (h : Becomes i w p q s t) (ht : p.context.order.twin = false) (hs : p.context.stage = .opening) :
    Becomes i w (p.verified.onStage (if p.context.gate.output = .openFull then .coarse else .fine)) q s (Machine.verifyOpening i t) := by
  have hverified := (h.updateGate (GateUnit.verify p.calibration.profile.starveWindow)).updateCompartment
    fun c => { c with starveCount := 0 }
  have hgate : ((t.updateGate i (GateUnit.verify p.calibration.profile.starveWindow)).updateCompartment i
      fun c => { c with starveCount := 0 }).gate i = GateUnit.verify p.calibration.profile.starveWindow p.context.gate := hverified.gate
  unfold Machine.verifyOpening; dsimp only
  rw [h.ownerOf (by rw [hs]; decide), h.profile]
  rw [setMemberPhase_self]
  generalize (t.updateGate i _).updateCompartment i _ = u at *
  have hall : (u.members i).all (fun m => (u.gate m).opening.isNone) = true := by
    rw [members_single (hverified.isTwin.trans ht), List.all_cons, hgate]; rfl
  have hopening := And.intro (hverified.stage.trans hs) hall
  rw [if_pos hopening, hgate]
  exact hverified.setStage _

/-- R27 steps 4 and 5. -/
theorem openCompartment (h : Becomes i w p q s t) (ht : p.context.order.twin = false) :
    Becomes i w p.opened q s (Machine.openCompartment i t) := by
  have hopened := h.updateCompartment fun c => { c with opened := true }
  have hintegrates := hopened.updateChannel Channel.startCompartment
  have hfed := hintegrates.updateGate (GateUnit.feed p.openOutput p.calibration.profile.gateOpenTime)
  have hopens : Becomes i w p.opens q s _ := hfed.setStage .opening
  have hprofile : (startIntegration i (t.updateCompartment i fun c => { c with opened := true })).profile i
      = p.calibration.profile := hintegrates.profile
  have houtput : (if (t.order i).fineBand < (t.compartment i).effectiveTarget then GateOutput.openFull else .openFine)
      = p.openOutput := by
    rw [h.order, h.compartment]; rfl
  unfold Machine.openCompartment; dsimp only
  rw [houtput, hopened.forMembers ht]
  unfold openGate
  rw [setMemberPhase_self, hprofile]
  rw [show startIntegration i (t.updateCompartment i fun c => { c with opened := true })
    = (t.updateCompartment i fun c => { c with opened := true }).updateChannel i Channel.startCompartment from rfl,
    hopens.forMembers ht, hopens.gate, show _ = p.field.gateOpen.taken from hopens.present .gateOpen, Spout.opens_output]
  unfold Spout.opened
  split
  · next hfull =>
    have hverified := hopens.verifyOpening_opening ht rfl
    rw [Spout.opens_output, if_pos hfull.1] at hverified
    exact hverified
  · exact hopens

/-- R27: the GATE_CLOSED check fails. -/
theorem closeUnopened (h : Becomes i w p q s t) (ht : p.context.order.twin = false) (hc : p.field.gateClosed.taken = false) :
    Becomes i w p.closesUnopened q s (Machine.closeUnopened i t) := by
  have hcut := (h.updateGate (GateUnit.cut p.closeTime)).updateCompartment fun c => { c with closeAwaited := true }
  have hpresent : t.present i .gateClosed = false := (h.present .gateClosed).trans hc
  unfold Machine.closeUnopened
  rw [h.forMembers ht, hpresent, if_neg Bool.false_ne_true]
  unfold cutGate setCloseAwaited
  rw [setMemberPhase_self, h.closeTime]
  exact (hcut.updateCompartment fun c => { c.setCause (some .noOpen) with noSettle := true }).setStage .closing

end Becomes

end Sys2Proof.Machine

/-! The compartment start (R27, R55, R56, R91): ENGAGED reported, and the blocking capture done. -/

namespace Sys2Proof.Machine

/-! ## The checks before the opening -/

/-- R27 step 3: the code of the first opening condition, GATE_CLOSED apart, that a spout working by itself fails. -/
def Spout.openingFailure (p : Spout) : Option Code :=
  if p.field.permit.taken = false then some .permitLost
  else if p.field.indexReady.taken = false then some .vehicleMoved
  else if p.field.levelHigh.taken = true then some .level
  else if p.positioner.position ≠ .engaged then some .seatLost
  else none

theorem Spout.openingFailure_ne_reset {p : Spout} {code : Code} (h : p.openingFailure = some code) : code ≠ .reset := by
  rintro rfl
  unfold Spout.openingFailure at h
  split_ifs at h <;> cases h

namespace Becomes

variable {i : SpoutId} {w : Option SlotId} {n : SlotId} {p : Spout} {q : Port} {s t : State}

theorem checkOpening_eq (h : Becomes i w p q s t) (k : Reaction) (ht : p.context.order.twin = false) :
    checkOpening k i t = match p.openingFailure with
      | some code => Machine.endUnopened k i code t
      | none => if p.field.gateClosed.taken = false then Machine.closeUnopened i t else Machine.openCompartment i t := by
  have hmembers : t.members i = [i] := members_single (h.isTwin.trans ht)
  have hpermit : t.present i .permit = p.field.permit.taken := h.present .permit
  have hready : t.present i .indexReady = p.field.indexReady.taken := h.present .indexReady
  have hlevel : t.present i .levelHigh = p.field.levelHigh.taken := h.present .levelHigh
  have hclosed : t.present i .gateClosed = p.field.gateClosed.taken := h.present .gateClosed
  unfold checkOpening Spout.openingFailure
  simp only [hmembers, List.all_cons, List.all_nil, List.any_cons, List.any_nil, Bool.and_true, Bool.or_false, hpermit, hready,
    hlevel, hclosed, h.positioner, beq_iff_eq, Bool.not_eq_true]
  by_cases hp : p.field.permit.taken = false
  · rw [if_pos hp, if_pos hp]
  by_cases hi : p.field.indexReady.taken = false
  · rw [if_neg hp, if_neg hp, if_pos hi, if_pos hi]
  by_cases hl : p.field.levelHigh.taken = true
  · rw [if_neg hp, if_neg hp, if_neg hi, if_neg hi, if_pos hl, if_pos hl]
  by_cases he : p.positioner.position ≠ .engaged
  · rw [if_neg hp, if_neg hp, if_neg hi, if_neg hi, if_neg hl, if_neg hl, if_pos he, if_pos he]
  rw [if_neg hp, if_neg hp, if_neg hi, if_neg hi, if_neg hl, if_neg hl, if_neg he, if_neg he]

/-- R27, R91: the start of a compartment whose spout owes no zeroing. -/
theorem startCompartment_eq (h : Becomes i (some n) p q s t) (k : Reaction) (ht : p.context.order.twin = false)
    (hslot : p.context.slot = some n) (he : p.context.compartment.index < 12) (hd : p.calibration.debt ≠ 8) :
    startCompartment k i t = checkOpening k i (Machine.clearCompartment i t) := by
  have hcleared := h.clearCompartment ht hslot he
  have hdebt : ((Machine.clearCompartment i t).calibration i).debt ≠ Config.fullDebt := by rw [hcleared.calibration]; exact hd
  unfold startCompartment; dsimp only
  rw [members_single (hcleared.isTwin.trans ht), List.filter_cons_of_neg (by simpa using hdebt), List.filter_nil, if_pos rfl]

/-- R91: the start of a compartment whose spout owes a zeroing. -/
theorem startCompartment_zeroing (h : Becomes i (some n) p q s t) (k : Reaction) (ht : p.context.order.twin = false)
    (hslot : p.context.slot = some n) (he : p.context.compartment.index < 12) (hd : p.calibration.debt = 8) :
    Becomes i none ((p.cleared.onStage .zeroing).startCapture .longBlocking) q (Machine.clearCompartment i t)
      (startCompartment k i t) := by
  have hcleared := (h.clearCompartment ht hslot he).here
  have hdebt : ((Machine.clearCompartment i t).calibration i).debt = Config.fullDebt := by rw [hcleared.calibration]; exact hd
  unfold startCompartment; dsimp only
  rw [members_single (hcleared.isTwin.trans ht), List.filter_cons_of_pos (by simpa using hdebt), List.filter_nil,
    if_neg (List.cons_ne_nil _ _), List.foldl_cons, List.foldl_nil, setMemberPhase_self]
  exact (hcleared.setStage .zeroing).startCapture .longBlocking

end Becomes

/-! ## ENGAGED reported -/

/-- R55, R129: what the report of ENGAGED has left of the spout, which starts its compartment. -/
structure Spout.Engages (p p' : Spout) : Prop where
  context : p'.context = { p.context with compartment := { p.context.compartment with engagedReported := true } }
  calibration : p'.calibration = p.calibration
  channel : p'.channel = p.channel
  position : p'.positioner.position = .engaged
  raised : p'.field.spoutRaised.taken = false
  permit : p'.field.permit = p.field.permit
  ready : p'.field.indexReady = p.field.indexReady
  level : p'.field.levelHigh = p.field.levelHigh
  gateOpen : p'.field.gateOpen = p.field.gateOpen
  gateClosed : p'.field.gateClosed = p.field.gateClosed

/-- R55, R129: the last switch change of a lowering starts the compartment of a spout that works by itself. -/
theorem exec_reportsEngaged {c : Instr} {i : SpoutId} {s : State} (hc : s.reportsEngaged c i) (hs : s.stage i = .engaging)
    (ht : s.isTwin i = false) :
    ∃ k p u, exec c s = .next (startCompartment k i u) ∧ Becomes i none p s.port s u ∧ (s.spout i).Engages p := by
  obtain ⟨hposition, hcase⟩ := hc
  have htested (m : InputName) (level : Bool) (hlowered : ((s.spout i).taking m level).field.spoutLowered.taken = true)
      (hraised : ((s.spout i).taking m level).field.spoutRaised.taken = false) :
      ∃ k u, testLowered react i (updateLine i m (fun l => { l with taken := level, timer := none }) s) = startCompartment k i u
        ∧ Becomes i none ((((s.spout i).taking m level).onPositioner (Positioner.arrive .engaged)).onCompartment
            fun x => { x with engagedReported := true }) s.port s u := by
    have htaken := (Becomes.refl i none s).taking m level
    have hengaged := htaken.updatePosition (Positioner.arrive .engaged)
    have hreported := hengaged.updateCompartment fun x => { x with engagedReported := true }
    have hall : (((updatePosition i (Positioner.arrive .engaged) (updateLine i m (fun l => { l with taken := level, timer := none })
        s)).updateCompartment i fun x => { x with engagedReported := true }).compartment i).engagedReported = true :=
      congrArg (fun x => x.engagedReported) hreported.compartment
    refine ⟨reactTo 63, _, ?_, hreported⟩
    unfold testLowered
    rw [if_pos ⟨(congrArg (fun x => x.position) htaken.positioner).trans hposition, (htaken.present _).trans hlowered,
      by rw [htaken.present]; exact hraised ▸ Bool.false_ne_true⟩, react_engaged]
    unfold onEngaged; dsimp only
    rw [ownerOf_self (by rw [hengaged.stage.trans hs]; decide), if_pos ⟨hengaged.stage.trans hs, .inl rfl⟩,
      members_single (hreported.isTwin.trans ht), List.all_cons, List.all_nil, Bool.and_true, hall, if_pos rfl]
  have hexec {m : InputName} {level : Bool} (hd : s.changeDue i m level) (hm : m = .spoutLowered ∨ m = .spoutRaised) :
      exec (.debounceExpiry i m) s
        = .next (testLowered react i (updateLine i m (fun l => { l with taken := level, timer := none }) s)) := by
    have hlowering : ((updateLine i m (fun l => { l with taken := level, timer := none }) s).positioner i).position = .lowering :=
      (congrArg (fun x => x.position) ((Becomes.refl i none s).taking m level).positioner).trans hposition
    rw [exec_debounceExpiry hd]
    unfold takeChange deliverChange
    obtain rfl | rfl := hm
    · dsimp only; unfold spoutLoweredChange; rw [hlowering]
    · dsimp only; unfold spoutRaisedChange; rw [hlowering]
  obtain ⟨rfl, hd, hother⟩ | ⟨rfl, hd, hother⟩ := hcase
  · obtain ⟨k, u, htest, hu⟩ := htested .spoutLowered true rfl hother
    exact ⟨k, _, u, (hexec hd (.inl rfl)).trans (congrArg _ htest), hu, rfl, rfl, rfl, rfl, hother, rfl, rfl, rfl, rfl, rfl⟩
  · obtain ⟨k, u, htest, hu⟩ := htested .spoutRaised false hother rfl
    exact ⟨k, _, u, (hexec hd (.inr rfl)).trans (congrArg _ htest), hu, rfl, rfl, rfl, rfl, rfl, rfl, rfl, rfl, rfl, rfl⟩

end Sys2Proof.Machine

/-! ENGAGED starts the compartment (R27, R91): the settled statement. -/

namespace Sys2Proof.Machine

/-! ## The spout once its compartment has opened -/

namespace Spout

theorem opened_coarse {p : Spout} (hfull : p.context.order.fineBand < p.context.compartment.effectiveTarget)
    (hopen : p.field.gateOpen.taken = true) : p.opened = p.opens.verified.onStage .coarse := if_pos ⟨if_pos hfull, hopen⟩

theorem opened_opening {p : Spout}
    (h : ¬ (p.context.order.fineBand < p.context.compartment.effectiveTarget ∧ p.field.gateOpen.taken = true)) :
    p.opened = p.opens := by
  refine if_neg fun c => h ⟨of_not_not fun hfine => ?_, c.2⟩
  have hfull := c.1
  rw [openOutput, if_neg hfine] at hfull
  cases hfull

/-- R5, R17, R27: what the opening leaves of the spout, verified or not. -/
theorem opened_shows (p : Spout) :
    p.opened.context.gate.output = p.openOutput ∧ p.opened.context.gate.close = none ∧ p.opened.context.gate.retry = none
      ∧ p.opened.context.gate.hold = none ∧ p.opened.channel = p.channel.startCompartment
      ∧ p.opened.context.order = p.context.order ∧ p.opened.positioner = p.positioner
      ∧ p.opened.calibration = p.calibration ∧ p.opened.context.slot = p.context.slot := by
  obtain h | h := p.opened_cases <;> (rw [h]; exact ⟨rfl, rfl, rfl, rfl, rfl, rfl, rfl, rfl, rfl⟩)

theorem opened_compartment {p : Spout} (h : p.context.compartment.starveCount = 0) :
    p.opened.context.compartment = { p.context.compartment with opened := true } := by
  obtain e | e := p.opened_cases
  · rw [e]; rfl
  · rw [e]
    show { p.context.compartment with opened := true, starveCount := 0 } = _
    rw [← h]

end Spout

/-! ## The effective target in its entry -/

theorem slotU32_writeEffectiveTarget {s : State} (hm : s.memory.wf = true) (n : SlotId) (e : Nat) {eff : Nat}
    (h : eff < 4294967296) : (writeEffectiveTarget n e eff s).slotU32 n (0x40 + 16 * e + 8) = eff := by
  have hwritten := (State.holds_writeMemory hm (Config.slotBase n + entryOffset e + 8) (u32Bytes eff)).u32_field
  rw [Nat.mod_eq_of_lt h] at hwritten
  unfold State.slotU32
  rw [← Nat.add_assoc]
  exact hwritten

theorem Becomes.slotU32_clearCompartment {i : SpoutId} {n : SlotId} {p : Spout} {q : Port} {s t : State}
    (h : Becomes i none p q s t) (hm : s.memory.wf = true) (ht : p.context.order.twin = false) (hslot : p.context.slot = some n)
    (heff : p.context.compartment.effectiveTarget < 4294967296) :
    (Machine.clearCompartment i t).slotU32 n (0x40 + 16 * p.context.compartment.index + 8)
      = p.context.compartment.effectiveTarget := by
  have hcurrent : (t.context i).slot = some n := (congrArg (fun c => c.slot) h.context).trans hslot
  have htwin : (Machine.writeEffectiveTarget n p.context.compartment.index p.context.compartment.effectiveTarget t).isTwin i = false :=
    h.isTwin.trans ht
  have hcompartment : t.compartment i = p.context.compartment := h.compartment
  unfold Machine.clearCompartment; dsimp only
  rw [hcurrent]; dsimp only
  rw [hcompartment]
  unfold Machine.forMembers
  rw [members_single htwin]
  exact slotU32_writeEffectiveTarget (h.wf hm) _ _ heff

/-! ## The compartment start, by its outcome -/

/-- The spout as the compartment start finds it, its compartment's fields cleared. -/
structure Spout.StartsFrom (n : SlotId) (s p : Spout) : Prop extends s.Engages p where
  slot : s.context.slot = some n
  single : s.context.order.twin = false
  index : s.context.compartment.index < 12
  mark : s.context.order.mark ≠ .reset

section Start

variable {k : Reaction} {i : SpoutId} {n : SlotId} {s u : State} {p : Spout}

theorem Spout.Engages.cleared_context {s p : Spout} (h : s.Engages p) : p.cleared.context = { s.context with
    closeRecord := none
    compartment := { index := s.context.compartment.index, effectiveTarget := s.context.compartment.effectiveTarget } } := by
  show { p.context with
    closeRecord := none
    compartment := { index := p.context.compartment.index, effectiveTarget := p.context.compartment.effectiveTarget } } = _
  rw [h.context]

/-- R28: a start whose opening conditions fail ends the compartment. -/
theorem startCompartment_fails (hm : s.memory.wf = true) (hu : Becomes i none p s.port s u) (hp : (s.spout i).StartsFrom n p)
    (hd : (s.calibration i).debt ≠ 8) {code : Code} (hcode : p.openingFailure = some code) :
    (clearCompartment i u).EndsUnopened i n code p.field.indexReady.taken (startCompartment k i u) := by
  have htwin : p.context.order.twin = false := by rw [hp.context]; exact hp.single
  have hslot : p.context.slot = some n := by rw [hp.context]; exact hp.slot
  have hindex : p.context.compartment.index < 12 := by rw [hp.context]; exact hp.index
  have hmark : p.context.order.mark ≠ .reset := by rw [hp.context]; exact hp.mark
  have hv := (hu.widen (some n)).clearCompartment htwin hslot hindex
  have hstart := (hu.widen (some n)).startCompartment_eq k htwin hslot hindex (by rw [hp.calibration]; exact hd)
  have hcheck := hv.checkOpening_eq k htwin
  rw [show p.cleared.openingFailure = some code from hcode] at hcheck
  rw [hstart, hcheck]
  exact endsUnopened (p := p.cleared) (hv.wf hm) hv.here hv.context.symm hv.calibration.symm hv.channel.symm
    ((congrArg (fun c => c.slot) hv.context).trans hslot) (hv.isTwin.trans htwin) (by rw [hv.compartment]; exact hindex)
    (by rw [hv.compartment]; rfl) (by rw [hv.compartment]; rfl) (by rw [hv.order]; exact hmark)
    (Spout.openingFailure_ne_reset hcode) ⟨.inl hp.position, hp.raised⟩

/-- R27: a start whose opening conditions hold opens the compartment, or closes a gate that is not shut. -/
theorem startCompartment_passes (hu : Becomes i none p s.port s u) (hp : (s.spout i).StartsFrom n p)
    (hd : (s.calibration i).debt ≠ 8) (hcode : p.openingFailure = none) :
    Becomes i none (if p.field.gateClosed.taken = false then p.cleared.closesUnopened else p.cleared.opened) s.port
      (clearCompartment i u) (startCompartment k i u) := by
  have htwin : p.context.order.twin = false := by rw [hp.context]; exact hp.single
  have hslot : p.context.slot = some n := by rw [hp.context]; exact hp.slot
  have hindex : p.context.compartment.index < 12 := by rw [hp.context]; exact hp.index
  have hv := (hu.widen (some n)).clearCompartment htwin hslot hindex
  have hstart := (hu.widen (some n)).startCompartment_eq k htwin hslot hindex (by rw [hp.calibration]; exact hd)
  have hcheck := hv.checkOpening_eq k htwin
  rw [show p.cleared.openingFailure = none from hcode, show p.cleared.field = p.field from rfl] at hcheck
  rw [hstart, hcheck]
  dsimp only
  by_cases hclosed : p.field.gateClosed.taken = false
  · rw [if_pos hclosed, if_pos hclosed]; exact hv.here.closeUnopened htwin hclosed
  · rw [if_neg hclosed, if_neg hclosed]; exact hv.here.openCompartment htwin

/-- R27: what every start leaves, whatever its outcome. -/
structure State.Started (i : SpoutId) (n : SlotId) (s t : State) : Prop where
  target : t.slotU32 n (0x40 + 16 * (s.compartment i).index + 8) = (s.compartment i).effectiveTarget
  slot : (t.context i).slot = some n
  others : SameOtherSpouts i s t
  tables : SameTables s t

theorem startCompartment_started (hm : s.memory.wf = true) (hu : Becomes i none p s.port s u) (hp : (s.spout i).StartsFrom n p)
    (heff : (s.compartment i).effectiveTarget ≤ 65000000) : s.Started i n (startCompartment k i u) := by
  have htwin : p.context.order.twin = false := by rw [hp.context]; exact hp.single
  have hslot : p.context.slot = some n := by rw [hp.context]; exact hp.slot
  have hindex : p.context.compartment.index < 12 := by rw [hp.context]; exact hp.index
  have hv := (hu.widen (some n)).clearCompartment htwin hslot hindex
  have hcompartment : p.context.compartment.index = (s.compartment i).index
      ∧ p.context.compartment.effectiveTarget = (s.compartment i).effectiveTarget := by rw [hp.context]; exact ⟨rfl, rfl⟩
  have htarget := hu.slotU32_clearCompartment hm htwin hslot (by rw [hcompartment.2]; omega)
  rw [hcompartment.1, hcompartment.2] at htarget
  have hentry (j : Nat) (hj : j < 4) : 0x40 + 16 * (s.compartment i).index + 8 + j < 256 := by
    have := hp.index
    show 0x40 + 16 * (s.spout i).context.compartment.index + 8 + j < 256
    omega
  have hbecomes {p' : Spout} {q' : Port} (h : Becomes i none p' q' (clearCompartment i u) (startCompartment k i u))
      (hslot' : p'.context.slot = some n) : s.Started i n (startCompartment k i u) :=
    { target := ((h.slots n (by simp)).slotU32 (hentry 3 (by omega))).trans htarget
      slot := (congrArg (fun c => c.slot) h.context).trans hslot'
      others := fun j hj => (h.others j hj).trans (hv.others j hj)
      tables := hv.tables.trans h.tables }
  by_cases hd : (s.calibration i).debt = 8
  · exact hbecomes ((hu.widen (some n)).startCompartment_zeroing k htwin hslot hindex (by rw [hp.calibration]; exact hd)) hslot
  · cases hcode : p.openingFailure with
    | none =>
      have hpass := startCompartment_passes (k := k) hu hp hd hcode
      refine hbecomes hpass ?_
      split
      · exact hslot
      · rw [p.cleared.opened_shows.2.2.2.2.2.2.2.2]; exact hslot
    | some code =>
      have hfail := startCompartment_fails (k := k) hm hu hp hd hcode
      have hfield : ((clearCompartment i u).compartment i).index = (s.compartment i).index := by
        rw [hv.compartment]; exact hcompartment.1
      exact
        { target := (slotU32_of_bytes fun j hj => hfail.bytes _ (hentry j hj) (by omega) (by rw [hfield]; omega)
            (by rw [hfield]; omega)).trans htarget
          slot := by rw [hfail.context, hv.context]; exact hslot
          others := fun j hj => (hfail.others j hj).trans (hv.others j hj)
          tables := hv.tables.trans hfail.tables }

end Start

end Sys2Proof.Machine

/-! The blocking capture done (R56, R91), and the settled statement about the compartment start. -/

namespace Sys2Proof.Machine

/-! ## The sample that completes the blocking capture -/

/-- A sample in ZEROING moves nothing of the feed. -/
theorem ownSample_zeroing (k : Reaction) {i : SpoutId} {s : State} (hs : s.stage i = .zeroing) (hg : (s.gate i).starve = none) :
    ownSample k i s = s := by
  have hstarve : restartStarve i s = s := by
    rw [restartStarve_eq rfl rfl, hg]
    exact if_neg fun c => Bool.false_ne_true c.1
  unfold ownSample
  rw [hs, if_neg (show ¬ (Stage.zeroing.isOpen && _) = true from Bool.false_ne_true), if_neg fun c => nomatch c.1]
  unfold evaluateFeed
  rw [hstarve, hs]

theorem captureSample_longBlocking {c : Calibration} {raw zero : Int} (hc : c.capture = .longBlocking)
    (hcount : c.captureCount = 1023) (hband : (raw - zero).natAbs ≤ c.profile.zeroBand) :
    c.captureSample raw zero true = ((c.gather raw).completeLong, .longCompleted .longBlocking) := by
  have hlast : (c.gather raw).captureCount = 1024 := congrArg (· + 1) hcount
  have hin : inBand raw zero c.profile.zeroBand true = true := by simpa [inBand] using hband
  unfold Calibration.captureSample; dsimp only
  rw [hc, hin, hlast]; rfl

theorem Becomes.signalZeroLimit {i : SpoutId} {w : Option SlotId} {p : Spout} {q : Port} {s t : State}
    (h : Becomes i w p q s t) (before : Bool) (j : SpoutId) : ∃ q', Becomes i w p q' s (signalZeroLimit before j t) := by
  unfold Machine.signalZeroLimit
  split
  · exact ⟨_, h.updatePort fun q => { q with spoutChange := true }⟩
  · exact ⟨q, h⟩

/-- The spout whose blocking capture a sample has completed. -/
def Spout.zeroed (raw : Int) : Spout → Spout := Spout.onCalibration fun c => (c.gather raw).completeLong

/-- R91: that sample starts step 3 of R27. -/
theorem deliverSample_zeroed (k : Reaction) {i : SpoutId} {x : Sample} {s : State} (hs : s.stage i = .zeroing)
    (ht : s.isTwin i = false) (hcapture : (s.calibration i).capture = .longBlocking)
    (hcount : (s.calibration i).captureCount = 1023)
    (hband : (x.raw - (s.calibration i).zero).natAbs ≤ (s.profile i).zeroBand) (hclosed : s.present i .gateClosed = true)
    (hg : (s.gate i).starve = none) :
    ∃ q u, deliverSample k i x s = checkOpening k i u
      ∧ Becomes i none (((s.spout i).sample x (s.sampleSettings i)).zeroed x.raw) q s u := by
  have hsample := becomes_channelSample i x s
  have hown : ownSample k i (channelSample i x s) = channelSample i x s :=
    ownSample_zeroing k (hsample.stage.trans hs) (by rw [hsample.gate]; exact hg)
  have hbound : (channelSample i x s).isBound i = false := by
    rw [hsample.isBound]
    show (s.stage i == Stage.bound) = false
    rw [hs]; rfl
  have hcalibration : (channelSample i x s).calibration i = s.calibration i := hsample.calibration
  have hpresent : (channelSample i x s).present i .gateClosed = true := (hsample.present .gateClosed).trans hclosed
  obtain ⟨q, hu⟩ := (hsample.updateCalibration fun _ => ((s.calibration i).gather x.raw).completeLong).signalZeroLimit
    (s.calibration i).zeroLimit i
  refine ⟨q, _, ?_, hu⟩
  unfold deliverSample; dsimp only
  rw [hbound, if_neg Bool.false_ne_true, hown, if_neg (by rw [hcapture]; decide)]
  unfold captureSample captureEvent; dsimp only
  rw [hcalibration, hpresent, captureSample_longBlocking hcapture hcount hband]; dsimp only
  generalize signalZeroLimit _ i _ = u at *
  have hstage : u.stage i = .zeroing := hu.stage.trans hs
  have hended : (u.calibration i).capture = .none := congrArg (fun c => c.capture) hu.calibration
  rw [ownerOf_self (by rw [hstage]; decide)]
  unfold zeroingDone
  rw [members_single (hu.isTwin.trans ht), List.all_cons, hended, if_pos ⟨hstage, rfl⟩]

/-! ## The opening conditions as the statement has them -/

theorem openingFailure_of_mayOpen {i : SpoutId} {p : Spout} {s : State} (hmay : s.mayOpen i)
    (hready : s.present i .indexReady = true) (hpermit : p.field.permit = (s.field i).permit)
    (hindex : p.field.indexReady = (s.field i).indexReady) (hlevel : p.field.levelHigh = (s.field i).levelHigh)
    (hposition : p.positioner.position = .engaged) : p.openingFailure = none := by
  have hp : p.field.permit.taken = true := hpermit ▸ hmay.1
  have hi : p.field.indexReady.taken = true := hindex ▸ hready
  have hl : p.field.levelHigh.taken = false := hlevel ▸ hmay.2.1
  unfold Spout.openingFailure
  rw [hp, hi, hl, hposition]; rfl

/-- R28: the code of a failed condition, by the levels taken. -/
theorem openingFailure_of_levels {i : SpoutId} {p : Spout} {s : State} (hpermit : p.field.permit = (s.field i).permit)
    (hindex : p.field.indexReady = (s.field i).indexReady) (hlevel : p.field.levelHigh = (s.field i).levelHigh) :
    (s.present i .permit = false → p.openingFailure = some .permitLost)
      ∧ (s.present i .permit = true → s.present i .indexReady = false → p.openingFailure = some .vehicleMoved)
      ∧ (s.present i .permit = true → s.present i .indexReady = true → s.present i .levelHigh = true →
          p.openingFailure = some .level) := by
  have hp : s.present i .permit = p.field.permit.taken := hpermit ▸ rfl
  have hi : s.present i .indexReady = p.field.indexReady.taken := hindex ▸ rfl
  have hl : s.present i .levelHigh = p.field.levelHigh.taken := hlevel ▸ rfl
  rw [hp, hi, hl]
  unfold Spout.openingFailure
  refine ⟨fun h => if_pos h, fun h h' => ?_, fun h h' h'' => ?_⟩
  · rw [h, h']; rfl
  · rw [h, h', h'']; rfl

/-! ## The settled statement -/

section Reported

variable {k : Reaction} {i : SpoutId} {n : SlotId} {s u : State} {p : Spout}
  (hu : Becomes i none p s.port s u) (hp : (s.spout i).StartsFrom n p)
include hu hp

/-- R27 steps 4 and 5: the opening, where every condition holds. -/
theorem startCompartment_opens (hd : (s.calibration i).debt ≠ 8) (hmay : s.mayOpen i) (hready : s.present i .indexReady = true) :
    let t := startCompartment k i u
    let full := (s.order i).fineBand < (s.compartment i).effectiveTarget
    (t.gate i).output = (if full then .openFull else .openFine)
      ∧ (full → s.present i .gateOpen = true → t.stage i = .coarse ∧ (t.gate i).opening = none
          ∧ (t.gate i).starve = some (s.profile i).starveWindow)
      ∧ (¬ (full ∧ s.present i .gateOpen = true) →
          t.stage i = .opening ∧ (t.gate i).opening = some (s.profile i).gateOpenTime)
      ∧ (t.gate i).close = none ∧ (t.gate i).retry = none ∧ (t.gate i).hold = none ∧ t.integratesAfresh i
      ∧ t.compartment i = { index := (s.compartment i).index, effectiveTarget := (s.compartment i).effectiveTarget, opened := true }
      ∧ t.order i = s.order i ∧ (t.positioner i).position = .engaged := by
  intro t full
  have hclosed : p.field.gateClosed.taken = true := hp.gateClosed ▸ hmay.2.2
  have hdone := startCompartment_passes (k := k) hu hp hd
    (openingFailure_of_mayOpen hmay hready hp.permit hp.ready hp.level hp.position)
  rw [if_neg (by rw [hclosed]; decide)] at hdone
  have ht : t = startCompartment k i u := rfl
  clear_value t
  rw [← ht] at hdone
  have hcontext := hp.cleared_context
  have hprofile : p.calibration.profile = s.profile i := congrArg (fun c => c.profile) hp.calibration
  have hgateOpen : p.cleared.field.gateOpen.taken = s.present i .gateOpen := congrArg (fun l => l.taken) hp.gateOpen
  have hfull : p.cleared.context.order.fineBand < p.cleared.context.compartment.effectiveTarget ↔ full := by rw [hcontext]; rfl
  obtain ⟨houtput, hclose, hretry, hhold, hchannel, horder, hpositioner, -, -⟩ := p.cleared.opened_shows
  have hopenOutput : p.cleared.openOutput = if full then .openFull else .openFine := if_congr hfull rfl rfl
  have hafresh : t.integratesAfresh i := by
    unfold State.integratesAfresh
    rw [hdone.channel, hchannel]; exact ⟨rfl, rfl, rfl, rfl, rfl, rfl⟩
  refine ⟨by rw [hdone.gate, houtput, hopenOutput], fun hf ho => ?_, fun hn => ?_, by rw [hdone.gate, hclose],
    by rw [hdone.gate, hretry], by rw [hdone.gate, hhold], hafresh, ?_, ?_, ?_⟩
  · have hopened := Spout.opened_coarse (hfull.2 hf) (hgateOpen.trans ho)
    rw [hopened] at hdone
    exact ⟨hdone.stage, congrArg (fun g => g.opening) hdone.gate,
      (congrArg (fun g => g.starve) hdone.gate).trans (congrArg (fun v => some v.starveWindow) hprofile)⟩
  · have hopened := Spout.opened_opening fun c => hn ⟨hfull.1 c.1, hgateOpen ▸ c.2⟩
    rw [hopened] at hdone
    exact ⟨hdone.stage, (congrArg (fun g => g.opening) hdone.gate).trans (congrArg (fun v => some v.gateOpenTime) hprofile)⟩
  · rw [hdone.compartment, Spout.opened_compartment (by rw [hcontext]), hcontext]; rfl
  · rw [hdone.order, horder, hcontext]; rfl
  · rw [hdone.positioner, hpositioner]; exact hp.position

/-- R91: a spout that owes a zeroing measures its zero first. -/
theorem startCompartment_zeroes (hd : (s.calibration i).debt = 8) :
    let t := startCompartment k i u
    t.stage i = .zeroing ∧ (t.calibration i).capture = .longBlocking ∧ (t.calibration i).captureCount = 0
      ∧ (t.calibration i).zeroTimeout = some (s.profile i).zeroTimeout
      ∧ t.compartment i = { index := (s.compartment i).index, effectiveTarget := (s.compartment i).effectiveTarget }
      ∧ t.gate i = s.gate i ∧ t.channel i = s.channel i ∧ t.order i = s.order i := by
  intro t
  have htwin : p.context.order.twin = false := by rw [hp.context]; exact hp.single
  have hslot : p.context.slot = some n := by rw [hp.context]; exact hp.slot
  have hindex : p.context.compartment.index < 12 := by rw [hp.context]; exact hp.index
  have hdone := (hu.widen (some n)).startCompartment_zeroing k htwin hslot hindex (by rw [hp.calibration]; exact hd)
  have ht : t = startCompartment k i u := rfl
  clear_value t
  rw [← ht] at hdone
  have hcontext := hp.cleared_context
  have hprofile : p.calibration.profile = s.profile i := congrArg (fun c => c.profile) hp.calibration
  exact ⟨hdone.stage, congrArg (fun c => c.capture) hdone.calibration, congrArg (fun c => c.captureCount) hdone.calibration,
    (congrArg (fun c => c.zeroTimeout) hdone.calibration).trans (congrArg (fun v => some v.zeroTimeout) hprofile),
    hdone.compartment.trans (congrArg (fun c => c.compartment) hcontext), hdone.gate.trans (congrArg (fun c => c.gate) hcontext),
    hdone.channel.trans hp.channel, hdone.order.trans (congrArg (fun c => c.order) hcontext)⟩

/-- R27 step 3: a gate that is not shut ends the compartment NO_OPEN by way of its close. -/
theorem startCompartment_closes (hd : (s.calibration i).debt ≠ 8) (hpermit : s.present i .permit = true)
    (hready : s.present i .indexReady = true) (hlevel : s.present i .levelHigh = false)
    (hclosed : s.present i .gateClosed = false) :
    let t := startCompartment k i u
    t.stage i = .closing ∧ (t.gate i).output = .close ∧ (t.gate i).opening = none ∧ (t.gate i).starve = none
      ∧ (t.gate i).close = (if s.hasProfile i then some (s.profile i).gateCloseTime else none)
      ∧ (t.compartment i).cause = some .noOpen ∧ (t.compartment i).opened = false
      ∧ (t.compartment i).noSettle = true ∧ (t.channel i).integrating = (s.channel i).integrating := by
  intro t
  have hcode : p.openingFailure = none := by
    have hp' : p.field.permit.taken = true := hp.permit ▸ hpermit
    have hi : p.field.indexReady.taken = true := hp.ready ▸ hready
    have hl : p.field.levelHigh.taken = false := hp.level ▸ hlevel
    unfold Spout.openingFailure
    rw [hp', hi, hl, hp.position]; rfl
  have hdone := startCompartment_passes (k := k) hu hp hd hcode
  rw [if_pos (show p.field.gateClosed.taken = false from hp.gateClosed ▸ hclosed)] at hdone
  have ht : t = startCompartment k i u := rfl
  clear_value t
  rw [← ht] at hdone
  have hclose : p.cleared.closeTime = (s.spout i).closeTime := by
    unfold Spout.closeTime
    rw [show p.cleared.calibration = (s.spout i).calibration from hp.calibration]
  exact ⟨hdone.stage, congrArg (fun g => g.output) hdone.gate, congrArg (fun g => g.opening) hdone.gate,
    congrArg (fun g => g.starve) hdone.gate, (congrArg (fun g => g.close) hdone.gate).trans hclose,
    congrArg (fun c => c.cause) hdone.compartment, congrArg (fun c => c.opened) hdone.compartment,
    congrArg (fun c => c.noSettle) hdone.compartment, congrArg (fun c => c.integrating) (hdone.channel.trans hp.channel)⟩

/-- R28: a condition that fails ends the compartment with its code. -/
theorem startCompartment_endsUnopened (hm : s.memory.wf = true) (hd : (s.calibration i).debt ≠ 8)
    (hmark : (s.order i).mark = .none) {code : Code} (hcode : p.openingFailure = some code) :
    let t := startCompartment k i u
    t.stage i = .releasing ∧ t.isRaising i ∧ t.entryShows n (s.compartment i).index code.value 0 0 0 ∧ (t.order i).mark = code.mark
      ∧ (t.order i).total = (s.order i).total
      ∧ (t.order i).watch = (if s.present i .indexReady then .awaitDrop else .awaitRise) ∧ t.gate i = s.gate i := by
  intro t
  have htwin : p.context.order.twin = false := by rw [hp.context]; exact hp.single
  have hslot : p.context.slot = some n := by rw [hp.context]; exact hp.slot
  have hindex : p.context.compartment.index < 12 := by rw [hp.context]; exact hp.index
  have hfail := startCompartment_fails (k := k) hm hu hp hd hcode
  have ht : t = startCompartment k i u := rfl
  clear_value t
  rw [← ht] at hfail
  have hcleared : (clearCompartment i u).context i = p.cleared.context :=
    ((hu.widen (some n)).clearCompartment htwin hslot hindex).context
  have hcontext := hcleared.trans hp.cleared_context
  have hcompartment : (clearCompartment i u).compartment i
      = { index := (s.compartment i).index, effectiveTarget := (s.compartment i).effectiveTarget } :=
    congrArg (fun c => c.compartment) hcontext
  have hshows := hfail.shows
  have hdone := hfail.context
  rw [hcompartment] at hshows
  have horder : (clearCompartment i u).order i = s.order i := congrArg (fun c => c.order) hcontext
  rw [horder, hmark, EndMark.strongest_none] at hdone
  have hready : p.field.indexReady.taken = s.present i .indexReady := congrArg (fun l => l.taken) hp.ready
  rw [hready] at hdone
  exact ⟨(congrArg (fun c => c.stage) hdone :), hfail.raising, hshows, (congrArg (fun c => c.order.mark) hdone :),
    (congrArg (fun c => c.order.total) hdone :), (congrArg (fun c => c.order.watch) hdone :),
    (congrArg (fun c => c.gate) hdone :).trans (congrArg (fun c => c.gate) hcontext)⟩

end Reported

/-- R56, R91: the capture done, the compartment of a spout that works by itself opens. -/
theorem deliverSample_opens (k : Reaction) {i : SpoutId} {x : Sample} {s : State} (hs : s.stage i = .zeroing) (ht : s.single i)
    (hcapture : (s.calibration i).capture = .longBlocking) (hcount : (s.calibration i).captureCount = 1023)
    (hband : (x.raw - (s.calibration i).zero).natAbs ≤ (s.profile i).zeroBand) (hmay : s.mayOpen i)
    (hready : s.present i .indexReady = true) (hposition : (s.positioner i).position = .engaged)
    (hg : (s.gate i).starve = none) :
    ∃ q, Becomes i none (((s.spout i).sample x (s.sampleSettings i)).zeroed x.raw).opened q s (deliverSample k i x s) := by
  obtain ⟨q, u, hdelivered, hu⟩ := deliverSample_zeroed k hs ht.1 hcapture hcount hband hmay.2.2 hg
  have hcheck := hu.checkOpening_eq k ht.1
  rw [openingFailure_of_mayOpen (p := ((s.spout i).sample x (s.sampleSettings i)).zeroed x.raw) hmay hready rfl rfl rfl hposition]
    at hcheck
  have hclosed : (((s.spout i).sample x (s.sampleSettings i)).zeroed x.raw).field.gateClosed.taken = true := hmay.2.2
  refine ⟨q, ?_⟩
  rw [hdelivered, hcheck]; dsimp only
  rw [if_neg (by rw [hclosed]; decide)]
  exact hu.openCompartment ht.1

/-- Settles O33: one lemma for each outcome of the start, and `deliverSample_opens`. -/
theorem engagedStartsTheCompartment : Obligations.EngagedStartsTheCompartment := by
  unfold Obligations.EngagedStartsTheCompartment
  refine ⟨fun c i n s hm hc hs hi hslot he heff hmark => ?_,
    fun i x s hs hi hcapture hcount hband hmay hready hposition hg => ?_⟩
  · obtain ⟨k, p, u, hexec, hu, hengages⟩ := exec_reportsEngaged hc hs hi.1
    have hp : (s.spout i).StartsFrom n p := { hengages with slot := hslot, single := hi.1, index := he, mark := hmark }
    have hstarted := startCompartment_started (k := k) hm hu hp heff
    obtain ⟨hpermit, hmoved, hlevel⟩ := openingFailure_of_levels hp.permit hp.ready hp.level
    exact ⟨_, hexec, hstarted.target, hstarted.slot, fun hd => startCompartment_opens hu hp hd,
      fun hd => startCompartment_zeroes hu hp hd,
      fun hd hnone => ⟨fun h => startCompartment_endsUnopened hu hp hm hd hnone (hpermit h),
        fun h h' => startCompartment_endsUnopened hu hp hm hd hnone (hmoved h h'),
        fun h h' h'' => startCompartment_endsUnopened hu hp hm hd hnone (hlevel h h' h'')⟩,
      fun hd => startCompartment_closes hu hp hd, hstarted.others, hstarted.tables⟩
  · intro t
    obtain ⟨q, hdone⟩ := deliverSample_opens react hs hi hcapture hcount hband hmay hready hposition hg
    have ht : t = deliverSample react i x s := rfl
    clear_value t
    rw [← ht] at hdone
    generalize hzeroed : ((s.spout i).sample x (s.sampleSettings i)).zeroed x.raw = p at hdone
    obtain ⟨-, -, -, -, hchannel, -, -, hcalibration, -⟩ := p.opened_shows
    have hcalibration' := hdone.calibration.trans hcalibration
    have hstage : p.opened.context.stage = .opening ∨ p.opened.context.stage = .coarse := by
      obtain h | h := p.opened_cases <;> rw [h]
      · exact .inl rfl
      · exact .inr rfl
    have hopen : p.opened.context.gate.isOpen = true := by
      obtain h | h := p.opened_cases <;> (rw [h]; exact p.opens_isOpen)
    have hafresh : t.integratesAfresh i := by
      unfold State.integratesAfresh
      rw [hdone.channel, hchannel]; exact ⟨rfl, rfl, rfl, rfl, rfl, rfl⟩
    subst hzeroed
    exact ⟨hstage.imp hdone.stage.trans hdone.stage.trans, (congrArg GateUnit.isOpen hdone.gate).trans hopen, hafresh,
      congrArg (fun c => c.capture) hcalibration', congrArg (fun c => c.debt) hcalibration', hdone.others, hdone.tables⟩

end Sys2Proof.Machine

/-! A spout faults of a failed close or of a travel that ends in no switch (R35, R133, R134). -/

namespace Sys2Proof.Machine

/-! ## What every travel fault leaves, whatever the spout was at -/

/-- R134: what the reactions to a fault of spout `i` keep. -/
structure State.FaultHeld (i : SpoutId) (s t : State) : Prop where
  position : (t.positioner i).position = .faulted
  cause : (t.positioner i).cause = (s.positioner i).cause
  drive : (t.positioner i).drive = (s.positioner i).drive
  travel : (t.positioner i).travel = (s.positioner i).travel
  queue : (t.queue i).Sublist (s.queue i)
  inputs : ∀ j, t.receiver j = s.receiver j ∧ t.field j = s.field j
  exchange : t.port.exchange = s.port.exchange
  spoutChange : t.port.spoutChange = s.port.spoutChange
  products : t.products = s.products
  pending : t.pending = s.pending

theorem State.FaultHeld.refl {i : SpoutId} {s : State} (hf : s.isFaulted i = true) : s.FaultHeld i s :=
  ⟨beq_iff_eq.1 hf, rfl, rfl, rfl, .refl _, fun _ => ⟨rfl, rfl⟩, rfl, rfl, rfl, rfl⟩

/-- An update of a spout that leaves its inputs, the positioner of a FAULTED spout, and its queue but for orders taken out. -/
theorem State.FaultHeld.updateSpout {i : SpoutId} {s t : State} (h : s.FaultHeld i t) (j : SpoutId) {f : Spout → Spout}
    (hreceiver : (f (t.spout j)).receiver = t.receiver j) (hfield : (f (t.spout j)).field = t.field j)
    (hpositioner : j = i → (f (t.spout i)).positioner.position = .faulted
      ∧ (f (t.spout i)).positioner.cause = (t.positioner i).cause
      ∧ (f (t.spout i)).positioner.drive = (t.positioner i).drive ∧ (f (t.spout i)).positioner.travel = (t.positioner i).travel)
    (hqueue : j = i → (f (t.spout i)).queue.Sublist (t.queue i)) : s.FaultHeld i (t.updateSpout j f) := by
  have hinputs (m : SpoutId) : (t.updateSpout j f).receiver m = s.receiver m ∧ (t.updateSpout j f).field m = s.field m := by
    unfold State.receiver State.field
    rw [State.spout_updateSpout]; split
    · next e => subst e; exact ⟨hreceiver.trans (h.inputs _).1, hfield.trans (h.inputs _).2⟩
    · exact h.inputs m
  obtain rfl | hne := eq_or_ne j i
  · obtain ⟨hp, hc, hd, ht⟩ := hpositioner rfl
    have hself := State.spout_updateSpout_self t j f
    exact { h with
      inputs := hinputs
      position := (congrArg (fun p => p.positioner.position) hself).trans hp
      cause := (congrArg (fun p => p.positioner.cause) hself).trans (hc.trans h.cause)
      drive := (congrArg (fun p => p.positioner.drive) hself).trans (hd.trans h.drive)
      travel := (congrArg (fun p => p.positioner.travel) hself).trans (ht.trans h.travel)
      queue := by
        rw [State.queue, hself]
        exact (hqueue rfl).trans h.queue }
  · have hother : (t.updateSpout j f).spout i = t.spout i := State.spout_updateSpout_ne t hne.symm f
    have hp : (t.updateSpout j f).positioner i = t.positioner i := congrArg Spout.positioner hother
    have hq : (t.updateSpout j f).queue i = t.queue i := congrArg Spout.queue hother
    exact ⟨hp ▸ h.position, hp ▸ h.cause, hp ▸ h.drive, hp ▸ h.travel, hq ▸ h.queue, hinputs, h.exchange, h.spoutChange,
      h.products, h.pending⟩

/-- A positioner that is FAULTED stays so, its drive and its timer as they are. -/
theorem PositionerStep.faulted_drive {p q : Positioner} (h : PositionerStep p q) (hp : p.position = .faulted) :
    q.drive = p.drive ∧ q.travel = p.travel := by
  cases h with
  | lower _ h => rw [hp] at h; cases h
  | raise _ h => exact absurd hp h
  | engaged h => rw [hp] at h; cases h
  | raised h => rw [hp] at h; cases h
  | started h => rw [hp] at h; cases h
  | waiting => exact ⟨rfl, rfl⟩

theorem keptByReaction_faultHeld (i : SpoutId) (s : State) : KeptByReaction (s.FaultHeld i) where
  memory _ _ h := { h with }
  done _ h := { h with }
  start t j _ h := h.updateSpout j (f := fun p => { p with channel := p.channel.startCompartment }) rfl rfl
    (fun _ => ⟨h.position, rfl, rfl, rfl⟩) fun _ => .refl _
  finish t j h := h.updateSpout j (f := fun p => { p with channel := p.channel.endCompartment }) rfl rfl
    (fun _ => ⟨h.position, rfl, rfl, rfl⟩) fun _ => .refl _
  profile t j v h := h.updateSpout j rfl rfl (fun _ => ⟨h.position, rfl, rfl, rfl⟩) fun _ => .refl _
  calibration t j f h := h.updateSpout j rfl rfl (fun _ => ⟨h.position, rfl, rfl, rfl⟩) fun _ => .refl _
  positioner t j f hf h := h.updateSpout j rfl rfl (fun e => by
    subst e
    obtain ⟨hp, hc⟩ := hf.faulted h.position
    obtain ⟨hd, ht⟩ := hf.faulted_drive h.position
    exact ⟨hp, hc, hd, ht⟩) fun _ => .refl _
  context t j f h := h.updateSpout j rfl rfl (fun _ => ⟨h.position, rfl, rfl, rfl⟩) fun _ => .refl _
  queue t j q hq h := h.updateSpout j rfl rfl (fun _ => ⟨h.position, rfl, rfl, rfl⟩) fun e => e ▸ hq
  preact _ _ h := { h with }
  freeCount _ _ h := { h with }

theorem faultHeld_spoutFault (i : SpoutId) (cause : FaultCause) {s : State} (hf : (enterFault i cause s).isFaulted i = true) :
    (enterFault i cause s).FaultHeld i (spoutFault react i cause s) :=
  have h := keptByReaction_faultHeld i (enterFault i cause s)
  h.contextFaulted h.react i cause (h.withdrawClaimOn h.react i (.refl hf))

/-! ## The entry into FAULTED -/

/-- R134, R166: the orders returned with the queue are DONE. -/
theorem doneCount_returned (r : Result) (l : List SlotId) {s : State} (hd : s.port.doneCount ≤ 255) :
    (l.foldl (fun t n => endWithoutRunning n r t) s).port.doneCount = min (s.port.doneCount + l.length) 255 := by
  induction l generalizing s with
  | nil => exact (min_eq_left hd).symm
  | cons n l ih =>
    have hone : (endWithoutRunning n r s).port.doneCount = min (s.port.doneCount + 1) 255 := by
      unfold endWithoutRunning; dsimp only; split
      · obtain ⟨m, hm⟩ := sameButMemory_closeEntries n (s.loadCount n) 0 s
        show min ((closeEntries n (s.loadCount n) 0 s).port.doneCount + 1) 255 = _
        rw [hm]
      · rfl
    rw [List.foldl_cons, ih (by rw [hone]; exact min_le_right ..), hone, List.length_cons]
    omega

/-- R134, R165: the done count as a fault leaves it. -/
theorem doneCount_enterFault (cause : FaultCause) {i : SpoutId} {s : State} (hf : s.isFaulted i = false)
    (hx : s.port.exchange ≠ .resetting) (hd : s.port.doneCount ≤ 255) :
    (enterFault i cause s).port.doneCount = min (s.port.doneCount + (s.queue i).length) 255 := by
  have hposition := sameButMemory_updatePosition i (Positioner.enterFault cause) s
  have hport : (updatePosition i (Positioner.enterFault cause) s).port = s.port := hposition.port
  have hqueue : (updatePosition i (Positioner.enterFault cause) s).queue i = s.queue i :=
    (congrArg Spout.queue (hposition.spout i)).trans (State.queue_updatePositioner ..)
  have hreturned := doneCount_returned .spoutFault (s.queue i) (s := (updatePosition i (Positioner.enterFault cause) s).setQueue i [])
    (by rw [State.port_setQueue, hport]; exact hd)
  rw [State.port_setQueue, hport] at hreturned
  unfold enterFault returnQueue
  rw [hf, if_neg Bool.false_ne_true, hport, if_neg hx, hqueue]
  exact hreturned

theorem spout_enterFault (cause : FaultCause) {i : SpoutId} {s : State} (hf : s.isFaulted i = false) :
    (enterFault i cause s).spout i = (s.spout i).enterFault cause s.port.exchange :=
  ((sameButAnswers_enterFault cause hf).spout i).trans (State.spout_updateSpout_self ..)

theorem others_enterFault (cause : FaultCause) {i : SpoutId} {s : State} (hf : s.isFaulted i = false) :
    SameOtherSpouts i s (enterFault i cause s) := fun j hj =>
  ((sameButAnswers_enterFault cause hf).spout j).trans (State.spout_updateSpout_ne s hj _)

theorem spoutFault_unclaimed (k : Reaction) {i : SpoutId} (cause : FaultCause) {s : State} (hf : s.isFaulted i = false)
    (hc : (s.context i).claim = none) : spoutFault k i cause s = contextFaulted k i cause (enterFault i cause s) := by
  have hclaim : ((enterFault i cause s).context i).claim = none :=
    (congrArg (fun p => p.context.claim) (spout_enterFault cause hf)).trans hc
  unfold spoutFault
  rw [withdrawClaimOn_unclaimed k hclaim]

/-- R134: a spout that is IDLE has nothing for a fault to end. -/
theorem contextFaulted_idle (k : Reaction) {i : SpoutId} (cause : FaultCause) {s : State} (hs : s.stage i = .idle) :
    contextFaulted k i cause s = s := by
  have hbound : s.isBound i = false := by rw [State.isBound, hs]; rfl
  unfold contextFaulted; dsimp only
  rw [ownerOf_self (by rw [hs]; decide), hs]; dsimp only
  rw [hbound, if_neg fun c => Bool.false_ne_true c.1]

theorem spoutFault_idle (k : Reaction) {i : SpoutId} (cause : FaultCause) {s : State} (hf : s.isFaulted i = false)
    (hc : (s.context i).claim = none) (hs : s.stage i = .idle) : spoutFault k i cause s = enterFault i cause s := by
  rw [spoutFault_unclaimed k cause hf hc,
    contextFaulted_idle k cause ((congrArg (fun p => p.context.stage) (spout_enterFault cause hf)).trans hs)]

/-! ## A failed close (R35) -/

/-- R35: the gate that has failed to close. -/
def Spout.closeFails (p : Spout) : Spout := (p.onGate GateUnit.fail).onCompartment fun c => { c with closeAwaited := false }

/-- R35: the state that a failed close faults. -/
def failGate (i : SpoutId) (s : State) : State := setCloseAwaited false i (s.updateGate i GateUnit.fail)

theorem becomes_failGate (i : SpoutId) (s : State) : Becomes i none (s.spout i).closeFails s.port s (failGate i s) :=
  ((Becomes.refl i none s).updateGate GateUnit.fail).updateCompartment fun c => { c with closeAwaited := false }

theorem exec_closeFails {i : SpoutId} {s : State} (hc : (s.gate i).close.isSome = true) (ht : (s.gate i).secondTry = true) :
    exec (.closeTimerExpiry i) s = .next (spoutFault react i .gateFault (failGate i s)) :=
  congrArg Host.Outcome.next ((if_pos hc).trans (if_pos ht))

end Sys2Proof.Machine

/-! The close failure and the travel expiry (R35, R133, R134): the settled statement. -/

namespace Sys2Proof.Machine

/-! ## The commands that fault a spout -/

/-- R134: the orders of the queue, as the entry into FAULTED answers them. -/
theorem queueReturned_enterFault (cause : FaultCause) {i : SpoutId} {s : State} (hm : s.memory.wf = true)
    (hf : s.isFaulted i = false) (hx : s.port.exchange = .running)
    (hc : ∀ q ∈ s.queue i, s.slotKind q = 1 ∨ s.slotKind q = 2 → s.loadCount q ≤ 12) :
    s.queueReturned (enterFault i cause s) i := by
  have hrunning : s.port.exchange ≠ .resetting := by rw [hx]; decide
  obtain ⟨-, -, hreturned⟩ := enterFault_slots cause hm hf hrunning hc
  refine ⟨(congrArg Spout.queue (spout_enterFault cause hf)).trans (if_neg hrunning), fun q hq => ?_⟩
  obtain ⟨hstate, hresult, hcodes⟩ := hreturned q hq
  exact ⟨hstate, hresult, fun hk e he => hcodes hk e (List.mem_range.1 he)⟩

/-- The state differs from `s` in its memory, and in the receiver, the channel, the gate and the compartment of spout `i`. -/
structure State.BeforeFault (i : SpoutId) (s u : State) : Prop where
  wf : u.memory.wf = true
  others : SameOtherSpouts i s u
  tables : SameTables s u
  slots : ∀ m, SameSlot m s u
  queue : u.queue i = s.queue i
  exchange : u.port.exchange = s.port.exchange
  faulted : u.isFaulted i = s.isFaulted i
  context : u.context i = { s.context i with gate := u.gate i, compartment := u.compartment i }

/-- R134: what the fault of an IDLE spout leaves. -/
theorem faults_idle (cause : FaultCause) {i : SpoutId} {s u : State} (hu : s.BeforeFault i u) (hf : s.isFaulted i = false)
    (hx : s.port.exchange = .running) (hc : (s.context i).claim = none) (hs : s.stage i = .idle)
    (hl : ∀ q ∈ s.queue i, s.slotKind q = 1 ∨ s.slotKind q = 2 → s.loadCount q ≤ 12) :
    let t := spoutFault react i cause u
    t.isFaulted i = true ∧ s.queueReturned t i ∧ t.context i = { s.context i with gate := t.gate i, compartment := t.compartment i }
      ∧ SameOtherSpouts i s t ∧ SameTables s t := by
  have hf' : u.isFaulted i = false := hu.faulted.trans hf
  have hkind (q : SlotId) : u.slotKind q = s.slotKind q := (hu.slots q).slotKind
  have hcount (q : SlotId) : u.loadCount q = s.loadCount q := (hu.slots q).slotU8 (by omega)
  have hfault := spoutFault_idle react cause hf' ((congrArg (fun c => c.claim) hu.context).trans hc)
    ((congrArg (fun c => c.stage) hu.context).trans hs)
  have hspout := spout_enterFault cause hf'
  have hcontext : (enterFault i cause u).context i = u.context i := (congrArg (fun p => p.context) hspout :)
  have hreturned := queueReturned_enterFault cause hu.wf hf' (hu.exchange.trans hx)
    (by rw [hu.queue]; simp only [hkind, hcount]; exact hl)
  obtain ⟨hempty, hreturned⟩ := hreturned
  rw [hu.queue] at hreturned
  rw [hfault]
  refine ⟨(congrArg (fun p => p.positioner.position == .faulted) hspout :), ⟨hempty, fun q hq => ?_⟩, ?_,
    fun j hj => (others_enterFault cause hf' j hj).trans (hu.others j hj), hu.tables.trans (sameButAnswers_enterFault cause hf').sameTables⟩
  · obtain ⟨hstate, hresult, hcodes⟩ := hreturned q hq
    rw [hkind, hcount] at hcodes
    refine ⟨hstate, hresult, fun hk e he => ?_⟩
    have hentry : u.entryCode q e = s.entryCode q e :=
      (hu.slots q).entryCode (lt_of_lt_of_le (List.mem_range.1 he) (hl q hq hk))
    rw [← hentry]
    exact hcodes hk e he
  · rw [show (enterFault i cause u).gate i = u.gate i from congrArg (fun c => c.gate) hcontext,
      show (enterFault i cause u).compartment i = u.compartment i from congrArg (fun c => c.compartment) hcontext]
    exact hcontext.trans hu.context

theorem beforeFault_of_becomes {i : SpoutId} {p : Spout} {q : Port} {s u : State} (h : Becomes i none p q s u)
    (hm : s.memory.wf = true) (hq : q.exchange = s.port.exchange) (hqueue : p.queue = s.queue i)
    (hposition : p.positioner = s.positioner i)
    (hcontext : p.context = { s.context i with gate := p.context.gate, compartment := p.context.compartment }) :
    s.BeforeFault i u where
  wf := h.wf hm
  others := h.others
  tables := h.tables
  slots m := h.slots m (by simp)
  queue := h.queue.trans hqueue
  exchange := (congrArg (fun x => x.exchange) h.port).trans hq
  faulted := h.isFaulted.trans (congrArg (fun x => x.position == .faulted) hposition)
  context := by
    rw [h.gate, h.compartment]
    exact h.context.trans hcontext

theorem beforeFault_linkDown {i : SpoutId} {s : State} (hm : s.memory.wf = true) : s.BeforeFault i (linkDown i s) :=
  beforeFault_of_becomes ((Becomes.refl i none s).update Spout.loseLink) hm rfl rfl rfl rfl

theorem beforeFault_failGate {i : SpoutId} {s : State} (hm : s.memory.wf = true) : s.BeforeFault i (failGate i s) :=
  beforeFault_of_becomes (becomes_failGate i s) hm rfl rfl rfl rfl

theorem beforeFault_refl {i : SpoutId} {s : State} (hm : s.memory.wf = true) : s.BeforeFault i s :=
  beforeFault_of_becomes (Becomes.refl i none s) hm rfl rfl rfl rfl

/-- R148: a link shown moves nothing of the spouts and no slot. -/
theorem faulted_showLink {i : SpoutId} {s t : State}
    (hl : ∀ q ∈ s.queue i, s.slotKind q = 1 ∨ s.slotKind q = 2 → s.loadCount q ≤ 12)
    (h : t.isFaulted i = true ∧ s.queueReturned t i
      ∧ t.context i = { s.context i with gate := t.gate i, compartment := t.compartment i } ∧ SameOtherSpouts i s t ∧ SameTables s t) :
    let t := showLink i t
    t.isFaulted i = true ∧ s.queueReturned t i ∧ t.context i = { s.context i with gate := t.gate i, compartment := t.compartment i }
      ∧ SameOtherSpouts i s t ∧ SameTables s t := by
  obtain ⟨hf, ⟨hempty, hreturned⟩, hcontext, hothers, htables⟩ := h
  have hshown : SameButMemory t (showLink i t) := (sameButMemory_writeLinkState ..).trans (sameButMemory_refreshPanel ..)
  have hspout := hshown.spout i
  have hslots (q : SlotId) : SameSlot q t (showLink i t) := (sameWork_showLink i q t).slot
  refine ⟨(congrArg (fun p => p.positioner.position == .faulted) hspout).trans hf,
    ⟨(congrArg Spout.queue hspout).trans hempty, fun q hq => ?_⟩, ?_, fun j hj => (hshown.spout j).trans (hothers j hj),
    htables.trans hshown.sameTables⟩
  · obtain ⟨hstate, hresult, hcodes⟩ := hreturned q hq
    exact ⟨(hslots q).slotStateByte.trans hstate, ((hslots q).slotU8 (by omega)).trans hresult, fun hk e he =>
      ((hslots q).entryCode (lt_of_lt_of_le (List.mem_range.1 he) (hl q hq hk))).trans (hcodes hk e he)⟩
  · have hsame : (showLink i t).context i = t.context i := congrArg Spout.context hspout
    have hgate : (showLink i t).gate i = t.gate i := congrArg (fun c => c.gate) hsame
    have hcompartment : (showLink i t).compartment i = t.compartment i := congrArg (fun c => c.compartment) hsame
    rw [hgate, hcompartment, hsame]
    exact hcontext

/-- R134: each of the three commands faults its spout, in a state that differs from `s` by what led to the fault. -/
theorem exec_faults {c : Instr} {i : SpoutId} {s : State} (hm : s.memory.wf = true) (h : s.faults c i) :
    ∃ cause u, s.BeforeFault i u ∧ (exec c s = .next (spoutFault react i cause u)
      ∨ exec c s = .next (showLink i (spoutFault react i cause u))) := by
  obtain ⟨-, ⟨rfl, hp, hs⟩ | ⟨rfl, ht, hp⟩ | ⟨rfl, hc, ht⟩⟩ := h
  · exact ⟨.sensorLost, _, beforeFault_linkDown hm, .inr ((exec_silence hp hs).trans (congrArg _ (loseLink_eq i s)))⟩
  · exact ⟨.travelFault, s, beforeFault_refl hm, .inl (exec_travelTimerExpiry ht hp)⟩
  · exact ⟨.gateFault, _, beforeFault_failGate hm, .inl (exec_closeFails hc ht)⟩

/-! ## A close that fails in CLOSING (R35) -/

/-- R35: a failed close ends the compartment in CLOSING. -/
theorem contextFaulted_closeFailed {i : SpoutId} {n : SlotId} {s : State} (h : (s.spout i).WorksAlone n) (hs : s.stage i = .closing) :
    contextFaulted react i .gateFault s
      = finishCompartment react i false ((frozen i s).updateCompartment i (Compartment.record .gateFault)) := by
  have htwin : (markOrder i .spoutFault s).isTwin i = false := (h.marked _).twin
  have hfrozen : freezeChannel i .gateFault (markOrder i .spoutFault s) = frozen i s := if_neg (by decide)
  unfold contextFaulted; dsimp only
  rw [ownerOf_alone h, hs]; dsimp only
  unfold faultMetering; dsimp only
  rw [htwin, if_pos Bool.false_ne_true]
  unfold faultAlone; dsimp only
  rw [hfrozen, stage_frozen, hs]; dsimp only
  rw [if_pos rfl]; rfl

/-- R46: the order and the compartment that a failed close leaves. -/
def Spout.closeFailedAlone (p : Spout) : Spout :=
  ((p.marked .spoutFault).onChannel Channel.endCompartment).onCompartment (Compartment.record .gateFault)

/-- R35: what a failed close in CLOSING leaves of a spout that works by itself. -/
theorem contextFaulted_closeFailed_holds {i : SpoutId} {n : SlotId} {s : State} (hm : s.memory.wf = true)
    (h : (s.spout i).WorksAlone n) (hmark : (s.order i).mark ≠ .reset) (hs : s.stage i = .closing)
    (he : (s.compartment i).index < (s.order i).count) (ho : (s.compartment i).opened = true)
    (htrims : (s.compartment i).trimsUsed ≤ 3) (hd : (s.channel i).delivered ≤ 4294967295)
    (hreset : (s.compartment i).cause ≠ some .reset) (hpending : (s.compartment i).cause ≠ some .pending) :
    let t := contextFaulted react i .gateFault s
    let x := s.compartment i
    let secondary := if x.cause ≠ none ∧ x.secondary = none then some .gateFault else x.secondary
    ((t.atRest i ∧ t.slotStateByte n = 4 ∧ t.slotU8 n 3 = 6)
      ∧ t.entryShows n x.index (x.cause.getD .gateFault).value ((secondary.map Code.value).getD 0) x.trimsUsed
        (s.channel i).delivered
      ∧ (t.channel i).integrating = false ∧ t.gate i = s.gate i) ∧ OrderFrame i n s t := by
  intro t x secondary
  have hw : Becomes i none (s.spout i).closeFailedAlone s.port s
      ((frozen i s).updateCompartment i (Compartment.record .gateFault)) :=
    (((Becomes.refl i none s).markOrder .spoutFault).updateChannel Channel.endCompartment).updateCompartment
      (Compartment.record .gateFault)
  have hframe : OrderFrame i n s ((frozen i s).updateCompartment i (Compartment.record .gateFault)) :=
    (orderFrame_frozen i n s).trans (.updateContext i n _ _)
  have hworks := h.frozen.withCompartment (Compartment.record .gateFault)
  have heq : t = finishCompartment react i false ((frozen i s).updateCompartment i (Compartment.record .gateFault)) :=
    contextFaulted_closeFailed h hs
  rw [heq]
  generalize (frozen i s).updateCompartment i (Compartment.record .gateFault) = w at *
  have hcompartment : w.compartment i = { x with cause := some (x.cause.getD .gateFault), secondary := secondary } :=
    hw.compartment.trans (Compartment.record_failure rfl x)
  have hwmark : (w.order i).mark = .spoutFault := by
    rw [hw.order]; exact EndMark.strongest_spoutFault hmark
  have hcount : (w.order i).count = (s.order i).count := congrArg (fun o => o.count) hw.order
  have hgate : w.gate i = s.gate i := hw.gate
  have hdelivered : (w.channel i).delivered = (s.channel i).delivered := congrArg (fun c => c.delivered) hw.channel
  have hfinal : takeFinal i (endIntegration i w) = (endIntegration i w, (s.channel i).delivered) := by
    have hended := spout_endIntegration i w
    have hd' : ((endIntegration i w).channel i).delivered = (s.channel i).delivered :=
      (congrArg (fun p => p.channel.delivered) hended).trans hdelivered
    rw [← hd']
    have hcompartment' : (endIntegration i w).compartment i = w.compartment i := (congrArg (fun p => p.context.compartment) hended :)
    exact takeFinal_opened hworks.endIntegration.twin (by rw [hcompartment', hcompartment]; exact ho) (hd' ▸ hd)
  have hcode : x.cause.getD .gateFault ≠ .reset ∧ x.cause.getD .gateFault ≠ .pending := by
    cases hx : x.cause with
    | none => decide
    | some c => exact ⟨fun e => hreset (hx.trans (congrArg some e)), fun e => hpending (hx.trans (congrArg some e))⟩
  have hend := finishCompartment_ended (hframe.wf hm) hworks (by rw [hcompartment, hcount]; exact he) hfinal
    (compartmentCode_caused (by rw [hwmark]; decide) (by rw [hcompartment]) _) hcode.2
    (by rw [hwmark]; exact EndMark.strongest_of_spoutFault (Code.mark_ne_reset hcode.1))
  rw [hcompartment, hgate, Nat.mod_eq_of_lt (show x.trimsUsed < 256 from lt_of_le_of_lt htrims (by decide)),
    Nat.mod_eq_of_lt (show (s.channel i).delivered < 4294967296 by omega)] at hend
  refine ⟨hend, hframe.trans (orderFrame_finishCompartment (hframe.wf hm) hworks ?_)⟩
  have := h.count
  rw [hcompartment]
  exact lt_of_lt_of_le he this

/-- Settles O39: the IDLE spout by the entry into FAULTED, every travel fault by what the reactions keep, and CLOSING by the end of
its compartment. -/
theorem closeFailureAndTravelExpiryFaultTheSpout : Obligations.CloseFailureAndTravelExpiryFaultTheSpout := by
  unfold Obligations.CloseFailureAndTravelExpiryFaultTheSpout
  refine ⟨fun i s hc ht hoff hf hs hclaim hx hd => ?_, fun i s ht hp => ?_,
    fun i n s hm hc ht hoff hf hs hi hslot he hcount ho htrims hd hmark hreset hpending hq hclaim => ?_,
    fun c i s hm hc hs hclaim hx hl => ?_⟩
  · have hfail := becomes_failGate i s
    have hf' : (failGate i s).isFaulted i = false := hfail.isFaulted.trans hf
    have hfault := spoutFault_idle react .gateFault hf' ((congrArg (fun c => c.claim) hfail.context).trans hclaim)
      (hfail.stage.trans hs)
    have hspout := spout_enterFault .gateFault hf'
    rw [hfail.spout, hfail.port] at hspout
    have hentry := sameButAnswers_enterFault .gateFault hf'
    have hdone := doneCount_enterFault .gateFault hf' (by rw [hfail.port, hx]; decide) (by rw [hfail.port]; exact hd)
    rw [hfail.port, show (failGate i s).queue i = s.queue i from hfail.queue] at hdone
    refine ⟨_, (exec_closeFails hc ht).trans (congrArg _ hfault), (congrArg (fun p => p.positioner.position) hspout :),
      (congrArg (fun p => p.positioner.cause) hspout :), (congrArg (fun p => p.positioner.drive) hspout :),
      (congrArg (fun p => p.context.gate.output) hspout).trans hoff, (congrArg (fun p => p.context.gate.close) hspout :),
      (congrArg (fun p => p.context.gate.failed) hspout :), (congrArg (fun p => p.queue) hspout).trans (if_neg ?_),
      (congrArg (fun p => p.context.stage) hspout).trans hs, hentry.spoutChange, hdone,
      fun j hj => (others_enterFault .gateFault hf' j hj).trans (hfail.others j hj), hfail.tables.trans hentry.sameTables⟩
    rw [hx]; decide
  · have hf : s.isFaulted i = false := by
      unfold State.isFaulted
      obtain e | e := hp <;> rw [e] <;> rfl
    have hspout := spout_enterFault .travelFault hf
    have hentry := sameButAnswers_enterFault .travelFault hf
    have hfaulted : (enterFault i .travelFault s).isFaulted i = true :=
      (congrArg (fun p => p.positioner.position == .faulted) hspout :)
    have hheld := faultHeld_spoutFault i .travelFault hfaulted
    have hinputs (j : SpoutId) : (enterFault i .travelFault s).receiver j = s.receiver j
        ∧ (enterFault i .travelFault s).field j = s.field j := by
      obtain rfl | hj := eq_or_ne j i
      · exact ⟨(congrArg (fun p => p.receiver) hspout :), (congrArg (fun p => p.field) hspout :)⟩
      · have hother := others_enterFault .travelFault hf j hj
        exact ⟨congrArg Spout.receiver hother, congrArg Spout.field hother⟩
    obtain ⟨hproducts, -, hpending⟩ := hentry.sameTables
    refine ⟨_, exec_travelTimerExpiry ht hp, hheld.position,
      hheld.cause.trans (congrArg (fun p => p.positioner.cause) hspout :),
      hheld.drive.trans (congrArg (fun p => p.positioner.drive) hspout :),
      hheld.travel.trans (congrArg (fun p => p.positioner.travel) hspout :), fun hx => ?_, hheld.spoutChange.trans hentry.spoutChange,
      hheld.exchange.trans hentry.exchange, hheld.products.trans hproducts, hheld.pending.trans hpending,
      fun j => ⟨(hheld.inputs j).1.trans (hinputs j).1, (hheld.inputs j).2.trans (hinputs j).2⟩⟩
    have hempty : (enterFault i .travelFault s).queue i = [] := (congrArg (fun p => p.queue) hspout).trans (if_neg hx)
    exact List.sublist_nil.1 (hempty ▸ hheld.queue)
  · intro x cause secondary
    have hfail := becomes_failGate i s
    have hnot : (s.spout i).closeFails.positioner.position ≠ .faulted := beq_eq_false_iff_ne.1 hf
    have hfault := hfail.enterFault .gateFault hnot hq
    have hworks : ((enterFault i .gateFault (failGate i s)).spout i).WorksAlone n := by
      rw [hfault.spout]
      exact { slot := hslot, claim := hclaim, twin := hi.1, bound := beq_eq_false_iff_ne.1 hi.2, count := hcount, queue := hq,
              faulted := rfl }
    have hclosing : (enterFault i .gateFault (failGate i s)).stage i = .closing := hfault.stage.trans hs
    have hstep := spoutFault_unclaimed react .gateFault (hfail.isFaulted.trans hf)
      ((congrArg (fun c => c.claim) hfail.context).trans hclaim)
    have hexec := (exec_closeFails hc ht).trans (congrArg Host.Outcome.next hstep)
    generalize enterFault i .gateFault (failGate i s) = u at *
    have hcompartment : u.compartment i = { s.compartment i with closeAwaited := false } := hfault.compartment
    have hdelivered : (u.channel i).delivered = (s.channel i).delivered := congrArg (fun c => c.delivered) hfault.channel
    obtain ⟨⟨hended, hshows, hshut, hgate⟩, hframe⟩ := contextFaulted_closeFailed_holds (hfault.wf hm) hworks
      (by rw [hfault.order]; exact hmark) hclosing (by rw [hcompartment, hfault.order]; exact he) (by rw [hcompartment]; exact ho)
      (by rw [hcompartment]; exact htrims) (by rw [hdelivered]; exact hd) (by rw [hcompartment]; exact hreset)
      (by rw [hcompartment]; exact hpending)
    rw [hcompartment, hdelivered] at hshows
    have hgate' := hgate.trans hfault.gate
    have hpositioner := hframe.positioner.trans hfault.positioner
    exact ⟨_, hexec, hended.1, congrArg (fun p => p.position == .faulted) hpositioner, (congrArg (fun p => p.cause) hpositioner :),
      (congrArg (fun g => g.output) hgate').trans hoff, (congrArg (fun g => g.failed) hgate' :),
      (congrArg (fun g => g.close) hgate' :), hshut, hframe.delivered.trans hdelivered, hshows, hended.2.1, hended.2.2,
      fun j hj => (hframe.others j hj).trans (hfault.others j hj), hfault.tables.trans hframe.tables⟩
  · obtain ⟨cause, u, hu, hexec⟩ := exec_faults hm hc
    have hfault := faults_idle cause hu hc.1 hx hclaim hs hl
    obtain hexec | hexec := hexec
    · exact ⟨_, hexec, hfault⟩
    · exact ⟨_, hexec, faulted_showLink hl hfault⟩

end Sys2Proof.Machine

/-! The order that ends while its slot stands in another spout's queue (R52, R65, R164): the refuted statement. -/

namespace Sys2Proof.Machine

/-- Spout 0 runs slot 3 in WAIT_INDEX with a TWIN of no entries, slot 4, queued behind it; slot 3 stands in the queue of the
follower too, which is IDLE. -/
def runAndQueued : State :=
  { (((State.reset.updateContext 0 fun c =>
        { c with stage := .waitIndex, slot := some 3, order := { c.order with indexTimer := some 1 } }).updateField 1 fun g =>
        { g with gateClosed := { g.gateClosed with taken := true } }).setQueue 0 [4]).setQueue 1 [3] with
    port := { exchange := .running }
    memory := Memory.writeBytes (Memory.writeBytes [] (Config.slotBase 3) [3, 3]) (Config.slotBase 4) [2, 2] }

/-- The index timeout ends slot 3; the TWIN served next ends at once and frees the follower, which serves slot 3 once more. -/
theorem slotStateByte_runAndQueued :
    ∃ t, exec (.indexTimerExpiry 0) runAndQueued = .next t ∧ t.slotStateByte 3 = 3 := ⟨_, rfl, by decide⟩

theorem endsOrder_runAndQueued : runAndQueued.endsOrder (.indexTimerExpiry 0) 0 3 := by
  have hrunning : runAndQueued.port.exchange = .running ∧ runAndQueued.slotStateByte 3 = 3 := by decide
  have hsingle : runAndQueued.isTwin 0 = false ∧ runAndQueued.isBound 0 = false := by decide
  have horder : (runAndQueued.context 0).slot = some 3 ∧ (runAndQueued.order 0).count ≤ 12
      ∧ (runAndQueued.compartment 0).index < 12 ∧ (runAndQueued.order 0).mark ≠ .reset := by decide
  have hwaits : runAndQueued.stage 0 = .waitIndex ∧ (runAndQueued.order 0).indexTimer.isSome = true := by decide
  exact ⟨horder.1, hsingle, hrunning.1, hrunning.2, horder.2.1, horder.2.2.1, horder.2.2.2, .inl ⟨rfl, hwaits⟩⟩

/-- Refutes O47: the last clause does not ask that the slot of the order that ends stand in no other spout's queue. In
`runAndQueued` it stands in the follower's, which a TWIN ending in the same action serves: the slot is RUNNING (3) again, not
DONE (4). -/
theorem not_releasedSpoutGoesOn : ¬ Obligations.ReleasedSpoutGoesOn := by
  unfold Obligations.ReleasedSpoutGoesOn
  rintro ⟨-, -, -, hserved⟩
  obtain ⟨t, hexec, hdone, -⟩ := hserved (.indexTimerExpiry 0) 0 3 4 runAndQueued (by decide) endsOrder_runAndQueued (by decide)
    (by decide) (by decide) (by decide)
  obtain ⟨u, hrun, hrunning⟩ := slotStateByte_runAndQueued
  obtain rfl : t = u := Host.Outcome.next.inj (hexec.symm.trans hrun)
  rw [hdone] at hrunning
  exact absurd hrunning (by decide)

end Sys2Proof.Machine

/-! What the soft reset of one context, its BOUND follower's share included, leaves alone (R49, R64). -/

namespace Sys2Proof.Machine

/-- A claim withdrawn changes nothing else of a spout. -/
def Spout.unclaimed : Spout → Spout := Spout.onContext fun c => { c with claim := none }

/-- What an action of context `o` leaves: every spout but `o` and its BOUND follower, a claim withdrawn apart, and the slots of `N`. -/
structure State.Spares (o : SpoutId) (N : SlotId → Prop) (s t : State) : Prop where
  outside : ∀ m, m ≠ o → m ≠ followerOf o → t.spout m = s.spout m
  follower : followerOf o ≠ o → s.isBound (followerOf o) = false →
    (t.spout (followerOf o)).unclaimed = (s.spout (followerOf o)).unclaimed
  stages : ∀ m, m ≠ o → t.stage m = s.stage m
  slots : ∀ n, N n → SameSlot n s t
  wf : s.memory.wf = true → t.memory.wf = true

/-- The spouts that an action of context `o` may change. -/
def State.mayChange (s : State) (o m : SpoutId) : Prop := m = o ∨ (m = followerOf o ∧ s.isBound m = true)

/-- The context writes in a slot of its own, within the slot. -/
def State.WritesApart (s : State) (o : SpoutId) (N : SlotId → Prop) : Prop :=
  ∀ n, N n → s.memory.wf = true ∧ (s.context o).slot ≠ some n ∧ (s.compartment o).index < 12 ∧ (s.order o).count ≤ 12

theorem stage_of_unclaimed {i : SpoutId} {s t : State} (h : (t.spout i).unclaimed = (s.spout i).unclaimed) :
    t.stage i = s.stage i := (congrArg (fun p => p.context.stage) h :)

theorem isBound_of_unclaimed {i : SpoutId} {s t : State} (h : (t.spout i).unclaimed = (s.spout i).unclaimed) :
    t.isBound i = s.isBound i := congrArg (· == Stage.bound) (stage_of_unclaimed h)

namespace State.Spares

variable {o m : SpoutId} {N : SlotId → Prop} {s t u : State}

theorem refl (o : SpoutId) (N : SlotId → Prop) (s : State) : s.Spares o N s :=
  ⟨fun _ _ _ => rfl, fun _ _ => rfl, fun _ _ => rfl, fun n _ => .refl n s, id⟩

theorem trans (h : s.Spares o N t) (h' : t.Spares o N u) : s.Spares o N u where
  outside m ho hf := (h'.outside m ho hf).trans (h.outside m ho hf)
  follower hne hb := (h'.follower hne ((isBound_of_unclaimed (h.follower hne hb)).trans hb)).trans (h.follower hne hb)
  stages m ho := (h'.stages m ho).trans (h.stages m ho)
  slots n hn := (h.slots n hn).trans (h'.slots n hn)
  wf := h'.wf ∘ h.wf

/-- An update of a spout that may change; only that of the context itself may move a stage. -/
theorem update (h : s.Spares o N t) (hm : s.mayChange o m) {f : Spout → Spout}
    (hf : m = o ∨ ∀ p, (f p).context.stage = p.context.stage) : s.Spares o N (t.updateSpout m f) where
  outside j ho hf := by
    rw [State.spout_updateSpout_ne t (by obtain rfl | ⟨rfl, -⟩ := hm <;> assumption) f]
    exact h.outside j ho hf
  follower hne hb := by
    have hother : followerOf o ≠ m := by
      rintro rfl
      obtain e | ⟨-, hbound⟩ := hm
      · exact hne e
      · rw [hb] at hbound; cases hbound
    rw [State.spout_updateSpout_ne t hother f]
    exact h.follower hne hb
  stages j ho := by
    refine Eq.trans ?_ (h.stages j ho)
    obtain rfl | hj := eq_or_ne j m
    · rw [State.stage, State.context, State.spout_updateSpout_self]
      exact (hf.resolve_left ho) _
    · rw [State.stage, State.context, State.spout_updateSpout_ne t hj]; rfl
  slots n hn := (h.slots n hn).trans (sameSlot_updateSpout n t m f)
  wf := h.wf

theorem updateContext (h : s.Spares o N t) (f : Context → Context) : s.Spares o N (t.updateContext o f) :=
  h.update (f := Spout.onContext f) (.inl rfl) (.inl rfl)
theorem updateOrder (h : s.Spares o N t) (f : OrderState → OrderState) : s.Spares o N (t.updateOrder o f) :=
  h.update (f := Spout.onOrder f) (.inl rfl) (.inl rfl)
theorem updateCompartment (h : s.Spares o N t) (hm : s.mayChange o m) (f : Compartment → Compartment) :
    s.Spares o N (t.updateCompartment m f) := h.update (f := Spout.onCompartment f) hm (.inr fun _ => rfl)
theorem updateGate (h : s.Spares o N t) (hm : s.mayChange o m) (f : GateUnit → GateUnit) :
    s.Spares o N (t.updateGate m f) := h.update (f := Spout.onGate f) hm (.inr fun _ => rfl)
theorem endIntegration (h : s.Spares o N t) (hm : s.mayChange o m) : s.Spares o N (endIntegration m t) :=
  h.update (f := Spout.onChannel Channel.endCompartment) hm (.inr fun _ => rfl)

theorem memory (h : s.Spares o N t) (hu : SameButMemory t u) (hslots : ∀ n, N n → SameSlot n t u)
    (hw : t.memory.wf = true → u.memory.wf = true) : s.Spares o N u where
  outside j ho hf := (hu.spout j).trans (h.outside j ho hf)
  follower hne hb := by rw [hu.spout]; exact h.follower hne hb
  stages m ho := (congrArg (fun p => p.context.stage) (hu.spout m)).trans (h.stages m ho)
  slots n hn := (h.slots n hn).trans (hslots n hn)
  wf := hw ∘ h.wf

theorem refreshPanel (h : s.Spares o N t) (j : SpoutId) : s.Spares o N (refreshPanel j t) :=
  h.memory (sameButMemory_refreshPanel ..) (fun n _ => sameSlot_refreshPanel n j t) fun hw => wf_refreshPanel hw j

theorem setStage (h : s.Spares o N t) (x : Stage) : s.Spares o N (setStage o x t) := by
  unfold Machine.setStage; dsimp only; split
  · exact h.updateContext _
  · exact (h.updateContext _).refreshPanel o

theorem setPhase (h : s.Spares o N t) (hm : s.mayChange o m) (x : Phase) : s.Spares o N (setPhase m x t) := by
  have hset : s.Spares o N (t.updateContext m fun c => { c with phase := x }) :=
    h.update (f := Spout.onContext fun c => { c with phase := x }) hm (.inr fun _ => rfl)
  unfold Machine.setPhase; dsimp only; split
  · exact hset
  · exact hset.refreshPanel m

theorem restContext (h : s.Spares o N t) : s.Spares o N (restContext o t) := (h.updateContext _).setStage .idle

/-- The spouts of a compartment may change. -/
theorem mayChange_of_mem (h : s.Spares o N t) (hm : m ∈ t.members o) : s.mayChange o m := by
  unfold State.members at hm
  split at hm
  · next hb =>
    rw [Bool.and_eq_true] at hb
    obtain rfl | hf := List.mem_cons.1 hm
    · exact .inl rfl
    · obtain rfl := List.mem_singleton.1 hf
      by_cases hne : followerOf o = o
      · exact .inl hne
      · cases hs : s.isBound (followerOf o) with
        | true => exact .inr ⟨rfl, hs⟩
        | false =>
          rw [isBound_of_unclaimed (h.follower hne hs), hs] at hb
          cases hb.2
  · exact .inl (List.mem_singleton.1 hm)

theorem foldl (l : List SpoutId) (f : SpoutId → State → State) (hl : ∀ m ∈ l, s.mayChange o m)
    (hf : ∀ m u, s.mayChange o m → s.Spares o N u → s.Spares o N (f m u)) (h : s.Spares o N t) :
    s.Spares o N (l.foldl (fun t m => f m t) t) := by
  induction l generalizing t with
  | nil => exact h
  | cons m l ih =>
    exact ih (fun j hj => hl j (List.mem_cons_of_mem _ hj)) (hf m t (hl m List.mem_cons_self) h)

theorem forMembers (h : s.Spares o N t) {f : SpoutId → State → State}
    (hf : ∀ m u, s.mayChange o m → s.Spares o N u → s.Spares o N (f m u)) : s.Spares o N (forMembers o f t) :=
  foldl _ f (fun _ hm => h.mayChange_of_mem hm) hf h

theorem cutMember (h : s.Spares o N t) (hm : s.mayChange o m) : s.Spares o N (cutMember o m t) := by
  have hcut : s.Spares o N (cutGate m t) :=
    (h.updateGate hm (GateUnit.cut (t.closeTime m))).updateCompartment hm fun c => { c with closeAwaited := true }
  unfold Machine.cutMember setMemberPhase; split
  · split
    · exact hcut
    · exact hcut.setPhase hm .closing
  · exact h

theorem cut (h : s.Spares o N t) (reason : Option Code) : s.Spares o N (cut o reason t) :=
  ((h.forMembers fun _ _ hm hu => hu.cutMember hm).updateCompartment (.inl rfl) _).setStage .closing

theorem leaderWaits (h : s.Spares o N t) : s.Spares o N (leaderWaits o t) :=
  ((h.endIntegration (.inl rfl)).updateCompartment (.inl rfl) _).setStage .settling

/-- A claim withdrawn. -/
theorem withdrawClaim (h : s.Spares o N t) : s.Spares o N (withdrawClaim (followerOf o) t) := by
  unfold Machine.withdrawClaim; split
  · exact h
  · exact {
      outside := fun j ho hf => (State.spout_updateSpout_ne t hf _).trans (h.outside j ho hf)
      follower := fun hne hb => by
        rw [← h.follower hne hb]
        rw [State.updateContext, State.spout_updateSpout_self]; rfl
      stages := fun j ho => by
        refine Eq.trans ?_ (h.stages j ho)
        obtain rfl | hj := eq_or_ne j (followerOf o)
        · rw [State.stage_updateContext_self]; rfl
        · rw [State.stage_updateContext_ne t hj]
      slots := h.slots
      wf := h.wf }

/-- R117 steps 1 and 2, in the context's own slot. -/
theorem resetSlot (h : s.Spares o N t) (hw : t.WritesApart o N) {n : SlotId} (e : (t.context o).slot = some n) :
    s.Spares o N (writeResult n .reset .none noField (closeEntries n (t.order o).count (t.order o).total t)) := by
  refine h.memory ((sameButMemory_closeEntries ..).trans ⟨_, rfl⟩) (fun m hm => ?_) fun hwf =>
    Memory.wf_writeBytes (wf_closeEntries hwf ..) _ _
  obtain ⟨hwf, hne, -, hcount⟩ := hw m hm
  have hapart : m ≠ n := fun e' => hne (by rw [e, e'])
  exact (sameSlot_closeEntries hapart hwf hcount _).trans
    (sameSlot_writeSlot hapart _ 3 (by simp only [List.length_append, length_u8Bytes]; omega))

/-- R117: the end of an order under a soft reset. -/
theorem resetRest (h : s.Spares o N t) (hw : t.WritesApart o N) : s.Spares o N (resetRest o t) := by
  have hrest {u : State} (hu : s.Spares o N u) : s.Spares o N (if (t.order o).twin then
      Machine.withdrawClaim (followerOf o) (Machine.restContext o u) else Machine.restContext o u) := by
    split
    · exact (hu.restContext).withdrawClaim
    · exact hu.restContext
  unfold Machine.resetRest; dsimp only
  cases e : (t.context o).slot with
  | none => exact hrest h
  | some n => exact hrest (h.resetSlot hw e)

end State.Spares

end Sys2Proof.Machine

/-! The soft reset of one context (R49, R64, R117): it leaves RELEASING behind, and spares what is not its own. -/

namespace Sys2Proof.Machine

/-! ## A compartment that a soft reset ends -/

/-- R39 step 1, taken: the state whose entry the end of a compartment records. -/
def finalTaken (o : SpoutId) (s : State) : State := (takeFinal o (forMembers o endIntegration s)).1

theorem takeFinal_fst (o : SpoutId) (s : State) : ∃ c, (takeFinal o s).1 = { s with freeCount := c } := by
  unfold takeFinal
  split_ifs
  · exact ⟨s.freeCount, rfl⟩
  · exact ⟨s.freeCount + 1, rfl⟩
  · exact ⟨s.freeCount, rfl⟩

theorem context_forMembers_endIntegration (o j : SpoutId) (s : State) :
    (forMembers o endIntegration s).context j = s.context j := by
  unfold forMembers
  generalize s.members o = l
  induction l generalizing s with
  | nil => rfl
  | cons m l ih =>
    have hone : (endIntegration m s).context j = s.context j := State.context_updateChannel ..
    exact (ih (endIntegration m s)).trans hone

theorem context_finalTaken (o j : SpoutId) (s : State) : (finalTaken o s).context j = s.context j := by
  obtain ⟨c, hc⟩ := takeFinal_fst o (forMembers o endIntegration s)
  unfold finalTaken
  rw [hc]
  exact context_forMembers_endIntegration o j s

/-- R104: the record of an entry, in a slot or in none. -/
theorem spout_recorded (o : SpoutId) (code : Code) (final : Nat) (s : State) :
    (recordedAs o code final s).spout o = (s.spout o).recorded code final := by
  cases h : (s.context o).slot with
  | some n => exact spout_recordedAs h code final
  | none =>
    have hnone : recordedAs o code final s
        = (s.updateOrder o fun x => { x with total := x.total + final }).updateOrder o fun x =>
          { x with mark := x.mark.strongest code.mark } := by
      unfold recordedAs markOrder recordEntry; dsimp only
      rw [State.context_updateOrder_self, h]
    rw [hnone]
    exact (((Becomes.refl o none s).updateOrder fun x => { x with total := x.total + final }).updateOrder
      fun x => { x with mark := x.mark.strongest code.mark }).spout

theorem context_recordedAs (o : SpoutId) (code : Code) (final : Nat) (s : State) :
    (recordedAs o code final s).context o = { s.context o with order := { s.order o with
      total := (s.order o).total + final, mark := (s.order o).mark.strongest code.mark } } :=
  congrArg Spout.context (spout_recorded o code final s)

theorem EndMark.reset_strongest (m : EndMark) : EndMark.reset.strongest m = .reset := by cases m <;> decide

/-- R49, R117: the end of a compartment whose order is to end RESET. -/
theorem finishCompartment_markedReset (k : Reaction) {o : SpoutId} {s : State} (h : (s.order o).mark = .reset) :
    ∃ final, finishCompartment k o false s = resetRest o (recordedAs o .reset final (finalTaken o s)) := by
  have hcontext := context_finalTaken o o s
  have hmark : ((finalTaken o s).order o).mark = .reset := (congrArg (fun c => c.order.mark) hcontext).trans h
  refine ⟨(takeFinal o (forMembers o endIntegration s)).2, ?_⟩
  have hcode : compartmentCode ((finalTaken o s).order o) ((finalTaken o s).compartment o)
      (takeFinal o (forMembers o endIntegration s)).2 = .reset := if_pos hmark
  have hreset : ((recordedAs o .reset (takeFinal o (forMembers o endIntegration s)).2 (finalTaken o s)).order o).mark = .reset := by
    refine (congrArg (fun c => c.order.mark) (context_recordedAs ..)).trans ?_
    show ((finalTaken o s).order o).mark.strongest _ = .reset
    rw [hmark]; exact EndMark.reset_strongest _
  unfold finishCompartment; dsimp only
  rw [handRecord_unsettled, ← finalTaken, hcode, ← recordedAs, if_pos hreset]

/-! ## What the context spares -/

/-- The context holds no other slot, and no higher entry. -/
theorem State.WritesApart.of_context {o : SpoutId} {N : SlotId → Prop} {s t : State} (h : s.WritesApart o N)
    (hslot : ∀ n, (t.context o).slot = some n → (s.context o).slot = some n)
    (hindex : (t.compartment o).index = (s.compartment o).index) (hcount : (t.order o).count = (s.order o).count)
    (hwf : s.memory.wf = true → t.memory.wf = true) : t.WritesApart o N := fun n hn => by
  obtain ⟨hw, hne, hi, hc⟩ := h n hn
  exact ⟨hwf hw, fun e => hne (hslot n e), by rw [hindex]; exact hi, by rw [hcount]; exact hc⟩

theorem State.WritesApart.same {o : SpoutId} {N : SlotId → Prop} {s t : State} (h : s.WritesApart o N)
    (hc : t.context o = s.context o) (hwf : s.memory.wf = true → t.memory.wf = true) : t.WritesApart o N :=
  h.of_context (fun _ e => (congrArg (fun c => c.slot) hc).symm.trans e) (congrArg (fun c => c.compartment.index) hc)
    (congrArg (fun c => c.order.count) hc) hwf

namespace State.Spares

variable {o m : SpoutId} {N : SlotId → Prop} {s t : State}

theorem finalTaken (h : s.Spares o N t) : s.Spares o N (finalTaken o t) := by
  have hended : s.Spares o N (Machine.forMembers o Machine.endIntegration t) := h.forMembers fun _ _ hm hu => hu.endIntegration hm
  obtain ⟨c, hc⟩ := takeFinal_fst o (Machine.forMembers o Machine.endIntegration t)
  unfold Machine.finalTaken
  rw [hc]
  exact ⟨hended.outside, hended.follower, hended.stages, hended.slots, hended.wf⟩

theorem recordedAs (h : s.Spares o N t) (hw : t.WritesApart o N) (code : Code) (final : Nat) :
    s.Spares o N (recordedAs o code final t) := by
  have htotal := h.updateOrder fun x => { x with total := x.total + final }
  unfold Machine.recordedAs markOrder recordEntry; dsimp only
  rw [State.context_updateOrder_self]; dsimp only
  cases e : (t.context o).slot with
  | none => exact htotal.updateOrder _
  | some n =>
    refine updateOrder (htotal.memory ((sameButMemory_writeEntry ..).trans (sameButMemory_writeProgress ..)) (fun m hm => ?_)
      fun hwf => wf_writeProgress (Memory.wf_writeBytes (Memory.wf_writeBytes hwf _ _) _ _) ..) _
    obtain ⟨-, hne, hindex, -⟩ := hw m hm
    have hapart : m ≠ n := fun e' => hne (by rw [e, e'])
    exact ((OrderFrame.writeEntry o n hindex code _ _ final _).slots m hapart).trans
      ((OrderFrame.writeProgress o n _ _ _).slots m hapart)

theorem finishCompartment_reset (h : s.Spares o N t) (hw : t.WritesApart o N) (hm : (t.order o).mark = .reset) (k : Reaction) :
    s.Spares o N (finishCompartment k o false t) := by
  obtain ⟨final, hfinish⟩ := finishCompartment_markedReset k hm
  have htaken := h.finalTaken
  have hcontext := context_finalTaken o o t
  have hwf : t.memory.wf = true → (Machine.finalTaken o t).memory.wf = true := (refl o N t).finalTaken.wf
  have hw' : (Machine.finalTaken o t).WritesApart o N := hw.same hcontext hwf
  have hrecord := context_recordedAs o .reset final (Machine.finalTaken o t)
  rw [hfinish]
  exact (htaken.recordedAs hw' .reset final).resetRest (hw'.of_context (fun _ e => (congrArg (fun c => c.slot) hrecord).symm.trans e)
    (congrArg (fun c => c.compartment.index) hrecord) (congrArg (fun c => c.order.count) hrecord)
    ((refl o N _).recordedAs hw' .reset final).wf)

end State.Spares

/-! ## The soft reset by the stage -/

theorem stage_setStage (i : SpoutId) (x : Stage) (s : State) : (setStage i x s).stage i = x :=
  (congrArg (fun p => p.context.stage) (spout_setStage i x s) :)

theorem unclaimed_withdrawClaim (f j : SpoutId) (s : State) :
    ((withdrawClaim f s).spout j).unclaimed = (s.spout j).unclaimed := by
  unfold withdrawClaim; split
  · rfl
  · obtain rfl | hj := eq_or_ne j f
    · rw [State.updateContext, State.spout_updateSpout_self]; rfl
    · rw [State.updateContext, State.spout_updateSpout_ne s hj]

/-- R117: the context whose order a soft reset has ended. -/
theorem unclaimed_resetRest (o : SpoutId) (s : State) :
    ((resetRest o s).spout o).unclaimed = (s.spout o).resting.unclaimed := by
  have hrest {u : State} (hu : u.spout o = s.spout o) : ((if (s.order o).twin then withdrawClaim (followerOf o) (restContext o u)
      else restContext o u).spout o).unclaimed = (s.spout o).resting.unclaimed := by
    have hspout : (restContext o u).spout o = (s.spout o).resting := by
      rw [spout_restContext, State.context, hu]; rfl
    split
    · rw [unclaimed_withdrawClaim, hspout]
    · rw [hspout]
  unfold resetRest; dsimp only
  cases (s.context o).slot with
  | none => exact hrest rfl
  | some n => exact hrest (((sameButMemory_closeEntries n (s.order o).count (s.order o).total s).trans ⟨_, rfl⟩).spout o)

theorem stage_resetRest (o : SpoutId) (s : State) : (resetRest o s).stage o = .idle :=
  (congrArg (fun p => p.context.stage) (unclaimed_resetRest o s) :)

theorem stage_finishCompartment_reset (k : Reaction) {o : SpoutId} {s : State} (h : (s.order o).mark = .reset) :
    (finishCompartment k o false s).stage o = .idle := by
  obtain ⟨final, hfinish⟩ := finishCompartment_markedReset k h
  rw [hfinish]
  exact stage_resetRest ..

theorem spout_leaderWaits (o : SpoutId) (s : State) : (leaderWaits o s).spout o
    = (((s.spout o).frozen).onCompartment fun c => { c with noSettle := true }).onStage .settling := by
  have hended := (Becomes.refl o none s).endIntegration
  exact ((hended.updateCompartment fun c => { c with noSettle := true }).setStage .settling).spout

/-- R49: what marks the context for its end. -/
theorem spout_setResetCause_markReset (o : SpoutId) (s : State) : (setResetCause o (markReset o s)).spout o
    = ((s.spout o).onOrder fun x => { x with mark := .reset }).onCompartment (Compartment.setCause (some .reset)) :=
  (((Becomes.refl o none s).updateOrder fun x => { x with mark := .reset }).updateCompartment (Compartment.setCause (some .reset))).spout

theorem mark_setResetCause_markReset (o : SpoutId) (s : State) : ((setResetCause o (markReset o s)).order o).mark = .reset :=
  (congrArg (fun p => p.context.order.mark) (spout_setResetCause_markReset o s) :)

theorem stage_setResetCause_markReset (o : SpoutId) (s : State) : (setResetCause o (markReset o s)).stage o = s.stage o :=
  (congrArg (fun p => p.context.stage) (spout_setResetCause_markReset o s) :)

/-- R49: no context stays in RELEASING, and only a TWIN's leader waits in SETTLING. -/
theorem stage_softResetContext (o : SpoutId) (s : State) : (softResetContext o s).stage o ≠ .releasing := by
  have hcut (u : State) : (cut o (some .reset) u).stage o ≠ .releasing := by
    unfold cut; rw [stage_setStage]; decide
  have hrest (u : State) : (resetRest o u).stage o ≠ .releasing := by rw [stage_resetRest]; decide
  have hwaits (u : State) : (leaderWaits o u).stage o ≠ .releasing := by
    unfold leaderWaits; rw [stage_setStage]; decide
  have hmark := mark_setResetCause_markReset o s
  have hstage := stage_setResetCause_markReset o s
  unfold softResetContext
  cases h : s.stage o with
  | idle => dsimp only; rw [h]; decide
  | bound => dsimp only; rw [h]; decide
  | waitIndex => exact hrest _
  | engaging => exact hrest _
  | releasing => exact hrest _
  | zeroing => exact hrest _
  | zeroRun => exact (stage_setStage o .idle _).symm ▸ by decide
  | opening => exact hcut _
  | coarse => exact hcut _
  | fine => exact hcut _
  | trim => exact hcut _
  | closing =>
    dsimp only
    split
    · exact hwaits _
    · rw [hstage, h]; decide
  | settling =>
    dsimp only
    split
    · exact hwaits _
    · rw [stage_finishCompartment_reset react hmark]; decide

end Sys2Proof.Machine

/-! The soft reset of the pairs (R49, R64, R175): what it spares of a spout of another pair, and of one that works by itself. -/

namespace Sys2Proof.Machine

namespace State.Spares

variable {o : SpoutId} {N : SlotId → Prop} {s t : State}

theorem resetEntry (h : s.Spares o N t) (hw : t.WritesApart o N) : s.Spares o N (resetEntry o t) := by
  unfold Machine.resetEntry
  split
  · next n e =>
    refine h.memory ⟨_, rfl⟩ (fun m hm => ?_) fun hwf => wf_writeEntryCode hwf ..
    obtain ⟨-, hne, hindex, -⟩ := hw m hm
    have hapart : m ≠ n := fun e' => hne (by rw [e, e'])
    unfold writeEntryCode
    rw [Nat.add_assoc]
    exact sameSlot_writeSlot hapart t _ (by rw [length_u8Bytes]; unfold entryOffset; omega)
  · exact h

end State.Spares

theorem spout_markReset (o : SpoutId) (s : State) :
    (markReset o s).spout o = (s.spout o).onOrder fun x => { x with mark := .reset } := State.spout_updateSpout_self ..

section Context

variable {o : SpoutId} {N : SlotId → Prop} {s : State}

theorem writesApart_markReset (hw : s.WritesApart o N) : (markReset o s).WritesApart o N :=
  have hcontext : (markReset o s).context o = { s.context o with order := { s.order o with mark := .reset } } :=
    congrArg Spout.context (spout_markReset o s)
  hw.of_context (fun _ e => (congrArg (fun c => c.slot) hcontext).symm.trans e) (congrArg (fun c => c.compartment.index) hcontext)
    (congrArg (fun c => c.order.count) hcontext) id

theorem setCause_index (c : Compartment) (reason : Option Code) : (c.setCause reason).index = c.index := by
  unfold Compartment.setCause; split <;> rfl

theorem writesApart_setResetCause (hw : s.WritesApart o N) : (setResetCause o (markReset o s)).WritesApart o N :=
  have hspout := spout_setResetCause_markReset o s
  hw.of_context (fun _ e => (congrArg (fun p => p.context.slot) hspout).symm.trans e)
    ((congrArg (fun p => p.context.compartment.index) hspout).trans (setCause_index ..))
    (congrArg (fun p => p.context.order.count) hspout) id

/-- R49: the soft reset of one context. -/
theorem spares_softResetContext (hw : s.WritesApart o N) : s.Spares o N (softResetContext o s) := by
  have hmarked : s.Spares o N (markReset o s) := (State.Spares.refl o N s).updateOrder _
  have hcaused : s.Spares o N (setResetCause o (markReset o s)) := hmarked.updateCompartment (.inl rfl) _
  have hrest := hmarked.resetRest (writesApart_markReset hw)
  have hcut := hmarked.cut (some .reset)
  unfold softResetContext
  split
  · exact .refl o N s
  · exact .refl o N s
  · exact hrest
  · exact hrest
  · exact hrest
  · refine (hmarked.resetEntry (writesApart_markReset hw)).resetRest ((writesApart_markReset hw).same ?_ ?_)
    · unfold resetEntry; split <;> rfl
    · exact ((State.Spares.refl o N _).resetEntry (writesApart_markReset hw)).wf
  · exact (State.Spares.refl o N s).restContext
  · exact hcut
  · exact hcut
  · exact hcut
  · exact hcut
  · dsimp only; split
    · exact hcaused.leaderWaits
    · exact hcaused
  · dsimp only; split
    · exact hcaused.leaderWaits
    · exact hcaused.finishCompartment_reset (writesApart_setResetCause hw) (mark_setResetCause_markReset o s) react

/-- R64: a leader that waits in SETTLING holds what it held. -/
theorem writesApart_softResetContext (hw : s.WritesApart o N) (hs : (softResetContext o s).stage o = .settling) :
    (softResetContext o s).WritesApart o N := by
  have hcaused := writesApart_setResetCause hw
  have hwaits : (leaderWaits o (setResetCause o (markReset o s))).WritesApart o N := by
    have hspout := spout_leaderWaits o (setResetCause o (markReset o s))
    generalize setResetCause o (markReset o s) = u at *
    exact hcaused.of_context (fun _ e => (congrArg (fun p => p.context.slot) hspout).symm.trans e)
      (congrArg (fun p => p.context.compartment.index) hspout) (congrArg (fun p => p.context.order.count) hspout)
      ((State.Spares.refl o N u).leaderWaits).wf
  have hstage := stage_setResetCause_markReset o s
  have hcut (u : State) : (cut o (some .reset) u).stage o ≠ .settling := by
    unfold cut; rw [stage_setStage]; decide
  have hrest (u : State) : (resetRest o u).stage o ≠ .settling := by rw [stage_resetRest]; decide
  unfold softResetContext at hs ⊢
  cases h : s.stage o with
  | idle => rw [h] at hs; exact absurd (h.symm.trans hs) (by decide)
  | bound => rw [h] at hs; exact absurd (h.symm.trans hs) (by decide)
  | waitIndex => rw [h] at hs; exact absurd hs (hrest _)
  | engaging => rw [h] at hs; exact absurd hs (hrest _)
  | releasing => rw [h] at hs; exact absurd hs (hrest _)
  | zeroing => rw [h] at hs; exact absurd hs (hrest _)
  | zeroRun => rw [h] at hs; exact absurd ((stage_setStage o .idle _).symm.trans hs) (by decide)
  | opening => rw [h] at hs; exact absurd hs (hcut _)
  | coarse => rw [h] at hs; exact absurd hs (hcut _)
  | fine => rw [h] at hs; exact absurd hs (hcut _)
  | trim => rw [h] at hs; exact absurd hs (hcut _)
  | closing =>
    dsimp only; split
    · exact hwaits
    · exact hcaused
  | settling =>
    rw [h] at hs
    dsimp only at hs ⊢; split
    · exact hwaits
    · next htwin =>
      rw [if_neg htwin, stage_finishCompartment_reset react (mark_setResetCause_markReset o s)] at hs
      cases hs

end Context

end Sys2Proof.Machine

/-! The soft reset of the pairs (R49, R64, R175): a spout that works by itself meets its own context's reset alone. -/

namespace Sys2Proof.Machine

/-! ## The context's own reset -/

/-- R49: the spout whose context, working by itself, a soft reset has reached. -/
def Spout.softReset (p : Spout) : Spout :=
  match p.context.stage with
  | .idle | .bound => p
  | .waitIndex | .engaging | .zeroing | .releasing | .zeroRun => p.resting
  | .opening | .coarse | .fine | .trim => (p.onOrder fun o => { o with mark := .reset }).cut (some .reset)
  | .closing => (p.onOrder fun o => { o with mark := .reset }).onCompartment (Compartment.setCause (some .reset))
  | .settling => p.frozen.resting

section Own

variable {i : SpoutId} {s : State} (ht : s.isTwin i = false)
include ht

theorem unclaimed_softResetContext : ((softResetContext i s).spout i).unclaimed = (s.spout i).softReset.unclaimed := by
  have hmarked : Becomes i none ((s.spout i).onOrder fun o => { o with mark := .reset }) s.port s (markReset i s) :=
    (Becomes.refl i none s).updateOrder fun o => { o with mark := .reset }
  have hrest : ((resetRest i (markReset i s)).spout i).unclaimed = (s.spout i).resting.unclaimed := by
    rw [unclaimed_resetRest, spout_markReset]; rfl
  have hcut : ((cut i (some .reset) (markReset i s)).spout i).unclaimed
      = (((s.spout i).onOrder fun o => { o with mark := .reset }).cut (some .reset)).unclaimed :=
    congrArg Spout.unclaimed (hmarked.cut ht (some .reset)).spout
  have hspout := spout_setResetCause_markReset i s
  have htwin : (setResetCause i (markReset i s)).isTwin i = false := (congrArg (fun p => p.context.order.twin) hspout).trans ht
  unfold softResetContext Spout.softReset
  rw [show (s.spout i).context.stage = s.stage i from rfl]
  cases s.stage i with
  | idle => rfl
  | bound => rfl
  | waitIndex => exact hrest
  | engaging => exact hrest
  | releasing => exact hrest
  | zeroing =>
    dsimp only
    have hentry : (resetEntry i (markReset i s)).spout i = (markReset i s).spout i := by
      unfold resetEntry; split <;> rfl
    rw [unclaimed_resetRest, hentry, spout_markReset]; rfl
  | zeroRun => exact congrArg Spout.unclaimed (spout_restContext i s)
  | opening => exact hcut
  | coarse => exact hcut
  | fine => exact hcut
  | trim => exact hcut
  | closing =>
    dsimp only
    rw [htwin, Bool.false_and, if_neg Bool.false_ne_true, hspout]
  | settling =>
    dsimp only
    rw [htwin, if_neg Bool.false_ne_true]
    obtain ⟨final, hfinish⟩ := finishCompartment_markedReset react (mark_setResetCause_markReset i s)
    have htaken : (finalTaken i (setResetCause i (markReset i s))).spout i
        = ((setResetCause i (markReset i s)).spout i).frozen := by
      obtain ⟨c, hc⟩ := takeFinal_fst i (endIntegration i (setResetCause i (markReset i s)))
      unfold finalTaken
      rw [forMembers_single htwin, hc]
      exact spout_endIntegration i _
    rw [hfinish, unclaimed_resetRest, spout_recorded, htaken, hspout]; rfl

end Own

/-! ## The pairs -/

/-- What is left alone of spout `i`, a claim withdrawn apart, and of the slots of `N`. -/
structure State.LeavesAlone (i : SpoutId) (N : SlotId → Prop) (s t : State) : Prop where
  spout : (t.spout i).unclaimed = (s.spout i).unclaimed
  slots : ∀ n, N n → SameSlot n s t
  wf : s.memory.wf = true → t.memory.wf = true

namespace State.LeavesAlone

variable {i : SpoutId} {N : SlotId → Prop} {s t u : State}

theorem refl (i : SpoutId) (N : SlotId → Prop) (s : State) : s.LeavesAlone i N s := ⟨rfl, fun n _ => .refl n s, id⟩

theorem trans (h : s.LeavesAlone i N t) (h' : t.LeavesAlone i N u) : s.LeavesAlone i N u :=
  ⟨h'.spout.trans h.spout, fun n hn => (h.slots n hn).trans (h'.slots n hn), h'.wf ∘ h.wf⟩

end State.LeavesAlone

theorem State.Spares.leavesAlone {o i : SpoutId} {N : SlotId → Prop} {s t : State} (h : s.Spares o N t) (hne : i ≠ o)
    (hi : i = followerOf o → s.isBound i = false) : s.LeavesAlone i N t where
  spout := by
    by_cases e : i = followerOf o
    · subst e; exact h.follower hne (hi rfl)
    · rw [h.outside i hne e]
  slots := h.slots
  wf := h.wf

/-- No slot. -/
def noSlot (_ : SlotId) : Prop := False

theorem writesApart_noSlot (o : SpoutId) (s : State) : s.WritesApart o noSlot := fun _ hn => hn.elim

/-- A context writes apart where it did, if it is the same but for a claim. -/
theorem State.WritesApart.of_unclaimed {o : SpoutId} {N : SlotId → Prop} {s t : State} (h : s.WritesApart o N)
    (hu : (t.spout o).unclaimed = (s.spout o).unclaimed) (hwf : s.memory.wf = true → t.memory.wf = true) : t.WritesApart o N :=
  h.of_context (fun _ e => (congrArg (fun p => p.context.slot) hu).symm.trans e)
    (congrArg (fun p => p.context.compartment.index) hu) (congrArg (fun p => p.context.order.count) hu) hwf

/-- R64: what follows in a BOUND follower. -/
theorem spares_softResetFollower {f : SpoutId} {N : SlotId → Prop} (s : State) : s.Spares f N (softResetFollower f s) := by
  unfold softResetFollower; split
  · exact (((State.Spares.refl f N s).endIntegration (.inl rfl)).updateContext _).restContext
  · exact .refl f N s

/-- R64: the check at the end of a pair's reset. -/
theorem spares_resetCheck {o : SpoutId} {N : SlotId → Prop} {s : State} (hw : s.stage o = .settling → s.WritesApart o N) :
    s.Spares o N (resetCheck react o s) := by
  unfold resetCheck; split
  · next h =>
    obtain ⟨-, hmark, hstage, -⟩ := h
    exact (State.Spares.refl o N s).finishCompartment_reset (hw hstage) hmark react
  · exact .refl o N s

/-- The second context of a pair, after the first. -/
def softResetSecond (f : SpoutId) (wasBound : Bool) (s : State) : State :=
  if wasBound then softResetFollower f s else softResetContext f s

theorem softResetPair_eq (o : SpoutId) (s : State) : softResetPair o s
    = resetCheck react o (softResetSecond (followerOf o) (s.isBound (followerOf o)) (softResetContext o s)) := rfl

section Pair

variable {o : SpoutId} (heven : o.val % 2 = 0) {N : SlotId → Prop} {s : State}
include heven

theorem followerOf_followerOf : followerOf (followerOf o) = followerOf o := by
  revert heven; revert o; decide

/-- The second context of a pair leaves the first alone. -/
theorem spares_softResetSecond (hwf : s.isBound (followerOf o) = false → s.WritesApart (followerOf o) N) :
    (softResetContext o s).Spares (followerOf o) N
      (softResetSecond (followerOf o) (s.isBound (followerOf o)) (softResetContext o s)) := by
  unfold softResetSecond
  cases hb : s.isBound (followerOf o) with
  | true => exact spares_softResetFollower _
  | false =>
    have hfirst := spares_softResetContext (writesApart_noSlot o s)
    exact spares_softResetContext ((hwf hb).of_unclaimed (hfirst.follower (followerOf_ne heven) hb) hfirst.wf)

theorem spout_softResetSecond : (softResetSecond (followerOf o) (s.isBound (followerOf o)) (softResetContext o s)).spout o
    = (softResetContext o s).spout o :=
  (spares_softResetSecond heven fun _ => writesApart_noSlot _ s).outside o (followerOf_ne heven).symm
    (by rw [followerOf_followerOf heven]; exact (followerOf_ne heven).symm)

theorem writesApart_resetCheck (hw : s.WritesApart o N)
    (hs : (softResetSecond (followerOf o) (s.isBound (followerOf o)) (softResetContext o s)).stage o = .settling) :
    (softResetSecond (followerOf o) (s.isBound (followerOf o)) (softResetContext o s)).WritesApart o N := by
  have hspout := spout_softResetSecond heven (s := s)
  refine (writesApart_softResetContext hw ((congrArg (fun p => p.context.stage) hspout).symm.trans hs)).of_unclaimed
    (congrArg Spout.unclaimed hspout) (spares_softResetSecond heven fun _ => writesApart_noSlot _ s).wf

/-- R49, R64: a pair's reset leaves the spouts of the other pairs as they are. -/
theorem softResetPair_outside (ho : s.WritesApart o N) (hf : s.WritesApart (followerOf o) N) :
    (∀ m, m ≠ o → m ≠ followerOf o → (softResetPair o s).spout m = s.spout m)
      ∧ (∀ n, N n → SameSlot n s (softResetPair o s)) ∧ (s.memory.wf = true → (softResetPair o s).memory.wf = true) := by
  have hfirst := spares_softResetContext ho
  have hsecond := spares_softResetSecond heven (s := s) fun _ => hf
  have hcheck := spares_resetCheck (writesApart_resetCheck heven ho)
  rw [softResetPair_eq]
  refine ⟨fun m hmo hmf => ?_, fun n hn => ((hfirst.slots n hn).trans (hsecond.slots n hn)).trans (hcheck.slots n hn),
    hcheck.wf ∘ hsecond.wf ∘ hfirst.wf⟩
  rw [hcheck.outside m hmo hmf, hsecond.outside m hmf (by rw [followerOf_followerOf heven]; exact hmf), hfirst.outside m hmo hmf]

/-- R49: no context of a pair stays in RELEASING. -/
theorem stage_softResetPair :
    (softResetPair o s).stage o ≠ .releasing ∧ (softResetPair o s).stage (followerOf o) ≠ .releasing := by
  have hsecond : (softResetSecond (followerOf o) (s.isBound (followerOf o)) (softResetContext o s)).stage (followerOf o)
      ≠ .releasing := by
    have hkept : (softResetContext o s).stage (followerOf o) = s.stage (followerOf o) :=
      (spares_softResetContext (writesApart_noSlot o s)).stages _ (followerOf_ne heven)
    unfold softResetSecond
    split
    · next hb =>
      unfold softResetFollower; split
      · exact (stage_setStage (followerOf o) .idle _).symm ▸ nofun
      · rw [hkept, beq_iff_eq.1 hb]; decide
    · exact stage_softResetContext _ _
  have hfirst : (softResetSecond (followerOf o) (s.isBound (followerOf o)) (softResetContext o s)).stage o ≠ .releasing := by
    rw [State.stage, State.context, spout_softResetSecond heven]
    exact stage_softResetContext o s
  have hcheck := spares_resetCheck (writesApart_resetCheck heven (writesApart_noSlot o s))
  rw [softResetPair_eq]
  refine ⟨?_, by rw [hcheck.stages _ (followerOf_ne heven)]; exact hsecond⟩
  unfold resetCheck; split
  · next h => rw [stage_finishCompartment_reset react h.2.1]; decide
  · exact hfirst

end Pair

end Sys2Proof.Machine

/-! The soft reset of all pairs (R49, R64, R175), seen from a spout that works by itself. -/

namespace Sys2Proof.Machine

/-- The spouts of a pair. -/
theorem ne_of_leaderOf_ne {o m : SpoutId} (heven : o.val % 2 = 0) (h : leaderOf m ≠ o) : m ≠ o ∧ m ≠ followerOf o := by
  revert h heven; revert o m; decide

theorem eq_or_eq_of_leaderOf {o m : SpoutId} (h : leaderOf m = o) : m = o ∨ m = followerOf o := by
  revert h; revert o m; decide

theorem leaderOf_even (m : SpoutId) : (leaderOf m).val % 2 = 0 := by revert m; decide

theorem leaderOf_of_even {o : SpoutId} (h : o.val % 2 = 0) : leaderOf o = o := by revert o; decide

theorem Spout.order_cut (reason : Option Code) (p : Spout) : (p.cut reason).context.order = p.context.order := by
  show (p.context.cutGate p.closeTime).order = _
  unfold Context.cutGate
  split <;> rfl

theorem Spout.twin_softReset {p : Spout} (h : p.context.order.twin = false) : p.softReset.context.order.twin = false := by
  have hcut : ((p.onOrder fun o => { o with mark := .reset }).cut (some .reset)).context.order.twin = false := by
    rw [Spout.order_cut]; exact h
  unfold Spout.softReset
  cases p.context.stage with
  | idle | bound | closing => exact h
  | waitIndex | engaging | zeroing | releasing | zeroRun | settling => rfl
  | opening | coarse | fine | trim => exact hcut

/-- R49: the spout has met its own context's reset, between actions that leave it alone. -/
def State.ResetAlone (i : SpoutId) (N : SlotId → Prop) (s t : State) : Prop :=
  ∃ u, s.LeavesAlone i N u ∧ (softResetContext i u).LeavesAlone i N t

section Alone

variable {i o : SpoutId} (heven : o.val % 2 = 0) {N : SlotId → Prop} {s : State}
include heven

theorem leavesAlone_softResetPair (hi : leaderOf i ≠ o) (ho : s.WritesApart o N) (hf : s.WritesApart (followerOf o) N) :
    s.LeavesAlone i N (softResetPair o s) := by
  obtain ⟨hio, hif⟩ := ne_of_leaderOf_ne heven hi
  obtain ⟨hspout, hslots, hwf⟩ := softResetPair_outside heven ho hf
  exact ⟨congrArg Spout.unclaimed (hspout i hio hif), hslots, hwf⟩

theorem resetAlone_softResetPair (hi : leaderOf i = o) (hs : s.single i) (hN : ∀ c, c ≠ i → leaderOf c = o → s.WritesApart c N) :
    s.ResetAlone i N (softResetPair o s) := by
  have hne := followerOf_ne heven
  have hself : leaderOf o = o := leaderOf_of_even heven
  have hfollower : leaderOf (followerOf o) = o := leaderOf_followerOf heven
  rw [softResetPair_eq]
  obtain rfl | rfl := eq_or_eq_of_leaderOf hi
  · have hsecond := spares_softResetSecond heven (s := s) fun _ => hN _ hne hfollower
    have hspout := spout_softResetSecond heven (s := s)
    have htwin : (softResetSecond (followerOf i) (s.isBound (followerOf i)) (softResetContext i s)).isTwin i = false := by
      have hmet : ((softResetSecond (followerOf i) (s.isBound (followerOf i)) (softResetContext i s)).spout i).unclaimed
          = (s.spout i).softReset.unclaimed := (congrArg Spout.unclaimed hspout).trans (unclaimed_softResetContext hs.1)
      exact (congrArg (fun p => p.context.order.twin) hmet).trans (Spout.twin_softReset hs.1)
    refine ⟨s, .refl i N s, ?_⟩
    rw [show resetCheck react i (softResetSecond (followerOf i) (s.isBound (followerOf i)) (softResetContext i s))
      = softResetSecond (followerOf i) (s.isBound (followerOf i)) (softResetContext i s) from
      if_neg fun c => by rw [htwin] at c; exact Bool.false_ne_true c.1]
    exact ⟨congrArg Spout.unclaimed hspout, hsecond.slots, hsecond.wf⟩
  · have hleader := hN o hne.symm hself
    have hfirst := (spares_softResetContext hleader).leavesAlone hne fun _ => hs.2
    refine ⟨softResetContext o s, hfirst, ?_⟩
    have hsecond : softResetSecond (followerOf o) (s.isBound (followerOf o)) (softResetContext o s)
        = softResetContext (followerOf o) (softResetContext o s) := by
      unfold softResetSecond
      rw [hs.2, if_neg Bool.false_ne_true]
    have hapart := writesApart_resetCheck heven hleader
    rw [hsecond] at hapart ⊢
    by_cases hbound : (softResetContext (followerOf o) (softResetContext o s)).isBound (followerOf o) = true
    · rw [show resetCheck react o (softResetContext (followerOf o) (softResetContext o s))
        = softResetContext (followerOf o) (softResetContext o s) from if_neg fun c => c.2.2.2 hbound]
      exact .refl ..
    · exact (spares_resetCheck hapart).leavesAlone hne fun _ => Bool.eq_false_iff.2 hbound

end Alone

/-- R175 step 4: the pairs, one after the other. -/
def softResetPairs (l : List SpoutId) (s : State) : State := l.foldl (fun t o => softResetPair o t) s

section Pairs

variable {i : SpoutId} {N : SlotId → Prop}

theorem writesApart_softResetPair {o c : SpoutId} (heven : o.val % 2 = 0) (hc : leaderOf c ≠ o) {s : State}
    (hw : s.WritesApart c N) : (softResetPair o s).WritesApart c N := by
  obtain ⟨hco, hcf⟩ := ne_of_leaderOf_ne heven hc
  obtain ⟨hspout, -, hwf⟩ := softResetPair_outside heven (writesApart_noSlot o s) (writesApart_noSlot (followerOf o) s)
  exact hw.of_unclaimed (congrArg Spout.unclaimed (hspout c hco hcf)) hwf

theorem leavesAlone_softResetPairs {l : List SpoutId} (heven : ∀ o ∈ l, o.val % 2 = 0) (hl : l.Nodup) (hi : leaderOf i ∉ l)
    {s : State} (hN : ∀ c, leaderOf c ∈ l → s.WritesApart c N) : s.LeavesAlone i N (softResetPairs l s) := by
  induction l generalizing s with
  | nil => exact .refl i N s
  | cons o l ih =>
    have ho := heven o List.mem_cons_self
    obtain ⟨hnot, hl'⟩ := List.nodup_cons.1 hl
    rw [List.mem_cons, not_or] at hi
    have hself : leaderOf o = o := leaderOf_of_even ho
    refine (leavesAlone_softResetPair ho hi.1 (hN o ?_) (hN _ ?_)).trans
      (ih (fun j hj => heven j (List.mem_cons_of_mem _ hj)) hl' hi.2 fun c hc => ?_)
    · rw [hself]; exact List.mem_cons_self
    · rw [leaderOf_followerOf ho]; exact List.mem_cons_self
    · exact writesApart_softResetPair ho (fun e => hnot (e ▸ hc)) (hN c (List.mem_cons_of_mem _ hc))

theorem single_of_leavesAlone {s t : State} (h : s.LeavesAlone i N t) (hs : s.single i) : t.single i :=
  ⟨(congrArg (fun p => p.context.order.twin) h.spout).trans hs.1, (isBound_of_unclaimed h.spout).trans hs.2⟩

theorem resetAlone_softResetPairs {l : List SpoutId} (heven : ∀ o ∈ l, o.val % 2 = 0) (hl : l.Nodup) (hi : leaderOf i ∈ l)
    {s : State} (hs : s.single i) (hN : ∀ c, c ≠ i → leaderOf c ∈ l → s.WritesApart c N) :
    s.ResetAlone i N (softResetPairs l s) := by
  induction l generalizing s with
  | nil => cases hi
  | cons o l ih =>
    have ho := heven o List.mem_cons_self
    obtain ⟨hnot, hl'⟩ := List.nodup_cons.1 hl
    have hlater (c : SpoutId) (hc : leaderOf c ∈ l) (hne : c ≠ i) : (softResetPair o s).WritesApart c N :=
      writesApart_softResetPair ho (fun e => hnot (e ▸ hc)) (hN c hne (List.mem_cons_of_mem _ hc))
    by_cases e : leaderOf i = o
    · obtain ⟨u, hbefore, hafter⟩ := resetAlone_softResetPair ho e hs fun c hne hc => hN c hne (hc ▸ List.mem_cons_self)
      refine ⟨u, hbefore, hafter.trans (leavesAlone_softResetPairs (fun j hj => heven j (List.mem_cons_of_mem _ hj)) hl'
        (e ▸ hnot) fun c hc => hlater c hc ?_)⟩
      rintro rfl
      exact hnot (e ▸ hc)
    · have hself : leaderOf o = o := leaderOf_of_even ho
      have hfirst := leavesAlone_softResetPair (N := N) (s := s) ho e
        (hN o (by rintro rfl; exact e hself) (by rw [hself]; exact List.mem_cons_self))
        (hN _ (by rintro rfl; exact e (leaderOf_followerOf ho)) (by rw [leaderOf_followerOf ho]; exact List.mem_cons_self))
      obtain ⟨u, hbefore, hafter⟩ := ih (fun j hj => heven j (List.mem_cons_of_mem _ hj)) hl'
        ((List.mem_cons.1 hi).resolve_left e) (single_of_leavesAlone hfirst hs) fun c hne hc => hlater c hc hne
      exact ⟨u, hfirst.trans hbefore, hafter⟩

/-- R49: once every pair has been reset, no context is in RELEASING. -/
theorem stage_softResetPairs {l : List SpoutId} (heven : ∀ o ∈ l, o.val % 2 = 0) {j : SpoutId} {s : State}
    (hj : leaderOf j ∈ l ∨ s.stage j ≠ .releasing) : (softResetPairs l s).stage j ≠ .releasing := by
  induction l generalizing s with
  | nil => exact hj.resolve_left List.not_mem_nil
  | cons o l ih =>
    have ho := heven o List.mem_cons_self
    refine ih (fun j hj => heven j (List.mem_cons_of_mem _ hj)) ?_
    by_cases e : leaderOf j = o
    · obtain ⟨hleader, hfollower⟩ := stage_softResetPair ho (s := s)
      obtain rfl | rfl := eq_or_eq_of_leaderOf e
      · exact .inr hleader
      · exact .inr hfollower
    · obtain ⟨hjo, hjf⟩ := ne_of_leaderOf_ne ho e
      obtain ⟨hspout, -, -⟩ := softResetPair_outside ho (writesApart_noSlot o s) (writesApart_noSlot (followerOf o) s)
      refine hj.imp (fun hj => (List.mem_cons.1 hj).resolve_left e) fun hj => ?_
      rw [State.stage, State.context, hspout j hjo hjf]
      exact hj

end Pairs

end Sys2Proof.Machine

/-! The rest of a soft reset (R98, R138, R175): the positioners, the calibrations, the preact table and the aeration. -/

namespace Sys2Proof.Machine

/-- No context, channel, profile or slot differs. -/
structure State.KeepsWork (s t : State) : Prop where
  context : ∀ j, t.context j = s.context j
  channel : ∀ j, t.channel j = s.channel j
  profile : ∀ j, t.profile j = s.profile j
  hasProfile : ∀ j, t.hasProfile j = s.hasProfile j
  slots : ∀ n, SameSlot n s t

namespace State.KeepsWork

variable {s t u : State}

theorem refl (s : State) : s.KeepsWork s := ⟨fun _ => rfl, fun _ => rfl, fun _ => rfl, fun _ => rfl, fun n => .refl n s⟩

theorem trans (h : s.KeepsWork t) (h' : t.KeepsWork u) : s.KeepsWork u :=
  ⟨fun j => (h'.context j).trans (h.context j), fun j => (h'.channel j).trans (h.channel j),
    fun j => (h'.profile j).trans (h.profile j), fun j => (h'.hasProfile j).trans (h.hasProfile j),
    fun n => (h.slots n).trans (h'.slots n)⟩

/-- An update of a spout that leaves its context, its channel and its profile. -/
theorem updateSpout (h : s.KeepsWork t) (i : SpoutId) {f : Spout → Spout} (hcontext : ∀ p, (f p).context = p.context)
    (hchannel : ∀ p, (f p).channel = p.channel) (hprofile : ∀ p, (f p).calibration.profile = p.calibration.profile)
    (hvalid : ∀ p, (f p).calibration.profileValid = p.calibration.profileValid) : s.KeepsWork (t.updateSpout i f) := by
  have hspout {α : Type} (g : Spout → α) (hg : ∀ p, g (f p) = g p) (j : SpoutId) : g ((t.updateSpout i f).spout j) = g (t.spout j) := by
    obtain rfl | hj := eq_or_ne j i
    · rw [State.spout_updateSpout_self, hg]
    · rw [State.spout_updateSpout_ne t hj]
  exact h.trans ⟨hspout (fun p => p.context) hcontext, hspout (fun p => p.channel) hchannel,
    hspout (fun p => p.calibration.profile) hprofile, hspout (fun p => p.calibration.profileValid) hvalid,
    fun n => sameSlot_updateSpout n t i f⟩

theorem memory (h : s.KeepsWork t) (hu : ∀ j, u.spout j = t.spout j) (hslots : ∀ n, SameSlot n t u) : s.KeepsWork u :=
  h.trans ⟨fun j => congrArg Spout.context (hu j), fun j => congrArg Spout.channel (hu j),
    fun j => congrArg (fun p => p.calibration.profile) (hu j), fun j => congrArg (fun p => p.calibration.profileValid) (hu j), hslots⟩

theorem updatePositioner (h : s.KeepsWork t) (i : SpoutId) (f : Positioner → Positioner) :
    s.KeepsWork (t.updatePositioner i f) :=
  h.updateSpout (f := Spout.onPositioner f) i (fun _ => rfl) (fun _ => rfl) (fun _ => rfl) fun _ => rfl

theorem updatePosition (h : s.KeepsWork t) (i : SpoutId) (f : Positioner → Positioner) : s.KeepsWork (updatePosition i f t) := by
  have hset := h.updatePositioner i f
  unfold Machine.updatePosition; dsimp only; split
  · exact hset
  · exact hset.memory (sameButMemory_refreshPanel ..).spout fun n => sameSlot_refreshPanel n i _

theorem stage (h : s.KeepsWork t) (j : SpoutId) : t.stage j = s.stage j := congrArg Context.stage (h.context j)

theorem foldl (l : List SpoutId) {f : SpoutId → State → State} (h : s.KeepsWork t)
    (hf : ∀ i u, s.KeepsWork u → s.KeepsWork (f i u)) : s.KeepsWork (l.foldl (fun t i => f i t) t) := by
  induction l generalizing t with
  | nil => exact h
  | cons i l ih => exact ih (hf i t h)

theorem forSpouts {f : SpoutId → State → State} (h : s.KeepsWork t) (hf : ∀ i u, s.KeepsWork u → s.KeepsWork (f i u)) :
    s.KeepsWork (forSpouts f t) := foldl _ h hf

/-- R138: a positioner's soft reset, while no context is in RELEASING. -/
theorem softResetPositioner (h : s.KeepsWork t) (hs : ∀ j, s.stage j ≠ .releasing) (i : SpoutId) :
    s.KeepsWork (softResetPositioner react i t) := by
  have hcleared := h.updatePositioner i fun p => { p with engageWaiting := false, requests := [] }
  have hwaiting : ((t.updatePositioner i fun p => { p with engageWaiting := false, requests := [] }).positioner i).engageWaiting
      = false := by rw [State.positioner_updatePositioner_self]
  have hraise : s.KeepsWork (raiseSpout react i (t.updatePositioner i fun p => { p with engageWaiting := false, requests := [] })) := by
    generalize t.updatePositioner i _ = u at *
    have hbegun : s.KeepsWork (beginRaise i u) := hcleared.updatePosition i _
    have hidle : ((beginRaise i u).positioner i).engageWaiting = false := by
      rw [(Becomes.refl i none u).beginRaise.positioner]; exact hwaiting
    unfold raiseSpout testRaised; dsimp only; split
    · rw [hidle, if_neg Bool.false_ne_true, react_released]
      have harrived := hbegun.updatePosition i fun p => { p.arrive .released with engageWaiting := false }
      rw [onReleased_of_stage_ne _ (by rw [harrived.stage]; exact hs _)]
      exact harrived
    · exact hbegun
  unfold Machine.softResetPositioner; dsimp only
  split
  · exact hraise
  · exact hraise
  · exact hcleared

theorem changePreact (h : s.KeepsWork t) (e : Fin 128) (v : PreactEntry) : s.KeepsWork (changePreact e v t) := by
  unfold Machine.changePreact; split
  · exact h
  · have hwritten := sameButLearning_writePreact e v t
    exact h.memory hwritten.spout hwritten.slots

theorem softResetPreact (h : s.KeepsWork t) : s.KeepsWork (softResetPreact t) := by
  have hall (l : List (Fin 128)) {u : State} (hu : s.KeepsWork u) : s.KeepsWork (l.foldl (fun t e =>
      Machine.changePreact e (t.preact[e].softReset
        (if t.products[preactProduct e].set then t.products[preactProduct e].defaultLag else 0)) t) u) := by
    induction l generalizing u with
    | nil => exact hu
    | cons e l ih => exact ih (hu.changePreact e _)
  exact hall _ h

end State.KeepsWork

/-- R175: what follows the reset of the contexts. -/
theorem keepsWork_softResetBlocks (s : State) (hs : ∀ j, (softResetPairs allLeaders s).stage j ≠ .releasing) :
    (softResetPairs allLeaders s).KeepsWork (softResetBlocks s) := by
  have hpositioners := (State.KeepsWork.refl (softResetPairs allLeaders s)).forSpouts
    (f := softResetPositioner react) fun i _ hu => hu.softResetPositioner hs i
  have hcalibrations := hpositioners.forSpouts (f := fun i t => t.updateCalibration i Calibration.softReset) fun i _ hu =>
    hu.updateSpout (f := Spout.onCalibration Calibration.softReset) i (fun _ => rfl) (fun _ => rfl) (fun _ => rfl) fun _ => rfl
  exact hcalibrations.softResetPreact.forSpouts (f := dropAerate) fun i _ hu =>
    hu.updateSpout (f := Spout.onField fun g => { g with aerate := false, aerateTimer := none }) i (fun _ => rfl) (fun _ => rfl)
      (fun _ => rfl) fun _ => rfl

/-! ## The soft reset of a spout that works by itself -/

theorem leaderOf_mem_allLeaders (i : SpoutId) : leaderOf i ∈ allLeaders := by revert i; decide

theorem allLeaders_even : ∀ o ∈ allLeaders, o.val % 2 = 0 := by decide

/-- R49, R175: the spout meets its own context's reset, and nothing else of its work changes. -/
theorem exec_softReset_alone {i : SpoutId} {N : SlotId → Prop} {s : State} (hx : s.port.exchange = .running) (hs : s.single i)
    (hN : ∀ c, c ≠ i → s.WritesApart c N) :
    ∃ t u v, exec .softReset s = .next t ∧ s.LeavesAlone i N u ∧ (softResetContext i u).LeavesAlone i N v ∧ v.KeepsWork t := by
  let b := (setExchange .resetting s).updatePort fun p => { p with doneCount := 0 }
  have hexec : exec .softReset s = .next (softResetBlocks b) := congrArg Host.Outcome.next (if_pos hx)
  have hslots (n : SlotId) : SameSlot n s b := sameSlot_writeMemory (s.updatePort fun p => { p with exchange := .resetting })
    (.inl (by rw [length_u16Bytes, Config.exchangeStateAddress, slotBase_eq]; omega))
  have hbegun : s.LeavesAlone i N b := ⟨rfl, fun n _ => hslots n, fun hw => Memory.wf_writeBytes hw _ _⟩
  have hapart (c : SpoutId) (hc : c ≠ i) : b.WritesApart c N := (hN c hc).of_unclaimed rfl hbegun.wf
  obtain ⟨u, hbefore, hafter⟩ := resetAlone_softResetPairs allLeaders_even (by decide) (leaderOf_mem_allLeaders i)
    (single_of_leavesAlone hbegun hs) fun c hc _ => hapart c hc
  exact ⟨_, u, _, hexec, hbegun.trans hbefore, hafter, keepsWork_softResetBlocks b fun j =>
    stage_softResetPairs allLeaders_even (.inl (leaderOf_mem_allLeaders j))⟩

end Sys2Proof.Machine

/-! A soft reset reaches each context (R49, R98, R108, R117): the settled statement. -/

namespace Sys2Proof.Machine

/-! ## The context, by its stage -/

/-- A claim withdrawn does not change what a cut does. -/
theorem Context.cutGate_unclaimed (c : Context) (closeTime : Timer) :
    ({ c with claim := none } : Context).cutGate closeTime = { c.cutGate closeTime with claim := none } := by
  cases h : c.gate.isOpen with
  | true => rw [Context.cutGate_open h, Context.cutGate_open (c := { c with claim := none }) h]
  | false => rw [Context.cutGate_shut h, Context.cutGate_shut (c := { c with claim := none }) h]

namespace Spout

theorem cut_unclaimed (reason : Option Code) (p : Spout) : p.unclaimed.cut reason = (p.cut reason).unclaimed := by
  have hcut : ({ p.context with claim := none } : Context).cut p.closeTime reason
      = { p.context.cut p.closeTime reason with claim := none } := by
    unfold Context.cut
    rw [Context.cutGate_unclaimed]
  exact congrArg (fun c => { p with context := c }) hcut

/-- A claim withdrawn does not change what a soft reset does. -/
theorem softReset_unclaimed (p : Spout) : p.unclaimed.softReset.unclaimed = p.softReset.unclaimed := by
  have hcut : ((p.unclaimed.onOrder fun o => { o with mark := .reset }).cut (some .reset)).unclaimed
      = ((p.onOrder fun o => { o with mark := .reset }).cut (some .reset)).unclaimed := by
    have hmarked := cut_unclaimed (some .reset) (p.onOrder fun o => { o with mark := .reset })
    exact (congrArg unclaimed hmarked).trans rfl
  unfold softReset
  rw [show p.unclaimed.context.stage = p.context.stage from rfl]
  cases p.context.stage with
  | idle | bound | closing => rfl
  | waitIndex | engaging | zeroing | releasing | zeroRun | settling => rfl
  | opening | coarse | fine | trim => exact hcut

theorem softReset_congr {p q : Spout} (h : p.unclaimed = q.unclaimed) : p.softReset.unclaimed = q.softReset.unclaimed := by
  rw [← p.softReset_unclaimed, h, q.softReset_unclaimed]

theorem softReset_idle {p : Spout} (h : p.context.stage = .idle) : p.softReset = p := by unfold softReset; rw [h]

theorem softReset_rests {p : Spout} (h : p.context.stage = .waitIndex ∨ p.context.stage = .engaging ∨ p.context.stage = .zeroing
    ∨ p.context.stage = .releasing ∨ p.context.stage = .zeroRun) : p.softReset = p.resting := by
  unfold softReset
  obtain h | h | h | h | h := h <;> rw [h]

theorem softReset_open {p : Spout} (h : p.context.stage.isOpen = true) :
    p.softReset = (p.onOrder fun o => { o with mark := .reset }).cut (some .reset) := by
  unfold softReset
  obtain h | h | h | h := (Stage.isOpen_iff _).1 h <;> rw [h]

theorem softReset_closing {p : Spout} (h : p.context.stage = .closing) :
    p.softReset = (p.onOrder fun o => { o with mark := .reset }).onCompartment (Compartment.setCause (some .reset)) := by
  unfold softReset; rw [h]

theorem softReset_settling {p : Spout} (h : p.context.stage = .settling) : p.softReset = p.frozen.resting := by
  unfold softReset; rw [h]

theorem delivered_softReset (p : Spout) : p.softReset.channel.delivered = p.channel.delivered := by
  unfold softReset
  cases p.context.stage <;> rfl

end Spout

/-! ## What the soft reset shows of the spout -/

/-- The work of spout `i` is that of `p`, a claim apart. -/
structure State.Shows (i : SpoutId) (p : Spout) (t : State) : Prop where
  context : ({ t.context i with claim := none } : Context) = { p.context with claim := none }
  channel : t.channel i = p.channel
  profile : t.profile i = p.calibration.profile
  hasProfile : t.hasProfile i = p.calibration.profileValid

namespace State.Shows

variable {i : SpoutId} {p : Spout} {t : State} (h : t.Shows i p)
include h

theorem stage : t.stage i = p.context.stage := (congrArg (fun c => c.stage) h.context :)
theorem slot : (t.context i).slot = p.context.slot := (congrArg (fun c => c.slot) h.context :)
theorem gate : t.gate i = p.context.gate := (congrArg (fun c => c.gate) h.context :)
theorem order : t.order i = p.context.order := (congrArg (fun c => c.order) h.context :)
theorem compartment : t.compartment i = p.context.compartment := (congrArg (fun c => c.compartment) h.context :)

end State.Shows

theorem State.Shows.atRest {i : SpoutId} {p : Spout} {t : State} (h : t.Shows i p.resting) : t.atRest i :=
  ⟨h.stage, h.slot, h.order, h.compartment⟩

/-- R49, R175: the spout as the soft reset leaves it, and the slots of `N` as its context's own reset leaves them. -/
theorem exec_softReset_shows {i : SpoutId} {N : SlotId → Prop} {s : State} (hx : s.port.exchange = .running) (hs : s.single i)
    (hN : ∀ c, c ≠ i → s.WritesApart c N) :
    ∃ t u, exec .softReset s = .next t ∧ s.LeavesAlone i N u ∧ t.Shows i (s.spout i).softReset
      ∧ ∀ n, N n → SameSlot n (softResetContext i u) t := by
  obtain ⟨t, u, v, hexec, hbefore, hafter, hkept⟩ := exec_softReset_alone hx hs hN
  have hspout : (v.spout i).unclaimed = (s.spout i).softReset.unclaimed :=
    hafter.spout.trans ((unclaimed_softResetContext (single_of_leavesAlone hbefore hs).1).trans (Spout.softReset_congr hbefore.spout))
  refine ⟨t, u, hexec, hbefore, ⟨?_, ?_, ?_, ?_⟩, fun n hn => (hafter.slots n hn).trans (hkept.slots n)⟩
  · rw [hkept.context]; exact congrArg Spout.context hspout
  · rw [hkept.channel]; exact (congrArg Spout.channel hspout :)
  · rw [hkept.profile]; exact (congrArg (fun p => p.calibration.profile) hspout :)
  · rw [hkept.hasProfile]; exact (congrArg (fun p => p.calibration.profileValid) hspout :)

/-! ## The slot of a spout that works by itself -/

/-- R54, R100: no other context writes in the slot that a spout runs by itself. -/
theorem writesApart_of_workLawful {i : SpoutId} {n : SlotId} {s : State} (h : s.WorkLawful) (hx : s.port.exchange = .running)
    (hs : s.single i) (hslot : (s.context i).slot = some n) : ∀ c, c ≠ i → s.WritesApart c (· = n) := by
  intro c hc m hm
  subst hm
  have hruns {j : SpoutId} (hj : (s.context j).slot = some m) (hb : s.isBound j = false) : i = j :=
    h.slots.alone i j m (by rw [State.runs, hslot, hs.2]; simp) (by rw [State.runs, hj, hb]; simp)
  refine ⟨h.memory, fun hcur => ?_, h.contexts.index c, (h.contexts.count c).1⟩
  cases hb : s.isBound c with
  | false => exact hc (hruns hcur hb).symm
  | true =>
    have hclaim := (h.contexts.bound c hb).2
    rw [hcur] at hclaim
    obtain ⟨x, hx', rfl⟩ := Option.map_eq_some_iff.1 hclaim.symm
    obtain ⟨-, -, ⟨htwin, hleader⟩ | ⟨-, -, hreset⟩⟩ := h.contexts.claimed c x hx'
    · have hfree : s.isBound (leaderOf c) = false := by
        refine Bool.eq_false_iff.2 fun hbound => ?_
        have hslot' := (h.contexts.bound _ hbound).2
        rw [hleader] at hslot'
        obtain ⟨y, hy, -⟩ := Option.map_eq_some_iff.1 hslot'.symm
        have hodd := (h.contexts.claimed _ y hy).1
        have heven := leaderOf_even c
        omega
      rw [← hruns hleader hfree, hs.1] at htwin
      cases htwin
    · rw [hx] at hreset; cases hreset

/-- R39 step 2: an entry shows the same once its order has ended, if it has a code or lies past the order's entries. -/
theorem State.SlotClosed.entryShows_any {n : SlotId} {count total state result : Nat} {s t : State}
    (h : s.SlotClosed n count total state result t) {e code secondary trims final : Nat} (he : e < 12) (hc : count ≤ 12)
    (hcode : code ≠ 0) (hs : s.entryShows n e code secondary trims final) : t.entryShows n e code secondary trims final := by
  by_cases hlt : e < count
  · exact h.entryShows hlt hc hcode hs
  · have hbyte (off : Nat) (h5 : 5 ≤ off) (hoff : off < 16) :
        t.slotU8 n (entryOffset e + off) = s.slotU8 n (entryOffset e + off) :=
      h.bytes _ (by unfold entryOffset; omega) (by unfold entryOffset; omega) (by unfold entryOffset; omega) fun e' he' => by
        unfold entryOffset; omega
    exact hs.of_bytes (hbyte 5 (by omega) (by omega)) fun off h6 hoff => hbyte off (by omega) hoff

end Sys2Proof.Machine

/-! A soft reset reaches each context (R49, R98, R108, R117): the clauses. -/

namespace Sys2Proof.Machine

/-- R49: a context that runs by itself, by its stage. -/
theorem softReset_byStage {i : SpoutId} {s : State} (hx : s.port.exchange = .running) (hs : s.single i) :
    ∃ t, exec .softReset s = .next t
      ∧ (s.stage i = .idle → t.stage i = .idle ∧ t.gate i = s.gate i)
      ∧ (s.stage i = .waitIndex ∨ s.stage i = .engaging ∨ s.stage i = .zeroing ∨ s.stage i = .releasing
          ∨ s.stage i = .zeroRun → t.atRest i ∧ t.gate i = s.gate i)
      ∧ ((s.stage i).isOpen = true → (s.gate i).isOpen = true → s.hasProfile i = true →
          t.stage i = .closing ∧ t.gateIsCut i ∧ (t.compartment i).cause = some ((s.compartment i).cause.getD .reset)
            ∧ (t.order i).mark = .reset ∧ (t.context i).slot = (s.context i).slot)
      ∧ (s.stage i = .closing →
          t.stage i = .closing ∧ t.gate i = s.gate i ∧ (t.compartment i).cause = some ((s.compartment i).cause.getD .reset)
            ∧ (t.order i).mark = .reset ∧ (t.context i).slot = (s.context i).slot)
      ∧ (s.stage i = .settling → t.atRest i ∧ t.gate i = s.gate i ∧ (t.channel i).integrating = false)
      ∧ (t.channel i).delivered = (s.channel i).delivered := by
  obtain ⟨t, u, hexec, -, hshows, -⟩ := exec_softReset_shows (N := noSlot) hx hs fun c _ => writesApart_noSlot c s
  refine ⟨t, hexec, fun h => ?_, fun h => ?_, fun h hg hp => ?_, fun h => ?_, fun h => ?_, ?_⟩
  · rw [Spout.softReset_idle h] at hshows
    exact ⟨hshows.stage.trans h, hshows.gate⟩
  · rw [Spout.softReset_rests h] at hshows
    exact ⟨hshows.atRest, hshows.gate⟩
  · rw [Spout.softReset_open h] at hshows
    have htime : (s.spout i).closeTime = some (s.profile i).gateCloseTime := if_pos hp
    have hcut : ((((s.spout i).onOrder fun o => { o with mark := .reset }).cut (some .reset))).context = { s.context i with
        gate := (s.gate i).cut (s.spout i).closeTime, stage := .closing
        order := { s.order i with mark := .reset }
        compartment := { s.compartment i with closeAwaited := true }.setCause (some .reset) } :=
      Context.cut_open (c := { s.context i with order := { s.order i with mark := .reset } }) hg (s.spout i).closeTime (some .reset)
    have hgate : t.gate i = (s.gate i).cut (s.spout i).closeTime := hshows.gate.trans (congrArg (fun c => c.gate) hcut)
    have hcompartment := hshows.compartment.trans (congrArg (fun c => c.compartment) hcut)
    refine ⟨hshows.stage, ?_, ?_, (congrArg (fun o => o.mark) (hshows.order.trans (congrArg (fun c => c.order) hcut)) :),
      hshows.slot.trans (congrArg (fun c => c.slot) hcut)⟩
    · unfold State.gateIsCut
      rw [hgate, htime, hshows.profile]; exact ⟨rfl, rfl, rfl, rfl⟩
    · rw [hcompartment, Compartment.setCause_some]
  · rw [Spout.softReset_closing h] at hshows
    refine ⟨hshows.stage.trans h, hshows.gate, ?_, (congrArg (fun o => o.mark) hshows.order :), hshows.slot⟩
    rw [hshows.compartment]
    show ((s.compartment i).setCause (some .reset)).cause = _
    rw [Compartment.setCause_some]
  · rw [Spout.softReset_settling h] at hshows
    exact ⟨hshows.atRest, hshows.gate, (congrArg (fun c => c.integrating) hshows.channel :)⟩
  · rw [hshows.channel, Spout.delivered_softReset]; rfl

/-- R49, R117: what a soft reset marks in the context. -/
theorem becomes_setResetCause (i : SpoutId) (s : State) :
    Becomes i none (((s.spout i).onOrder fun x => { x with mark := .reset }).onCompartment (Compartment.setCause (some .reset)))
      s.port s (setResetCause i (markReset i s)) :=
  ((Becomes.refl i none s).updateOrder fun x => { x with mark := .reset }).updateCompartment (Compartment.setCause (some .reset))

/-- R39, R49, R117: the compartment that ends in SETTLING, and its entry. -/
theorem softReset_settling {i : SpoutId} {n : SlotId} {s : State} (hl : s.WorkLawful) (hx : s.port.exchange = .running)
    (hs : s.single i) (h : s.stage i = .settling) (hslot : (s.context i).slot = some n) (ho : (s.compartment i).opened = true)
    (htrims : (s.compartment i).trimsUsed ≤ 3) (hd : (s.channel i).delivered ≤ 4294967295) :
    ∃ t, exec .softReset s = .next t ∧ t.slotStateByte n = 3 ∧ t.slotU8 n 3 = 7
      ∧ t.entryShows n (s.compartment i).index 16 (((s.compartment i).secondary.map Code.value).getD 0)
          (s.compartment i).trimsUsed (s.channel i).delivered := by
  obtain ⟨t, u, hexec, hbefore, -, hslots⟩ := exec_softReset_shows hx hs (writesApart_of_workLawful hl hx hs hslot)
  have hsame := hbefore.slots n rfl
  have hafter := hslots n rfl
  have hstage : u.stage i = .settling := (stage_of_unclaimed hbefore.spout).trans h
  have hindex := hl.contexts.index i
  have hcount := (hl.contexts.count i).1
  have hmet : softResetContext i u = finishCompartment react i false (setResetCause i (markReset i u)) := by
    have htwin : (setResetCause i (markReset i u)).isTwin i = false :=
      (becomes_setResetCause i u).isTwin.trans (single_of_leavesAlone hbefore hs).1
    unfold softResetContext
    rw [hstage]; dsimp only
    rw [htwin, if_neg Bool.false_ne_true]
  have hw := becomes_setResetCause i u
  have hslot' : ((setResetCause i (markReset i u)).context i).slot = some n :=
    (congrArg (fun c => c.slot) hw.context).trans ((congrArg (fun p => p.context.slot) hbefore.spout).trans hslot)
  have hcompartment : (setResetCause i (markReset i u)).compartment i = (s.compartment i).setCause (some .reset) :=
    hw.compartment.trans (congrArg (fun p => p.context.compartment.setCause (some .reset)) hbefore.spout)
  have horder : (setResetCause i (markReset i u)).order i = { s.order i with mark := .reset } :=
    hw.order.trans (congrArg (fun p => { p.context.order with mark := .reset }) hbefore.spout)
  have hchannel : (setResetCause i (markReset i u)).channel i = s.channel i :=
    hw.channel.trans (congrArg (fun p => p.channel) hbefore.spout)
  have htwin : (setResetCause i (markReset i u)).isTwin i = false := (congrArg (fun o => o.twin) horder).trans hs.1
  have hwf := hw.wf (hbefore.wf hl.memory)
  have hstate : (setResetCause i (markReset i u)).slotStateByte n = 3 :=
    ((hw.slots n (by simp)).slotStateByte.trans hsame.slotStateByte).trans (hl.slots.current i n hslot)
  rw [hmet] at hafter
  generalize setResetCause i (markReset i u) = w at *
  rw [Compartment.setCause_some] at hcompartment
  have hopened : (w.compartment i).opened = true := by rw [hcompartment]; exact ho
  have hfinal : w.finalOf i = (s.channel i).delivered := by
    unfold State.finalOf
    rw [hopened, if_pos rfl, hchannel]
  have hdelivered : (w.compartment i).opened = true → (w.channel i).delivered ≤ 4294967295 := fun _ => by rw [hchannel]; exact hd
  have hmark : (w.order i).mark = .reset := congrArg (fun o => o.mark) horder
  have hclosed := slotClosed_finishCompartment_reset react hwf htwin hslot' (by rw [hcompartment]; exact hindex)
    (by rw [horder]; exact hcount) hdelivered hmark
  have hshows := entryShows_finalRecorded hslot' hwf (by rw [hcompartment]; exact htrims) hdelivered
  rw [compartmentCode_reset hmark, hfinal, hcompartment] at hshows
  rw [horder, hstate] at hclosed
  have hended := hclosed.after hcount hafter
  exact ⟨t, hexec, hended.slotState, hended.result, hended.entryShows_any hindex hcount (by decide) hshows⟩

/-- R98, R117: the order that ends before its opening, or in its release. -/
theorem softReset_waiting {i : SpoutId} {n : SlotId} {s : State} (hl : s.WorkLawful) (hx : s.port.exchange = .running)
    (hs : s.single i)
    (h : s.stage i = .waitIndex ∨ s.stage i = .engaging ∨ s.stage i = .zeroing ∨ s.stage i = .releasing)
    (hslot : (s.context i).slot = some n) :
    ∃ t, exec .softReset s = .next t ∧ t.atRest i ∧ t.slotStateByte n = 3 ∧ t.slotU8 n 3 = 7
      ∧ (s.stage i ≠ .zeroing → s.entriesClosed t n (s.order i).count)
      ∧ (s.stage i = .zeroing →
          t.slotU32 n (0x40 + 16 * (s.compartment i).index + 12) = s.slotU32 n (0x40 + 16 * (s.compartment i).index + 12)
          ∧ ∀ j ∈ List.range (s.order i).count, t.entryCode n j
            = if j = (s.compartment i).index then 16 else if s.entryCode n j = 0 then 21 else s.entryCode n j)
      ∧ t.progressFollows n (s.order i).count (s.order i).total := by
  obtain ⟨t, u, hexec, hbefore, hshows, hslots⟩ := exec_softReset_shows hx hs (writesApart_of_workLawful hl hx hs hslot)
  have hrests : s.stage i = .waitIndex ∨ s.stage i = .engaging ∨ s.stage i = .zeroing ∨ s.stage i = .releasing
      ∨ s.stage i = .zeroRun := by tauto
  rw [Spout.softReset_rests hrests] at hshows
  have hsame := hbefore.slots n rfl
  have hafter := hslots n rfl
  have hstage := stage_of_unclaimed hbefore.spout
  have hcount := (hl.contexts.count i).1
  have hindex := hl.contexts.index i
  have hmarked : Becomes i none ((u.spout i).onOrder fun x => { x with mark := .reset }) u.port u (markReset i u) :=
    (Becomes.refl i none u).updateOrder fun x => { x with mark := .reset }
  have hslot' : ((markReset i u).context i).slot = some n :=
    (congrArg (fun c => c.slot) hmarked.context).trans ((congrArg (fun p => p.context.slot) hbefore.spout).trans hslot)
  have horder : (markReset i u).order i = { s.order i with mark := .reset } :=
    hmarked.order.trans (congrArg (fun p => { p.context.order with mark := .reset }) hbefore.spout)
  have hentry : ((markReset i u).compartment i).index = (s.compartment i).index :=
    (congrArg (fun c => c.index) hmarked.compartment).trans (congrArg (fun p => p.context.compartment.index) hbefore.spout)
  have htwin : (markReset i u).isTwin i = false := (congrArg (fun o => o.twin) horder).trans hs.1
  have hwf := hmarked.wf (hbefore.wf hl.memory)
  have hslotsame : SameSlot n s (markReset i u) := hsame.trans (hmarked.slots n (by simp))
  have hstate : (markReset i u).slotStateByte n = 3 := hslotsame.slotStateByte.trans (hl.slots.current i n hslot)
  by_cases hz : s.stage i = .zeroing
  · have hmet : softResetContext i u = resetRest i (writeEntryCode n (s.compartment i).index .reset (markReset i u)) := by
      unfold softResetContext
      rw [hstage, hz]; dsimp only
      unfold resetEntry
      rw [hslot']; dsimp only
      rw [hentry]
    have hclosed := slotClosed_resetRest (s := writeEntryCode n (s.compartment i).index .reset (markReset i u))
      (wf_writeEntryCode hwf ..) hslot' htwin (by show ((markReset i u).order i).count ≤ 12; rw [horder]; exact hcount)
    have hcode := entryCode_writeEntryCode hwf n (s.compartment i).index .reset (by decide)
    have hother (k : Nat) (hk : k ≠ 0x45 + 16 * (s.compartment i).index) :
        (writeEntryCode n (s.compartment i).index .reset (markReset i u)).slotU8 n k = (markReset i u).slotU8 n k :=
      congrArg BitVec.toNat (read_writeEntryCode _ n _ _ (by unfold entryOffset; omega))
    have hkept : (writeEntryCode n (s.compartment i).index .reset (markReset i u)).slotStateByte n = 3 :=
      (hother 0 (by omega)).trans hstate
    rw [hkept, show (writeEntryCode n (s.compartment i).index .reset (markReset i u)).order i = (markReset i u).order i from rfl,
      horder, ← hmet] at hclosed
    have hended := hclosed.after hcount hafter
    have hfinal : t.slotU32 n (0x40 + 16 * (s.compartment i).index + 12) = s.slotU32 n (0x40 + 16 * (s.compartment i).index + 12) :=
      slotU32_of_bytes fun k hk => ((hended.bytes _ (by omega) (by omega) (by omega) fun e he => by omega).trans
        (hother _ (by omega))).trans (hslotsame.slotU8 (by omega))
    refine ⟨t, hexec, hshows.atRest, hended.slotState, hended.result, fun e => absurd hz e, fun _ => ⟨hfinal, fun j hj => ?_⟩,
      hended.progress⟩
    have hj' : j < (s.order i).count := List.mem_range.1 hj
    rw [hended.codes j hj']
    split
    · next e => rw [e, hcode]; rfl
    · next e =>
      rw [show (writeEntryCode n (s.compartment i).index .reset (markReset i u)).entryCode n j = s.entryCode n j from
        (hother _ (by unfold entryOffset; omega)).trans (hslotsame.entryCode (by omega))]
      rfl
  · have hmet : softResetContext i u = resetRest i (markReset i u) := by
      unfold softResetContext
      rw [hstage]
      obtain e | e | e | e := h
      · rw [e]
      · rw [e]
      · exact absurd e hz
      · rw [e]
    have hclosed := slotClosed_resetRest hwf hslot' htwin (by rw [horder]; exact hcount)
    rw [horder, hstate, ← hmet] at hclosed
    have hended := (hclosed.after hcount hafter).before hcount hslotsame
    exact ⟨t, hexec, hshows.atRest, hended.slotState, hended.result, fun _ => hended.entriesClosed, fun e => absurd e hz,
      hended.progress⟩

/-- Settles O8: the spout meets its own context's reset alone (`exec_softReset_shows`), and its slot that reset's writes. -/
theorem softResetReachesEachContext : Obligations.SoftResetReachesEachContext := by
  unfold Obligations.SoftResetReachesEachContext
  exact ⟨fun i s hx hs => softReset_byStage hx hs,
    fun i n s hl hx hs h hslot ho htrims hd => softReset_settling hl hx hs h hslot ho htrims hd,
    fun i n s hl hx hs h hslot => softReset_waiting hl hx hs h hslot⟩

end Sys2Proof.Machine

/-! The order that ends under a soft reset while a BOUND follower of another pair shows its slot (R52, R53, R64): the refuted
statement. -/

namespace Sys2Proof.Machine

/-- A soft reset runs. Spout 0 closes a TWIN in slot 5 that is to end RESET, its claim on spout 1 not granted yet. Spout 3, in
phase CLOSING, is BOUND to spout 2, which is at rest already; the slot it shows is slot 5 too. The gate of spout 1 is in the
second try of a close, whose timer is about to expire. -/
def sharedSlotInReset : State :=
  { (((State.reset.updateContext 0 fun c =>
        { c with
          stage := .closing, slot := some 5, compartment := { cause := some .reset }
          order := { twin := true, mark := .reset } }).updateContext 1 fun c =>
        { c with claim := some { leader := 0, slot := 5 }, gate := { close := some 1, secondTry := true } }).updateContext 3 fun c =>
        { c with stage := .bound, slot := some 5, claim := some { leader := 2, slot := 5 }, phase := .closing }) with
    port := { exchange := .resetting, testing := false }
    memory := Memory.writeBytes [] (Config.slotBase 5) [3, 2]
    pending := [.closeTimerExpiry 1] }

/-- The failed close faults spout 1, which ends the TWIN that waits for it: slot 5 is DONE (4), and spout 3 still shows it. -/
theorem step_sharedSlotInReset :
    ∃ t, step sharedSlotInReset = .next t ∧ (t.context 3).slot = some 5 ∧ t.slotStateByte 5 = 4 :=
  ⟨_, rfl, by decide, by decide⟩

theorem blocks_sharedSlotInReset (i : SpoutId) :
    sharedSlotInReset.receiver i = {} ∧ sharedSlotInReset.channel i = {} ∧ sharedSlotInReset.calibration i = {}
      ∧ sharedSlotInReset.positioner i = {} ∧ sharedSlotInReset.field i = {} ∧ sharedSlotInReset.queue i = [] := by
  revert i; decide

theorem lawful_sharedSlotInReset : sharedSlotInReset.Lawful := by
  have hblocks := blocks_sharedSlotInReset
  refine ⟨by decide, ?port, ?receiver, ?channel, ?window, ?calibration, ?positioner, ?preact⟩
  case port => constructor <;> decide
  case receiver =>
    intro i
    rw [(hblocks i).1]
    exact ⟨by decide, by decide, by decide, by decide, fun c h => by simp at h, by decide⟩
  case channel =>
    intro i
    rw [(hblocks i).2.1]
    constructor <;> decide
  case window =>
    intro i
    unfold State.WindowLawful
    rw [(hblocks i).2.1]
    exact Nat.zero_le _
  case calibration =>
    intro i
    rw [(hblocks i).2.2.1]
    constructor <;> decide
  case positioner =>
    intro i
    rw [(hblocks i).2.2.2.1]
    constructor <;> decide
  case preact =>
    intro e
    have hentry : sharedSlotInReset.preact[e] = {} := by revert e; decide
    rw [hentry]
    constructor <;> decide

/-- No slot is queued; slot 5 alone is RUNNING, the order of spout 0. -/
theorem slotsLawful_sharedSlotInReset : sharedSlotInReset.SlotsLawful where
  queued := by decide
  once := by decide
  apart := by decide
  places := by decide
  accepted := by decide
  current := by decide
  alone := by decide
  running := by decide

/-- The claim on spout 1 names the TWIN that runs; the claim on spout 3 names a leader at rest, as R64 allows. -/
theorem claimed_sharedSlotInReset (i : SpoutId) (c : Claim) (hclaim : (sharedSlotInReset.context i).claim = some c) :
    i.val % 2 = 1 ∧ c.leader = leaderOf i
      ∧ ((sharedSlotInReset.isTwin (leaderOf i) = true ∧ (sharedSlotInReset.context (leaderOf i)).slot = some c.slot)
        ∨ (sharedSlotInReset.isBound i = true ∧ sharedSlotInReset.stage (leaderOf i) = .idle
          ∧ sharedSlotInReset.port.exchange = .resetting)) := by
  have hclaims : ∀ i, ∀ c ∈ (sharedSlotInReset.context i).claim,
      (i = 1 ∧ c = { leader := 0, slot := 5 }) ∨ (i = 3 ∧ c = { leader := 2, slot := 5 }) := by decide
  rcases hclaims i c hclaim with ⟨rfl, rfl⟩ | ⟨rfl, rfl⟩
  · exact ⟨by decide, by decide, .inl (by decide)⟩
  · exact ⟨by decide, by decide, .inr (by decide)⟩

theorem contextsLawful_sharedSlotInReset : sharedSlotInReset.ContextsLawful where
  slot := by decide
  idle := by decide
  count := by decide
  index := by decide
  twin := by decide
  claims := by decide
  granted := by decide
  claimed := claimed_sharedSlotInReset
  bound := by decide
  halted := by decide
  mark := by decide
  resetting := by decide

/-- No gate is open and no context is in an open stage, no capture runs and no request waits. -/
theorem gatesLawful_sharedSlotInReset : sharedSlotInReset.GatesLawful := by
  have hshut : ∀ i, (sharedSlotInReset.gate i).isOpen = false ∧ (sharedSlotInReset.stage i).isOpen = false := by decide
  have hcause : ∀ i, (sharedSlotInReset.stage i).isClosed = true → (sharedSlotInReset.compartment i).cause ≠ none := by
    decide
  have hcapture : ∀ i, (sharedSlotInReset.calibration i).capture = .none
      ∧ (sharedSlotInReset.calibration i).zeroTimeout = none ∧ sharedSlotInReset.stage i ≠ .zeroRun := by decide
  exact {
    gate := fun i h => absurd h (by simp [(hshut i).1])
    openStage := fun i h => absurd h (by simp [(hshut i).2])
    closedStage := fun i h hnone => absurd hnone (hcause i h)
    opening := by decide
    closing := fun i _ => (hshut i).1
    failed := by decide
    started := by decide
    blocking := fun i h => absurd h (by simp [(hcapture i).1])
    order := fun i => by simp [(hcapture i).1, (hcapture i).2.2]
    timeout := fun i h => absurd h (by simp [(hcapture i).2.1])
    release := by decide }

/-- Refutes O57: the law of the slots does not keep the slot that a BOUND follower shows apart from the orders of the other
pairs once its own leader is at rest. In `sharedSlotInReset` the order of that slot ends, its claim pending, as the spout it
waits for faults: spout 3 then shows a slot that is DONE (4), not RUNNING (3). -/
theorem not_stepKeepsSlotsContextsAndGatesLawful : ¬ Obligations.StepKeepsSlotsContextsAndGatesLawful := by
  unfold Obligations.StepKeepsSlotsContextsAndGatesLawful
  intro hkeeps
  obtain ⟨t, hstep, hshown, hdone⟩ := step_sharedSlotInReset
  have hwork : sharedSlotInReset.WorkLawful :=
    ⟨lawful_sharedSlotInReset.memory, slotsLawful_sharedSlotInReset, contextsLawful_sharedSlotInReset, gatesLawful_sharedSlotInReset⟩
  have hrunning : t.slotStateByte 5 = 3 :=
    (hkeeps sharedSlotInReset t lawful_sharedSlotInReset hwork hstep).slots.current 3 5 hshown
  rw [hdone] at hrunning
  exact absurd hrunning (by decide)

end Sys2Proof.Machine

/-! The two spouts of a pair change together (R52, R58): the relation `Becomes` for both at once, and the follower's close (R59). -/

namespace Sys2Proof.Machine

/-! ## The relation -/

/-- In `t` spout `o` is `p`, spout `f` is `r` and the port is `q`; of the rest of `s`, memory below the slots and the slots of `w`
alone are written. -/
structure BothBecome (o f : SpoutId) (w : Option SlotId) (p r : Spout) (q : Port) (s t : State) : Prop where
  apart : f ≠ o
  first : t.spout o = p
  second : t.spout f = r
  port : t.port = q
  others : ∀ j, j ≠ o → j ≠ f → t.spout j = s.spout j
  tables : SameTables s t
  slots : ∀ m, some m ≠ w → SameSlot m s t
  wf : s.memory.wf = true → t.memory.wf = true

namespace BothBecome

variable {o f : SpoutId} {w : Option SlotId} {p p' r r' : Spout} {q q' : Port} {s t u : State}

theorem refl {o f : SpoutId} (h : f ≠ o) (w : Option SlotId) (s : State) :
    BothBecome o f w (s.spout o) (s.spout f) s.port s s :=
  ⟨h, rfl, rfl, rfl, fun _ _ _ => rfl, ⟨rfl, rfl, rfl⟩, fun m _ => .refl m s, id⟩

theorem swap (h : BothBecome o f w p r q s t) : BothBecome f o w r p q s t :=
  { h with apart := h.apart.symm, first := h.second, second := h.first, others := fun j hf ho => h.others j ho hf }

/-- A further step changes the first spout. -/
theorem onFirst (h : BothBecome o f w p r q s t) (hu : Becomes o w p' q' t u) : BothBecome o f w p' r q' s u where
  apart := h.apart
  first := hu.spout
  second := (hu.others f h.apart).trans h.second
  port := hu.port
  others j ho hf := (hu.others j ho).trans (h.others j ho hf)
  tables := h.tables.trans hu.tables
  slots m hm := (h.slots m hm).trans (hu.slots m hm)
  wf := hu.wf ∘ h.wf

/-- A further step changes the second spout. -/
theorem onSecond (h : BothBecome o f w p r q s t) (hu : Becomes f w r' q' t u) : BothBecome o f w p r' q' s u :=
  (h.swap.onFirst hu).swap

/-- The state reached, seen from its first spout. -/
theorem atFirst (h : BothBecome o f w p r q s t) : Becomes o w p q t t := by
  have hrefl := Becomes.refl o w t
  rw [h.first, h.port] at hrefl
  exact hrefl

/-- The state reached, seen from its second spout. -/
theorem atSecond (h : BothBecome o f w p r q s t) : Becomes f w r q t t := h.swap.atFirst

/-- The state reached, as it stands. -/
theorem here (h : BothBecome o f w p r q s t) : BothBecome o f none p r q t t := by
  have hrefl := refl h.apart none t
  rw [h.first, h.second, h.port] at hrefl
  exact hrefl

/-- What writes no slot may be read as writing one. -/
theorem widen (h : BothBecome o f none p r q s t) (w : Option SlotId) : BothBecome o f w p r q s t :=
  { h with slots := fun m _ => h.slots m (by simp) }

theorem trans (h : BothBecome o f w p r q s t) (h' : BothBecome o f w p' r' q' t u) : BothBecome o f w p' r' q' s u where
  apart := h.apart
  first := h'.first
  second := h'.second
  port := h'.port
  others j ho hf := (h'.others j ho hf).trans (h.others j ho hf)
  tables := h.tables.trans h'.tables
  slots m hm := (h.slots m hm).trans (h'.slots m hm)
  wf := h'.wf ∘ h.wf

end BothBecome

/-- One spout changes: both of a pair, seen from there. -/
theorem Becomes.both {o f : SpoutId} {w : Option SlotId} {p : Spout} {q : Port} {s t : State} (h : Becomes o w p q s t)
    (hne : f ≠ o) : BothBecome o f w p (s.spout f) q s t := (BothBecome.refl hne w s).onFirst h

/-! ## A pair -/

namespace State.pair

variable {o : SpoutId} {s : State} (h : s.pair o)
include h

theorem even : o.val % 2 = 0 := h.1
theorem isTwin : s.isTwin o = true := h.2.1
theorem isBound_leader : s.isBound o = false := h.2.2.1
theorem isBound : s.isBound (followerOf o) = true := h.2.2.2.1
theorem hasProfile : s.hasProfile o = true := h.2.2.2.2.1
theorem hasProfile_follower : s.hasProfile (followerOf o) = true := h.2.2.2.2.2
theorem stage_follower : s.stage (followerOf o) = .bound := eq_of_beq h.isBound
theorem apart : followerOf o ≠ o := followerOf_ne h.even
theorem leaderOf_follower : leaderOf (followerOf o) = o := leaderOf_followerOf h.even

end State.pair

/-! ## The pair's compartment -/

section Members

variable {o : SpoutId} {s : State} (ht : s.isTwin o = true) (hb : s.isBound (followerOf o) = true)
include ht

theorem mass_twin : s.mass o = (s.channel o).delivered + (s.channel (followerOf o)).delivered := by
  unfold State.mass
  rw [ht, if_pos rfl]

include hb

theorem forMembers_pair (g : SpoutId → State → State) : forMembers o g s = g (followerOf o) (g o s) := by
  unfold forMembers
  rw [members_pair ht hb]; rfl

end Members

/-- R33: a follower whose gate is shut is not cut. -/
theorem cutMember_shut {m : SpoutId} {s : State} (o : SpoutId) (h : (s.gate m).isOpen = false) : cutMember o m s = s := by
  unfold cutMember
  rw [h, if_neg Bool.false_ne_true]

/-- R33: a cut without a reason, of a spout with an open gate. -/
def Spout.shut (p : Spout) : Spout := p.onContext (Context.shut p.closeTime)

/-- R33: the gate that a cut has shut. -/
theorem Becomes.gateIsCut_shut {i : SpoutId} {w : Option SlotId} {p : Spout} {q : Port} {s t : State}
    (h : Becomes i w p.shut q s t) (hp : p.calibration.profileValid = true) : t.gateIsCut i :=
  h.gateIsCut (g := p.context.gate) rfl hp

/-- R59: the spout that its leader's switch has closed, with its close record. -/
def Spout.closedBehind (p : Spout) : Spout := p.onContext fun c => { c with
  gate := c.gate.cut p.closeTime, phase := .closing
  compartment := { c.compartment with closeAwaited := true }
  closeRecord := some { rate := p.channel.rate, delivered := p.channel.delivered } }

theorem Becomes.gateIsCut_closedBehind {i : SpoutId} {w : Option SlotId} {p : Spout} {q : Port} {s t : State}
    (h : Becomes i w p.closedBehind q s t) (hp : p.calibration.profileValid = true) : t.gateIsCut i :=
  h.gateIsCut (g := p.context.gate) rfl hp

/-- R59: the close order to a follower whose gate is open. -/
theorem becomes_closeFollower {o : SpoutId} {s : State} (ht : s.isTwin o = true) (hb : s.isBound (followerOf o) = true)
    (hg : (s.gate (followerOf o)).isOpen = true) :
    Becomes (followerOf o) none (s.spout (followerOf o)).closedBehind s.port s (closeFollower o s) := by
  have hrefl := Becomes.refl (followerOf o) none s
  have hcut := (hrefl.updateGate (GateUnit.cut (s.closeTime (followerOf o)))).updateCompartment fun c =>
    { c with closeAwaited := true }
  have hclosed := (hcut.updateContext fun x => { x with
    closeRecord := some { rate := (s.channel (followerOf o)).rate, delivered := (s.channel (followerOf o)).delivered } }).setPhase
      .closing
  unfold closeFollower; dsimp only
  rw [ht, hb, hg, if_pos (by rfl)]
  rw [hrefl.closeTime] at hclosed
  unfold cutGate setCloseAwaited
  rw [hrefl.closeTime]
  exact hclosed

end Sys2Proof.Machine

/-! A twin's feed (R58 to R61): the switch and the cuts on the combined mass, and a sample of the follower. -/

namespace Sys2Proof.Machine

/-! ## The cut of a leader whose follower is shut -/

/-- R33: the leader is cut, its follower's gate shut already. -/
theorem BothBecome.cut_leader {o : SpoutId} {w : Option SlotId} {p r : Spout} {q : Port} {s u : State}
    (h : BothBecome o (followerOf o) w p r q s u) (ht : p.context.order.twin = true) (hb : r.context.stage = .bound)
    (hg : p.context.gate.isOpen = true) (hs : r.context.gate.isOpen = false) :
    BothBecome o (followerOf o) w p.shut r q s (cut o none u) := by
  have htwin : u.isTwin o = true := h.atFirst.isTwin.trans ht
  have hbound : u.isBound (followerOf o) = true := h.atSecond.isBound.trans (by rw [hb]; rfl)
  have hmember := h.onFirst h.atFirst.cutMember
  have hfollower : cutMember o (followerOf o) (cutMember o o u) = cutMember o o u :=
    cutMember_shut o (by rw [hmember.atSecond.gate]; exact hs)
  have hcut := hmember.onFirst ((hmember.atFirst.updateCompartment (Compartment.setCause none)).setStage .closing)
  unfold Machine.cut
  rw [forMembers_pair htwin hbound, hfollower]
  have hshut : p.shut = p.cut none := by
    unfold Spout.shut Spout.cut Spout.onContext
    rw [Context.cut_none hg]
  rw [hshut]; exact hcut

/-! ## The combined cut (R60) -/

/-- R31: the hold values that a fine cut of the context would record. -/
def State.holdValues (s : State) (o : SpoutId) : HoldValues where
  deliveredAtCut := s.mass o + s.residual o
  rateAtCut := (s.channel o).rate
  lagUsed := s.lag o (s.order o).product

/-- R31, R60: the mass that the combined cut reaches. -/
def State.reaches (s : State) (o : SpoutId) : Nat := s.mass o + s.residual o + s.prediction o (s.channel o).rate

theorem fineCut_short {o : SpoutId} {s : State} (h : s.reaches o < (s.compartment o).effectiveTarget) : fineCut o s = s :=
  if_neg (Nat.not_le.2 h)

/-- R60: the combined cut, with its hold values, of a leader whose follower's gate is shut. -/
theorem BothBecome.fineCut {o : SpoutId} {w : Option SlotId} {p r : Spout} {q : Port} {s u : State}
    (h : BothBecome o (followerOf o) w p r q s u) (ht : p.context.order.twin = true) (hb : r.context.stage = .bound)
    (hg : p.context.gate.isOpen = true) (hs : r.context.gate.isOpen = false)
    (hr : (u.compartment o).effectiveTarget ≤ u.reaches o) :
    BothBecome o (followerOf o) w (p.holding (u.holdValues o)).shut r q s (fineCut o u) := by
  have hheld := h.onFirst (h.atFirst.updateCompartment fun c => { c with hold := some (u.holdValues o) })
  have hcut : Machine.fineCut o u = cut o none (u.updateCompartment o fun c => { c with hold := some (u.holdValues o) }) :=
    if_pos hr
  rw [hcut]
  exact hheld.cut_leader ht hb hg hs

/-- R60, R62: no residual without a close record, or past the settle. -/
theorem residual_none {o : SpoutId} {s : State}
    (h : ¬ ((s.context (followerOf o)).phase = .closing ∨ (s.context (followerOf o)).phase = .settling)
      ∨ (s.context (followerOf o)).closeRecord = none) : s.residual o = 0 := by
  unfold State.residual; dsimp only
  obtain h | h := h
  · have hphase : ((s.context (followerOf o)).phase == .closing || (s.context (followerOf o)).phase == .settling) = false := by
      simpa using h
    rw [hphase, Bool.and_false]
  · rw [h]
    cases s.isTwin o && _ <;> rfl

/-- R60: the residual of a follower that closes or settles. -/
theorem residual_closing {o : SpoutId} {s : State} {c : CloseRecord} (ht : s.isTwin o = true)
    (h : (s.context (followerOf o)).phase = .closing ∨ (s.context (followerOf o)).phase = .settling)
    (hc : (s.context (followerOf o)).closeRecord = some c) : (s.residual o : Int) =
      max 0 (((c.rate * s.lag (followerOf o) (s.order o).product / 1000 : Nat) : Int) + (s.order o).offset
        - (((s.channel (followerOf o)).delivered : Int) - c.delivered)) := by
  have hphase : ((s.context (followerOf o)).phase == .closing || (s.context (followerOf o)).phase == .settling) = true := by
    simpa using h
  unfold State.residual; dsimp only
  rw [ht, hphase, hc]
  exact (Int.toNat_eq_max _).trans (Int.max_comm ..)

/-- R60: what the combined cut of `s` reaches where `residual` is what the follower still promises. -/
theorem le_reaches {o : SpoutId} {s : State} (ht : s.isTwin o = true) (target : Nat) : target ≤ s.reaches o
    ↔ (target : Int) ≤ ((((s.channel o).delivered + (s.channel (followerOf o)).delivered) + s.residual o : Nat) : Int)
      + max 0 ((((s.channel o).rate * s.lag o (s.order o).product / 1000 : Nat) : Int) + (s.order o).offset) := by
  unfold State.reaches
  rw [mass_twin ht]
  exact le_add_inFlightMass ..

/-! ## The switch (R59) -/

/-- R59: the follower has been closed by the switch and the leader's gate is open: what the combined cut weighs in `u`, and what it
makes of the pair. -/
structure Switched (o : SpoutId) (p : Spout) (s u : State) : Prop where
  both : BothBecome o (followerOf o) none p (s.spout (followerOf o)).closedBehind s.port s u
  order : p.context.order = s.order o
  compartment : p.context.compartment = s.compartment o
  channel : p.channel = s.channel o
  calibration : p.calibration = s.calibration o
  gate : p.context.gate.isOpen = true

namespace Switched

variable {o : SpoutId} {p : Spout} {s u : State} (h : Switched o p s u) (hp : s.pair o)
include h

theorem lag (i : SpoutId) (x : ProductId) : u.lag i x = s.lag i x := by
  unfold State.lag; rw [h.both.tables.2.1]

theorem order_eq : u.order o = s.order o := h.both.atFirst.order.trans h.order

include hp

theorem isTwin : u.isTwin o = true := (congrArg OrderState.twin h.order_eq).trans hp.isTwin

theorem residual : u.residual o
    = (max 0 ((((s.channel (followerOf o)).rate * s.lag (followerOf o) (s.order o).product / 1000 : Nat) : Int)
      + (s.order o).offset)).toNat := by
  have hchannel : u.channel (followerOf o) = s.channel (followerOf o) := h.both.atSecond.channel
  have hresidual := residual_closing (c := { rate := (s.channel (followerOf o)).rate, delivered := (s.channel (followerOf o)).delivered })
    (h.isTwin hp) (.inl (congrArg (fun c => c.phase) h.both.atSecond.context)) (congrArg (fun c => c.closeRecord) h.both.atSecond.context)
  rw [hchannel, h.order_eq, h.lag] at hresidual
  dsimp only at hresidual
  omega

theorem holdValues : u.holdValues o = {
    deliveredAtCut := (s.channel o).delivered + (s.channel (followerOf o)).delivered
      + (max 0 ((((s.channel (followerOf o)).rate * s.lag (followerOf o) (s.order o).product / 1000 : Nat) : Int)
        + (s.order o).offset)).toNat
    rateAtCut := (s.channel o).rate
    lagUsed := s.lag o (s.order o).product } := by
  have hfollower : u.channel (followerOf o) = s.channel (followerOf o) := h.both.atSecond.channel
  have hleader : u.channel o = s.channel o := h.both.atFirst.channel.trans h.channel
  unfold State.holdValues
  rw [mass_twin (h.isTwin hp), h.residual hp, h.order_eq, h.lag, hfollower, hleader]

/-- R60: the combined cut after the switch. -/
theorem le_reaches_iff (target : Nat) : target ≤ u.reaches o
    ↔ (target : Int) ≤ (((s.channel o).delivered + (s.channel (followerOf o)).delivered
      + (max 0 ((((s.channel (followerOf o)).rate * s.lag (followerOf o) (s.order o).product / 1000 : Nat) : Int)
        + (s.order o).offset)).toNat : Nat) : Int)
      + max 0 ((((s.channel o).rate * s.lag o (s.order o).product / 1000 : Nat) : Int) + (s.order o).offset) := by
  have hfollower : u.channel (followerOf o) = s.channel (followerOf o) := h.both.atSecond.channel
  have hleader : u.channel o = s.channel o := h.both.atFirst.channel.trans h.channel
  rw [le_reaches (h.isTwin hp), h.residual hp, h.order_eq, h.lag, hfollower, hleader]

/-- R59, R60: the sample on which the switch holds, whether the combined cut is due on it or not. -/
theorem fineCut : let t := fineCut o u
    ((¬ (s.compartment o).effectiveTarget ≤ u.reaches o → t = u)
      ∧ ((s.compartment o).effectiveTarget ≤ u.reaches o →
        BothBecome o (followerOf o) none (p.holding (u.holdValues o)).shut (s.spout (followerOf o)).closedBehind s.port s t)) := by
  have htarget : (u.compartment o).effectiveTarget = (s.compartment o).effectiveTarget := by
    rw [h.both.atFirst.compartment, h.compartment]
  refine ⟨fun hr => fineCut_short (by rw [htarget]; exact Nat.not_le.1 hr), fun hr => ?_⟩
  exact h.both.fineCut ((congrArg OrderState.twin h.order).trans hp.isTwin) hp.stage_follower h.gate rfl (by rw [htarget]; exact hr)

end Switched

/-- R59: the follower closed by the switch. -/
theorem switched_closeFollower {o : SpoutId} {s : State} (hp : s.pair o) (hg : (s.gate o).isOpen = true)
    (hf : (s.gate (followerOf o)).isOpen = true) : Switched o (s.spout o) s (closeFollower o s) := by
  exact ⟨(BothBecome.refl hp.apart none s).onSecond (becomes_closeFollower hp.isTwin hp.isBound hf), rfl, rfl, rfl, rfl, hg⟩

/-- R59: the follower closed, and the leader in fine feed. -/
theorem switched_toFine {o : SpoutId} {s : State} (hp : s.pair o) (hg : (s.gate o).isOpen = true)
    (hf : (s.gate (followerOf o)).isOpen = true) :
    Switched o (s.spout o).switched s (setStage o .fine ((closeFollower o s).updateGate o GateUnit.toFine)) := by
  have h := (switched_closeFollower hp hg hf).both
  exact ⟨h.onFirst ((h.atFirst.updateGate GateUnit.toFine).setStage .fine), rfl, rfl, rfl, rfl, rfl⟩

theorem switchHolds_iff {o : SpoutId} {s : State} (ht : s.isTwin o = true) : s.switchHolds o = true ↔
    (s.compartment o).effectiveTarget
      ≤ (s.channel o).delivered + (s.channel (followerOf o)).delivered + (s.order o).fineBand := by
  unfold State.switchHolds
  rw [mass_twin ht, decide_eq_true_eq]

/-! ## What the switch and the cut show -/

/-- R59: what the statement says of a follower closed by the switch, and of what the sample leaves alone. -/
theorem BothBecome.shows_closedBehind {o : SpoutId} {p : Spout} {s t : State} (hp : s.pair o)
    (h : BothBecome o (followerOf o) none p (s.spout (followerOf o)).closedBehind s.port s t) (hc : p.channel = s.channel o) :
    let f := followerOf o
    (t.gateIsCut f ∧ t.stage f = .bound ∧ (t.context f).phase = .closing
      ∧ (t.context f).closeRecord = some { rate := (s.channel f).rate, delivered := (s.channel f).delivered })
      ∧ (t.channel o = s.channel o ∧ t.channel f = s.channel f
        ∧ (∀ j, j ≠ o → j ≠ f → t.spout j = s.spout j) ∧ t.port = s.port ∧ SameTables s t) := by
  exact ⟨⟨h.atSecond.gateIsCut_closedBehind hp.hasProfile_follower, h.atSecond.stage.trans hp.stage_follower,
      (congrArg (fun c => c.phase) h.atSecond.context :), (congrArg (fun c => c.closeRecord) h.atSecond.context :)⟩,
    h.atFirst.channel.trans hc, h.atSecond.channel, h.others, h.port, h.tables⟩

/-- R60: what the statement says of a leader cut with its hold values. -/
theorem BothBecome.shows_held {o f : SpoutId} {p r : Spout} {q : Port} {v : HoldValues} {s t : State}
    (h : BothBecome o f none (p.holding v).shut r q s t) (hp : p.calibration.profileValid = true)
    (hc : p.context.compartment = s.compartment o) : t.stage o = .closing ∧ t.gateIsCut o
      ∧ (t.compartment o).cause = (s.compartment o).cause ∧ (t.compartment o).hold = some v :=
  ⟨h.atFirst.stage, h.atFirst.gateIsCut_shut hp,
    (congrArg (fun c => c.cause) h.atFirst.compartment).trans (congrArg (fun c => c.cause) hc),
    (congrArg (fun c => c.hold) h.atFirst.compartment :)⟩

/-- R59, R60: what the statement says of the sample on which the switch holds. -/
theorem Switched.shows {o : SpoutId} {p : Spout} {s u : State} (h : Switched o p s u) (hp : s.pair o) :
    let f := followerOf o
    let target := (s.compartment o).effectiveTarget
    let combined := (s.channel o).delivered + (s.channel f).delivered
    let rate := (s.channel o).rate
    let lag := s.lag o (s.order o).product
    let residual : Nat :=
      (max 0 ((((s.channel f).rate * s.lag f (s.order o).product / 1000 : Nat) : Int) + (s.order o).offset)).toNat
    let reached := ((combined + residual : Nat) : Int) + max 0 (((rate * lag / 1000 : Nat) : Int) + (s.order o).offset)
    let t := Machine.fineCut o u
    t.gateIsCut f ∧ t.stage f = .bound ∧ (t.context f).phase = .closing
      ∧ (t.context f).closeRecord = some { rate := (s.channel f).rate, delivered := (s.channel f).delivered }
      ∧ (reached < target → t = u)
      ∧ (target ≤ reached → t.stage o = .closing ∧ t.gateIsCut o ∧ (t.compartment o).cause = (s.compartment o).cause
          ∧ (t.compartment o).hold = some { deliveredAtCut := combined + residual, rateAtCut := rate, lagUsed := lag })
      ∧ t.channel o = s.channel o ∧ t.channel f = s.channel f
      ∧ (∀ j, j ≠ o → j ≠ f → t.spout j = s.spout j) ∧ t.port = s.port ∧ SameTables s t := by
  obtain ⟨hshort, hcut⟩ := h.fineCut hp
  have hreach := h.le_reaches_iff hp (s.compartment o).effectiveTarget
  by_cases hdue : (s.compartment o).effectiveTarget ≤ u.reaches o
  · have ht := hcut hdue
    obtain ⟨⟨hshut, hstage, hphase, hrecord⟩, hrest⟩ := ht.shows_closedBehind hp h.channel
    have hprofile : p.calibration.profileValid = true := (congrArg (fun c => c.profileValid) h.calibration).trans hp.hasProfile
    have hheld := ht.shows_held hprofile h.compartment
    rw [h.holdValues hp] at hheld
    exact ⟨hshut, hstage, hphase, hrecord, fun hr => absurd (hreach.1 hdue) (Int.not_le.2 hr), fun _ => hheld, hrest⟩
  · obtain ⟨⟨hshut, hstage, hphase, hrecord⟩, hrest⟩ := h.both.shows_closedBehind hp h.channel
    dsimp only
    rw [hshort hdue]
    exact ⟨hshut, hstage, hphase, hrecord, fun _ => rfl, fun hr => absurd (hreach.2 hr) hdue, hrest⟩

/-! ## A sample of the follower (R58) -/

section Follower

variable {o : SpoutId} {s : State} (hp : s.pair o) (k : Reaction) (x : Sample)
include hp

/-- R13: what follows a sample of a BOUND follower that has no capture in progress. -/
theorem deliverSample_follower (hc : (s.calibration (followerOf o)).capture = .none) :
    deliverSample k (followerOf o) x s = followerSample k (followerOf o) (channelSample (followerOf o) x s) := by
  have hbound : (channelSample (followerOf o) x s).isBound (followerOf o) = true :=
    (becomes_channelSample (followerOf o) x s).isBound.trans hp.isBound
  unfold deliverSample; dsimp only
  rw [if_pos hc, hbound, if_pos rfl]

omit hp in
/-- A sample's surge report needs a run of surge samples. -/
theorem surgeReport_false {i : SpoutId} {s u : State} (hp : u.profile i = s.profile i)
    (h : (u.channel i).surgeRun < (s.profile i).surgeCount) : u.surgeReport i = false := by
  unfold State.surgeReport
  rw [hp, decide_eq_false (Nat.not_le.2 h), Bool.and_false]

/-- R58: a follower's sample without a surge, past its settle: the leader's stage is evaluated as the sample met it. -/
theorem followerSample_evaluates {u v : State} {w : Option SlotId} {p : Spout} {q : Port}
    (hsurge : ((u.gate (followerOf o)).isOpen && u.surgeReport (followerOf o)) = false)
    (hv : followerSettle k (followerOf o) (restartStarve (followerOf o) u) = v) (h : Becomes (followerOf o) w p q u v) :
    followerSample k (followerOf o) u = evaluateFeed o v := by
  have hstage : v.stage o = u.stage o :=
    congrArg (fun p : Spout => p.context.stage) (h.others o hp.apart.symm)
  unfold followerSample; dsimp only
  rw [hsurge, if_neg Bool.false_ne_true, hv, hp.leaderOf_follower, if_pos hstage]

omit hp in
theorem becomes_restartStarve (i : SpoutId) (s : State) : ∃ p, Becomes i none p s.port s (restartStarve i s) := by
  unfold restartStarve; dsimp only; split
  · exact ⟨_, ((Becomes.refl i none s).updateGate _).updateCompartment _⟩
  · exact ⟨_, .refl i none s⟩

/-- R58: a sample of a follower that does not settle. -/
theorem deliverSample_follower_feeding (hc : (s.calibration (followerOf o)).capture = .none)
    (hphase : (s.context (followerOf o)).phase ≠ .settling)
    (hsurge : (s.gate (followerOf o)).isOpen = true →
      ((channelSample (followerOf o) x s).channel (followerOf o)).surgeRun < (s.profile (followerOf o)).surgeCount) :
    deliverSample k (followerOf o) x s = evaluateFeed o (restartStarve (followerOf o) (channelSample (followerOf o) x s)) := by
  have hu := becomes_channelSample (followerOf o) x s
  obtain ⟨p, hstarved⟩ := becomes_restartStarve (followerOf o) (channelSample (followerOf o) x s)
  have hkept : ((restartStarve (followerOf o) (channelSample (followerOf o) x s)).context (followerOf o)).phase
      = (s.context (followerOf o)).phase := by
    refine Eq.trans ?_ (congrArg (fun c => c.phase) hu.context)
    unfold restartStarve; dsimp only; split
    · rw [State.updateCompartment, State.updateGate, State.context_updateContext_self, State.context_updateContext_self]
    · rfl
  rw [deliverSample_follower hp k x hc]
  refine followerSample_evaluates hp k ?_ ?_ hstarved
  · rw [hu.gate, Bool.and_eq_false_imp]
    exact fun hg => surgeReport_false hu.profile (hsurge hg)
  · unfold followerSettle
    rw [hkept, if_neg hphase]

/-- R58, R61: a sample of a follower in its settle run, evaluated after what it does to the run. -/
theorem deliverSample_follower_settling (hs : s.stage o ≠ .settling) (hc : (s.calibration (followerOf o)).capture = .none)
    (hphase : (s.context (followerOf o)).phase = .settling) (hg : (s.gate (followerOf o)).isOpen = false)
    (ht : (s.gate (followerOf o)).starve = none) (hd : (s.compartment (followerOf o)).settleDone = false) :
    let f := followerOf o
    let u := channelSample f x s
    let counted := s.settleCounted u f
    deliverSample k f x s = evaluateFeed o (if (s.profile f).settleCount ≤ s.runAfter u f then setPhase f .settled counted
      else counted) := by
  intro f u counted
  have hu := becomes_channelSample f x s
  have hcounted := hu.settleCounted s
  have hrest : restartStarve f u = u := by
    unfold restartStarve; dsimp only
    rw [show (u.gate f).starve = none from (congrArg (fun g => g.starve) hu.gate).trans ht]; exact if_neg Bool.false_ne_true
  have hphaseU : (u.context f).phase = .settling := (congrArg (fun c => c.phase) hu.context).trans hphase
  have hdone : (counted.compartment f).settleDone = decide ((s.profile f).settleCount ≤ s.runAfter u f) :=
    (congrArg (fun c => c.settleDone) hcounted.compartment :)
  have hwaits : ∀ {p : Spout} {q : Port} {v : State}, Becomes f none p q s v → settleCheck k o v = v := fun hv =>
    if_neg fun h => hs ((congrArg (fun p : Spout => p.context.stage) (hv.others o hp.apart.symm)).symm.trans h.1)
  have hsettle : followerSettle k f (restartStarve f u)
      = if (s.profile f).settleCount ≤ s.runAfter u f then setPhase f .settled counted else counted := by
    unfold followerSettle; dsimp only
    rw [hrest, if_pos hphaseU, countSettle_eq hu.compartment hu.profile hd, hdone, hp.leaderOf_follower,
      hwaits (hcounted.setPhase .settled)]
    simp only [decide_eq_true_eq]
    rfl
  have hself := hu.here.settleCounted s
  have hsurge : ((u.gate f).isOpen && u.surgeReport f) = false := by
    rw [show (u.gate f).isOpen = false from (congrArg (fun g => g.isOpen) hu.gate).trans hg]; rfl
  rw [deliverSample_follower hp k x hc]
  split at hsettle
  · next hrun =>
    rw [if_pos hrun]
    exact followerSample_evaluates hp k hsurge hsettle
      (hself.setPhase .settled)
  · next hrun =>
    rw [if_neg hrun]
    exact followerSample_evaluates hp k hsurge hsettle hself

end Follower

/-! ## The statement -/

variable {o : SpoutId} {s : State}

/-- R59: a twin's sample in COARSE. -/
theorem evaluateFeed_coarse_pair (hs : s.stage o = .coarse) : evaluateFeed o s =
    if s.switchHolds o then fineCut o (setStage o .fine ((closeFollower o s).updateGate o GateUnit.toFine)) else s := by
  unfold evaluateFeed
  rw [hs]; rfl

/-- R60: a twin's sample in FINE, its follower's gate shut. -/
theorem evaluateFeed_fine_shut (hs : s.stage o = .fine) (hf : (s.gate (followerOf o)).isOpen = false) :
    evaluateFeed o s = fineCut o s := by
  have hclosed : closeFollower o s = s := by
    unfold closeFollower; dsimp only
    rw [hf, Bool.and_false, if_neg Bool.false_ne_true]
  unfold evaluateFeed
  rw [hs]; dsimp only
  unfold fineSample
  rw [hclosed, ite_self]

/-- R59: a twin's first sample in FINE after both verifications. -/
theorem evaluateFeed_fine_switch (hs : s.stage o = .fine) (h : s.switchHolds o = true) :
    evaluateFeed o s = fineCut o (closeFollower o s) := by
  unfold evaluateFeed
  rw [hs]; dsimp only
  unfold fineSample
  rw [h, if_pos rfl]

/-- R61: a twin's sample in TRIM. -/
theorem evaluateFeed_trim_pair (ht : s.isTwin o = true) (hs : s.stage o = .trim) : evaluateFeed o s =
    if (s.compartment o).effectiveTarget ≤ (s.channel o).delivered + (s.channel (followerOf o)).delivered
        + s.prediction o (trimRate (s.order o) (s.compartment o)) then cut o none s
    else s := by
  unfold evaluateFeed
  rw [hs]; dsimp only
  unfold trimCut
  rw [mass_twin ht]

/-- Settles O44: the switch closes the follower (`Switched`), and the combined cut is one lemma for every stage it is evaluated in. -/
theorem twinFeedIsSwitchedAndCutOnTheCombinedMass : Obligations.TwinFeedIsSwitchedAndCutOnTheCombinedMass := by
  unfold Obligations.TwinFeedIsSwitchedAndCutOnTheCombinedMass
  refine ⟨fun o s hp hs hg hf => ?_, fun o s hp hs hg hf => ?_, fun o s hp hs hg hf => ?_, fun o x s hp hs hc => ?_,
    fun o s hp hs hg hf hband => ?_⟩
  · have hfeed := evaluateFeed_coarse_pair hs
    refine ⟨fun hr => hfeed.trans (if_neg fun h => absurd ((switchHolds_iff hp.isTwin).1 h) (Nat.not_le.2 hr)), fun hr => ?_⟩
    rw [if_pos ((switchHolds_iff hp.isTwin).2 hr)] at hfeed
    have hu := switched_toFine hp hg hf
    obtain ⟨hshut, hstage, hphase, hrecord, hshort, hcut, hrest⟩ := hu.shows hp
    dsimp only
    rw [hfeed]
    refine ⟨hshut, hstage, hphase, hrecord, fun h => ?_, hcut, hrest⟩
    rw [hshort h]
    exact ⟨hu.both.atFirst.stage, hu.both.atFirst.gate, hu.both.atFirst.compartment⟩
  · intro f target combined rate lag lagF closing t residual hnone hsome reached
    have hresidual : s.residual o = residual := by
      by_cases hclosing : closing
      · cases hc : (s.context f).closeRecord with
        | none => exact (residual_none (.inr hc)).trans (hnone (.inr hc)).symm
        | some c => exact Int.ofNat.inj ((residual_closing hp.isTwin hclosing hc).trans (hsome c hclosing hc).symm)
      · exact (residual_none (.inl hclosing)).trans (hnone (.inl hclosing)).symm
    have hreach := le_reaches hp.isTwin (s := s) target
    rw [hresidual] at hreach
    have hfeed : t = fineCut o s := evaluateFeed_fine_shut hs hf
    refine ⟨fun hr => hfeed.trans (fineCut_short (Nat.not_le.1 fun h => absurd (hreach.1 h) (Int.not_le.2 hr))), fun hr => ?_⟩
    have ht := (BothBecome.refl hp.apart none s).fineCut hp.isTwin hp.stage_follower hg hf (hreach.2 hr)
    have hvalues : s.holdValues o = { deliveredAtCut := combined + residual, rateAtCut := rate, lagUsed := lag } := by
      unfold State.holdValues
      rw [mass_twin hp.isTwin, hresidual]; rfl
    rw [← hfeed, hvalues] at ht
    obtain ⟨hstage, hgate, hcause, hhold⟩ := ht.shows_held hp.hasProfile rfl
    exact ⟨hstage, hgate, hcause, hhold, ht.second, ht.atFirst.channel, ht.port, ht.tables⟩
  · intro f atCut rate lag reached t
    have hrate : trimRate (s.order o) (s.compartment o) = rate := trimRate_eq ..
    have hreach := le_add_inFlightMass (s.compartment o).effectiveTarget
      ((s.channel o).delivered + (s.channel f).delivered) rate lag (s.order o).offset
    have hfeed := evaluateFeed_trim_pair hp.isTwin hs
    rw [hrate] at hfeed
    refine ⟨fun hr => hfeed.trans (if_neg fun h => absurd (hreach.1 h) (Int.not_le.2 hr)), fun hr => ?_⟩
    have ht := (BothBecome.refl hp.apart none s).cut_leader hp.isTwin hp.stage_follower hg hf
    rw [← (hfeed.trans (if_pos (hreach.2 hr)) : t = cut o none s)] at ht
    exact ⟨ht.atFirst.stage, ht.atFirst.gateIsCut_shut hp.hasProfile, (congrArg (fun c => c.hold) ht.atFirst.compartment :),
      ht.second, ht.tables⟩
  · have hsettling : s.stage o ≠ .settling := by
      obtain h | h | h := hs <;> rw [h] <;> exact fun e => by cases e
    have hu := becomes_channelSample (followerOf o) x s
    refine ⟨fun hphase hsurge => ?_, fun hphase hgate hstarve hdone => ?_⟩
    · rw [← restartStarve_eq hu.gate hu.profile]
      exact deliverSample_follower_feeding hp react x hc hphase hsurge
    · have hsample := deliverSample_follower_settling hp react x hsettling hc hphase hgate hstarve hdone
      exact ⟨fun hrun => hsample.trans (congrArg (evaluateFeed o) (if_neg (Nat.not_le.2 hrun))),
        fun hrun => hsample.trans (congrArg (evaluateFeed o) (if_pos hrun))⟩
  · have hfeed := evaluateFeed_fine_switch hs ((switchHolds_iff hp.isTwin).2 hband)
    have hu := switched_closeFollower hp hg hf
    obtain ⟨hshut, hstage, hphase, hrecord, hshort, hcut, hrest⟩ := hu.shows hp
    dsimp only
    rw [hfeed]
    refine ⟨hshut, hstage, hphase, hrecord, fun h => ?_, hcut, hrest⟩
    rw [hshort h]
    exact ⟨hu.both.atFirst.stage.trans hs, hu.both.atFirst.gate, hu.both.atFirst.compartment⟩

end Sys2Proof.Machine

/-! A pair's compartment starts (R55, R56): ENGAGED reported by either spout, the fields cleared, and what the checks answer. -/

namespace Sys2Proof.Machine

/-! ## ENGAGED reported by a spout of a pair -/

/-- R129: the last switch change of a lowering is tested by the positioner. -/
theorem exec_reportsEngaged_tests {c : Instr} {i : SpoutId} {s : State} (hc : s.reportsEngaged c i) :
    ∃ n level, (n = .spoutLowered ∨ n = .spoutRaised)
      ∧ exec c s = .next (testLowered react i (updateLine i n (fun l => { l with taken := level, timer := none }) s))
      ∧ ((s.spout i).taking n level).field.spoutLowered.taken = true
      ∧ ((s.spout i).taking n level).field.spoutRaised.taken = false := by
  obtain ⟨hposition, hcase⟩ := hc
  have hlowering (n : InputName) (level : Bool) :
      ((updateLine i n (fun l => { l with taken := level, timer := none }) s).positioner i).position = .lowering :=
    (congrArg (fun x => x.position) ((Becomes.refl i none s).taking n level).positioner).trans hposition
  obtain ⟨rfl, hd, hother⟩ | ⟨rfl, hd, hother⟩ := hcase
  · refine ⟨.spoutLowered, true, .inl rfl, ?_, rfl, hother⟩
    rw [exec_debounceExpiry hd]
    unfold takeChange deliverChange; dsimp only
    unfold spoutLoweredChange; rw [hlowering]
  · refine ⟨.spoutRaised, false, .inr rfl, ?_, hother, rfl⟩
    rw [exec_debounceExpiry hd]
    unfold takeChange deliverChange; dsimp only
    unfold spoutRaisedChange; rw [hlowering]

/-- R129: both switches say that the spout is down: ENGAGED is reported. -/
theorem testLowered_reports (k : Reaction) {i : SpoutId} {w : Option SlotId} {p : Spout} {q : Port} {s t : State}
    (h : Becomes i w p q s t) (hposition : p.positioner.position = .lowering) (hlowered : p.field.spoutLowered.taken = true)
    (hraised : p.field.spoutRaised.taken = false) : ∃ u, testLowered k i t = k (.engaged i) u
      ∧ Becomes i w (p.onPositioner (Positioner.arrive .engaged)) q s u := by
  refine ⟨_, ?_, h.updatePosition (Positioner.arrive .engaged)⟩
  unfold testLowered
  exact if_pos ⟨(congrArg (fun x => x.position) h.positioner).trans hposition, (h.present _).trans hlowered,
    by rw [h.present]; exact hraised ▸ Bool.false_ne_true⟩

/-- R55: what the first report of ENGAGED keeps, and what the second starts. -/
theorem onEngaged_pair (k : Reaction) {o m : SpoutId} {s u : State} {p : Spout} (hp : s.pair o) (hm : m = o ∨ m = followerOf o)
    (hs : s.stage o = .engaging) (hphase : (s.context (followerOf o)).phase = .engaging) (hu : Becomes m none p s.port s u)
    (hcontext : p.context = s.context m) :
    let v := u.updateCompartment m fun x => { x with engagedReported := true }
    onEngaged k m u = if (s.compartment (if m = o then followerOf o else o)).engagedReported then startCompartment k o v else v := by
  intro v
  have hv := hu.updateCompartment fun x => { x with engagedReported := true }
  have hstages : ∀ j, u.stage j = s.stage j := hu.same_at (fun x => x.context.stage) (congrArg (fun c => c.stage) hcontext)
  have htwins : v.isTwin o = true :=
    (hv.same_at (fun x => x.context.order.twin) (congrArg (fun c => c.order.twin) hcontext) o :).trans hp.isTwin
  have hbounds : v.isBound (followerOf o) = true := (congrArg (· == Stage.bound)
    (hv.same_at (fun x => x.context.stage) (congrArg (fun c => c.stage) hcontext) (followerOf o) :)).trans hp.isBound
  have hself : (v.compartment m).engagedReported = true := congrArg (fun x => x.engagedReported) hv.compartment
  have hother : ∀ j, j ≠ m → (v.compartment j).engagedReported = (s.compartment j).engagedReported := fun j hj =>
    congrArg (fun x : Spout => x.context.compartment.engagedReported) (hv.others j hj)
  have howner : u.ownerOf m = o := by
    unfold State.ownerOf State.isBound
    rw [hstages]
    obtain rfl | rfl := hm
    · exact if_neg (by rw [hs]; decide)
    · rw [hp.stage_follower, hp.leaderOf_follower]; rfl
  have hworks : u.stage o = .engaging ∧ (m = o ∨ (u.context m).phase = .engaging) := by
    refine ⟨(hstages o).trans hs, hm.imp_right fun e => ?_⟩
    rw [hu.context, hcontext, e]; exact hphase
  have hall : ((v.members o).all fun j => (v.compartment j).engagedReported)
      = (s.compartment (if m = o then followerOf o else o)).engagedReported := by
    rw [members_pair htwins hbounds, List.all_cons, List.all_cons, List.all_nil, Bool.and_true]
    obtain rfl | rfl := hm
    · rw [hself, Bool.true_and, if_pos rfl, hother _ hp.apart]
    · rw [hself, Bool.and_true, if_neg hp.apart, hother _ hp.apart.symm]
  unfold onEngaged; dsimp only
  rw [howner, if_pos hworks, hall]

/-- R55, R129: the last switch change of the lowering of either spout of a pair. -/
theorem exec_reportsEngaged_pair {c : Instr} {o m : SpoutId} {s : State} (hp : s.pair o) (hm : m = o ∨ m = followerOf o)
    (hc : s.reportsEngaged c m) (hs : s.stage o = .engaging) (hphase : (s.context (followerOf o)).phase = .engaging) :
    ∃ p u, exec c s = .next (if (s.compartment (if m = o then followerOf o else o)).engagedReported then
        startCompartment (reactTo 63) o u else u) ∧ Becomes m none p s.port s u ∧ (s.spout m).Engages p := by
  have hposition := hc.1
  obtain ⟨n, level, hn, hexec, hlowered, hraised⟩ := exec_reportsEngaged_tests hc
  obtain ⟨u, htest, hu⟩ := testLowered_reports react ((Becomes.refl m none s).taking n level) hposition hlowered hraised
  have hreported := onEngaged_pair (reactTo 63) hp hm hs hphase hu rfl
  refine ⟨_, _, ?_, hu.updateCompartment fun x => { x with engagedReported := true }, ?_⟩
  · rw [hexec, htest, react_engaged, hreported]
  · obtain rfl | rfl := hn
    · exact ⟨rfl, rfl, rfl, rfl, hraised, rfl, rfl, rfl, rfl, rfl⟩
    · exact ⟨rfl, rfl, rfl, rfl, hraised, rfl, rfl, rfl, rfl, rfl⟩

/-! ## What the compartment start finds of each spout -/

/-- R55: what the compartment start finds of a spout of the pair: the mark of its report apart, its context is as it was. -/
structure Spout.Reported (s p : Spout) : Prop where
  context : ∃ b, p.context = { s.context with compartment := { s.context.compartment with engagedReported := b } }
  calibration : p.calibration = s.calibration
  channel : p.channel = s.channel
  permit : p.field.permit = s.field.permit
  ready : p.field.indexReady = s.field.indexReady
  level : p.field.levelHigh = s.field.levelHigh
  gateOpen : p.field.gateOpen = s.field.gateOpen
  gateClosed : p.field.gateClosed = s.field.gateClosed

theorem Spout.Reported.refl (p : Spout) : p.Reported p := ⟨⟨p.context.compartment.engagedReported, rfl⟩, rfl, rfl, rfl, rfl, rfl, rfl, rfl⟩

theorem Spout.Engages.reported {s p : Spout} (h : s.Engages p) : s.Reported p :=
  ⟨⟨true, h.context⟩, h.calibration, h.channel, h.permit, h.ready, h.level, h.gateOpen, h.gateClosed⟩

namespace Spout.Reported

variable {s p : Spout} (h : s.Reported p)
include h

theorem slot : p.context.slot = s.context.slot := by obtain ⟨b, e⟩ := h.context; rw [e]
theorem stage : p.context.stage = s.context.stage := by obtain ⟨b, e⟩ := h.context; rw [e]
theorem phase : p.context.phase = s.context.phase := by obtain ⟨b, e⟩ := h.context; rw [e]
theorem order : p.context.order = s.context.order := by obtain ⟨b, e⟩ := h.context; rw [e]
theorem gate : p.context.gate = s.context.gate := by obtain ⟨b, e⟩ := h.context; rw [e]
theorem index : p.context.compartment.index = s.context.compartment.index := by obtain ⟨b, e⟩ := h.context; rw [e]
theorem target : p.context.compartment.effectiveTarget = s.context.compartment.effectiveTarget := by
  obtain ⟨b, e⟩ := h.context; rw [e]

end Spout.Reported

/-- The two spouts of the pair as its compartment start finds them in `u`. -/
structure State.PairStarts (o : SpoutId) (n : SlotId) (p r : Spout) (s u : State) : Prop where
  pair : s.pair o
  both : BothBecome o (followerOf o) none p r s.port s u
  leader : (s.spout o).Reported p
  follower : (s.spout (followerOf o)).Reported r
  slot : (s.context o).slot = some n
  index : (s.compartment o).index < 12

/-- R55: either spout's report leaves the pair as the compartment start finds it. -/
theorem pairStarts_of_engages {o m : SpoutId} {n : SlotId} {p : Spout} {s u : State} (hp : s.pair o)
    (hm : m = o ∨ m = followerOf o) (hslot : (s.context o).slot = some n) (hindex : (s.compartment o).index < 12)
    (hu : Becomes m none p s.port s u) (he : (s.spout m).Engages p) :
    ∃ a b, s.PairStarts o n a b u ∧ (if m = o then a else b) = p
      ∧ (if m = o then b else a) = s.spout (if m = o then followerOf o else o) := by
  obtain rfl | rfl := hm
  · exact ⟨p, _, ⟨hp, hu.both hp.apart, he.reported, .refl _, hslot, hindex⟩, if_pos rfl, by rw [if_pos rfl, if_pos rfl]⟩
  · exact ⟨_, p, ⟨hp, (hu.both hp.apart.symm).swap, .refl _, he.reported, hslot, hindex⟩, if_neg hp.apart,
      by rw [if_neg hp.apart, if_neg hp.apart]⟩

/-! ## The fields cleared (R56) -/

/-- R56: the follower's fields are cleared, and show the leader's index. -/
def Spout.clearedTo (index : Nat) (p : Spout) : Spout := p.onContext fun c => { c with
  closeRecord := none, compartment := { index := index, effectiveTarget := 0 } }

namespace BothBecome

variable {o : SpoutId} {n : SlotId} {p r : Spout} {q : Port} {s t : State}

theorem clearCompartment (h : BothBecome o (followerOf o) (some n) p r q s t) (ht : p.context.order.twin = true)
    (hb : r.context.stage = .bound) (hslot : p.context.slot = some n) (he : p.context.compartment.index < 12) :
    BothBecome o (followerOf o) (some n) p.cleared (r.clearedTo p.context.compartment.index) q s (clearCompartment o t) := by
  have hcurrent : (t.context o).slot = some n := (congrArg (fun c => c.slot) h.atFirst.context).trans hslot
  have hcompartment : t.compartment o = p.context.compartment := h.atFirst.compartment
  have hwritten := h.onFirst (h.atFirst.writeEffectiveTarget he p.context.compartment.effectiveTarget)
  have hleader := hwritten.onFirst (hwritten.atFirst.updateContext fun x => { x with
    closeRecord := none
    compartment := { index := p.context.compartment.index, effectiveTarget := p.context.compartment.effectiveTarget } })
  have hfollower := hleader.onSecond (hleader.atSecond.updateContext fun x => { x with
    closeRecord := none, compartment := { index := p.context.compartment.index, effectiveTarget := 0 } })
  unfold Machine.clearCompartment; dsimp only
  rw [hcurrent]; dsimp only
  rw [hcompartment, forMembers_pair (hwritten.atFirst.isTwin.trans ht) (hwritten.atSecond.isBound.trans (by rw [hb]; rfl))]
  simp only [if_true, h.apart, if_false]
  exact hfollower

/-- R27, R56: the effective target is written in its entry. -/
theorem slotU32_clearCompartment (h : BothBecome o (followerOf o) none p r q s t) (hm : s.memory.wf = true)
    (ht : p.context.order.twin = true) (hb : r.context.stage = .bound) (hslot : p.context.slot = some n)
    (heff : p.context.compartment.effectiveTarget < 4294967296) :
    (Machine.clearCompartment o t).slotU32 n (0x40 + 16 * p.context.compartment.index + 8)
      = p.context.compartment.effectiveTarget := by
  have hcurrent : (t.context o).slot = some n := (congrArg (fun c => c.slot) h.atFirst.context).trans hslot
  have hcompartment : t.compartment o = p.context.compartment := h.atFirst.compartment
  have hwrites (j : Nat) (e : Nat) : (Machine.writeEffectiveTarget n j e t).isTwin o = true
      ∧ (Machine.writeEffectiveTarget n j e t).isBound (followerOf o) = true :=
    ⟨h.atFirst.isTwin.trans ht, h.atSecond.isBound.trans (by rw [hb]; rfl)⟩
  unfold Machine.clearCompartment; dsimp only
  rw [hcurrent]; dsimp only
  rw [hcompartment, forMembers_pair (hwrites _ _).1 (hwrites _ _).2]
  exact slotU32_writeEffectiveTarget (h.wf hm) _ _ heff

end BothBecome

/-! ## The zeroing (R56) -/

namespace Spout

/-- R56, R91: a spout that owes a zeroing measures its zero first. -/
def zeroesFirst (p : Spout) : Spout := if p.calibration.debt = 8 then p.startCapture .longBlocking else p

/-- R56: a follower that owes a zeroing is in phase ZEROING. -/
def zeroesBehind (p : Spout) : Spout :=
  if p.calibration.debt = 8 then (p.startCapture .longBlocking).onContext fun c => { c with phase := .zeroing } else p

end Spout

namespace BothBecome

variable {o : SpoutId} {n : SlotId} {p r : Spout} {q : Port} {s t : State}

theorem setMemberPhase_follower (h : BothBecome o (followerOf o) (some n) p r q s t) (x : Phase) (u : State) :
    setMemberPhase o (followerOf o) x u = setPhase (followerOf o) x u := if_neg h.apart

/-- R56: each spout of the pair that owes a zeroing starts its blocking capture. -/
theorem startCompartment_zeroing (h : BothBecome o (followerOf o) (some n) p r q s t) (k : Reaction)
    (ht : p.context.order.twin = true) (hb : r.context.stage = .bound) (hslot : p.context.slot = some n)
    (he : p.context.compartment.index < 12) (hd : p.calibration.debt = 8 ∨ r.calibration.debt = 8) :
    BothBecome o (followerOf o) (some n) (p.cleared.onStage .zeroing).zeroesFirst
      (r.clearedTo p.context.compartment.index).zeroesBehind q s (startCompartment k o t) := by
  have hcleared := h.clearCompartment ht hb hslot he
  have hstaged := hcleared.onFirst (hcleared.atFirst.setStage .zeroing)
  have hleader : ((Machine.clearCompartment o t).calibration o).debt = p.calibration.debt := by rw [hcleared.atFirst.calibration]; rfl
  have hfollower : ((Machine.clearCompartment o t).calibration (followerOf o)).debt = r.calibration.debt := by
    rw [hcleared.atSecond.calibration]; rfl
  have hmembers := members_pair (hcleared.atFirst.isTwin.trans ht) (hcleared.atSecond.isBound.trans (congrArg (· == Stage.bound) hb))
  have hfirst {u : State} {a : Spout} (hu : BothBecome o (followerOf o) (some n) a r q s u) := hu.onFirst (hu.atFirst.startCapture .longBlocking)
  unfold startCompartment; dsimp only
  rw [hmembers]
  simp only [List.filter_cons, List.filter_nil, hleader, hfollower, beq_iff_eq, Config.fullDebt]
  unfold Spout.zeroesFirst Spout.zeroesBehind
  by_cases hp : p.calibration.debt = 8 <;> by_cases hr : r.calibration.debt = 8
  · rw [if_pos hp, if_pos hr, if_neg (List.cons_ne_nil _ _), List.foldl_cons, List.foldl_cons, List.foldl_nil, setMemberPhase_self,
      h.setMemberPhase_follower, if_pos (show ((p.cleared.onStage .zeroing).calibration).debt = 8 from hp),
      if_pos (show (r.clearedTo _).calibration.debt = 8 from hr)]
    have hzeroed := hstaged.onFirst (hstaged.atFirst.startCapture .longBlocking)
    exact hzeroed.onSecond ((hzeroed.atSecond.startCapture .longBlocking).setPhase .zeroing)
  · rw [if_pos hp, if_neg hr, if_neg (List.cons_ne_nil _ _), List.foldl_cons, List.foldl_nil, setMemberPhase_self,
      if_pos (show ((p.cleared.onStage .zeroing).calibration).debt = 8 from hp),
      if_neg (show ¬ (r.clearedTo _).calibration.debt = 8 from hr)]
    exact hstaged.onFirst (hstaged.atFirst.startCapture .longBlocking)
  · rw [if_neg hp, if_pos hr, if_neg (List.cons_ne_nil _ _), List.foldl_cons, List.foldl_nil,
      h.setMemberPhase_follower, if_neg (show ¬ ((p.cleared.onStage .zeroing).calibration).debt = 8 from hp),
      if_pos (show (r.clearedTo _).calibration.debt = 8 from hr)]
    exact hstaged.onSecond ((hstaged.atSecond.startCapture .longBlocking).setPhase .zeroing)
  · exact absurd hd (not_or.2 ⟨hp, hr⟩)

/-- R56: where neither spout owes a zeroing, the opening conditions are checked. -/
theorem startCompartment_eq (h : BothBecome o (followerOf o) (some n) p r q s t) (k : Reaction)
    (ht : p.context.order.twin = true) (hb : r.context.stage = .bound) (hslot : p.context.slot = some n)
    (he : p.context.compartment.index < 12) (hp : p.calibration.debt ≠ 8) (hr : r.calibration.debt ≠ 8) :
    startCompartment k o t = checkOpening k o (Machine.clearCompartment o t) := by
  have hcleared := h.clearCompartment ht hb hslot he
  have hleader : ((Machine.clearCompartment o t).calibration o).debt = p.calibration.debt := by rw [hcleared.atFirst.calibration]; rfl
  have hfollower : ((Machine.clearCompartment o t).calibration (followerOf o)).debt = r.calibration.debt := by
    rw [hcleared.atSecond.calibration]; rfl
  have hmembers := members_pair (hcleared.atFirst.isTwin.trans ht) (hcleared.atSecond.isBound.trans (congrArg (· == Stage.bound) hb))
  unfold startCompartment; dsimp only
  rw [hmembers, List.filter_cons_of_neg (by rw [hleader]; simpa [Config.fullDebt] using hp),
    List.filter_cons_of_neg (by rw [hfollower]; simpa [Config.fullDebt] using hr), List.filter_nil, if_pos rfl]

end BothBecome

/-! ## The opening conditions (R56) -/

/-- R56: the code of the first opening condition, GATE_CLOSED apart, that the pair fails. -/
def pairFailure (p r : Spout) : Option Code :=
  if p.field.permit.taken = false ∨ r.field.permit.taken = false then some .permitLost
  else if p.field.indexReady.taken = false then some .vehicleMoved
  else if p.field.levelHigh.taken = true ∨ r.field.levelHigh.taken = true then some .level
  else if p.positioner.position ≠ .engaged ∨ r.positioner.position ≠ .engaged then some .seatLost
  else none

namespace BothBecome

variable {o : SpoutId} {w : Option SlotId} {p r : Spout} {q : Port} {s t : State}

theorem checkOpening_eq (h : BothBecome o (followerOf o) w p r q s t) (k : Reaction) (ht : p.context.order.twin = true)
    (hb : r.context.stage = .bound) : checkOpening k o t = match pairFailure p r with
      | some code => Machine.endUnopened k o code t
      | none => if p.field.gateClosed.taken = false ∨ r.field.gateClosed.taken = false then Machine.closeUnopened o t
        else Machine.openCompartment o t := by
  have hmembers := members_pair (h.atFirst.isTwin.trans ht) (h.atSecond.isBound.trans (congrArg (· == Stage.bound) hb))
  have hfirst (x : InputName) : t.present o x = (p.field.line x).taken := h.atFirst.present x
  have hsecond (x : InputName) : t.present (followerOf o) x = (r.field.line x).taken := h.atSecond.present x
  unfold checkOpening pairFailure
  simp only [hmembers, List.all_cons, List.all_nil, List.any_cons, List.any_nil, Bool.and_true, Bool.or_false, hfirst, hsecond,
    h.atFirst.positioner, h.atSecond.positioner, FieldGroup.line, Bool.and_eq_true, Bool.or_eq_true, beq_iff_eq, not_and_or,
    Bool.not_eq_true]
  split_ifs <;> rfl

end BothBecome

end Sys2Proof.Machine

/-! A pair's release, and a pair's compartment that ends before its opening (R28, R39, R65): both spouts are asked, and RELEASING waits. -/

namespace Sys2Proof.Machine

/-! ## What stays outside the pair -/

/-- Nothing changes outside the two spouts of the pair, their context's slots and the memory below the slots apart. -/
structure PairFrame (o : SpoutId) (s t : State) : Prop where
  others : ∀ j, j ≠ o → j ≠ followerOf o → t.spout j = s.spout j
  port : t.port = s.port
  tables : SameTables s t

namespace PairFrame

variable {o i : SpoutId} {w : Option SlotId} {p r : Spout} {s t u : State}

theorem trans (h : PairFrame o s t) (h' : PairFrame o t u) : PairFrame o s u :=
  ⟨fun j ho hf => (h'.others j ho hf).trans (h.others j ho hf), h'.port.trans h.port, h.tables.trans h'.tables⟩

/-- A step of one spout of the pair. -/
theorem step (h : PairFrame o s t) (hi : i = o ∨ i = followerOf o) (hu : Becomes i w p t.port t u) : PairFrame o s u :=
  h.trans ⟨fun j ho hf => hu.others j (by obtain rfl | rfl := hi; exacts [ho, hf]), hu.port, hu.tables⟩

theorem memory (h : PairFrame o s t) (hu : SameButMemory t u) : PairFrame o s u :=
  h.trans ⟨fun j _ _ => hu.spout j, hu.port, hu.sameTables⟩

end PairFrame

theorem BothBecome.frame {o : SpoutId} {w : Option SlotId} {p r : Spout} {s t : State}
    (h : BothBecome o (followerOf o) w p r s.port s t) : PairFrame o s t := ⟨h.others, h.port, h.tables⟩

/-- R52: the context that a spout of a pair works for is one of the pair's. -/
theorem ownerOf_mem {o i : SpoutId} (he : o.val % 2 = 0) (hi : i = o ∨ i = followerOf o) (s : State) :
    s.ownerOf i = o ∨ s.ownerOf i = followerOf o := by
  unfold State.ownerOf
  split
  · left
    obtain rfl | rfl := hi
    · exact (by decide : ∀ i : SpoutId, i.val % 2 = 0 → leaderOf i = i) i he
    · exact leaderOf_followerOf he
  · exact hi

/-- R117: the end of a TWIN's order under a soft reset. -/
theorem PairFrame.resetRest {o : SpoutId} {s t : State} (h : PairFrame o s t) : PairFrame o s (resetRest o t) := by
  have hrest {u : State} (hu : SameButMemory t u) : PairFrame o s
      (if (t.order o).twin then withdrawClaim (followerOf o) (restContext o u) else restContext o u) := by
    have hrest := (h.memory hu).step (.inl rfl) (Becomes.refl o none u).restContext
    split
    · unfold withdrawClaim; split
      · exact hrest
      · exact hrest.step (.inr rfl) ((Becomes.refl (followerOf o) none _).updateContext _)
    · exact hrest
  unfold Machine.resetRest; dsimp only
  cases (t.context o).slot with
  | none => exact hrest (.refl t)
  | some n => exact hrest ((sameButMemory_closeEntries ..).trans (sameButMemory_writeMemory ..))

/-! ## The entry into RELEASING (R40, R65) -/

namespace Spout

/-- R63, R65: the phase of a follower that is released, or that is FAULTED and holds its position. -/
def releasePhase (r : Spout) : Phase :=
  if r.positioner.position == .faulted then (if r.context.gate.isClosing then .closing else .settled) else .releasing

/-- R65: the follower whose leader enters RELEASING. -/
def releasedBehind (settled : Bool) (r : Spout) : Spout :=
  ((r.onCompartment fun c => { c with releasedAnswered := false }).onContext fun c => { c with phase := r.releasePhase }).settleCapture
    settled

theorem releasedBehind_context (settled : Bool) (r : Spout) : (r.releasedBehind settled).context = { r.context with
    phase := r.releasePhase, compartment := { r.context.compartment with releasedAnswered := false } } := settleCapture_context ..

end Spout

namespace BothBecome

variable {o : SpoutId} {w : Option SlotId} {n : SlotId} {p r : Spout} {q : Port} {s t : State}

/-- Something is done for each spout of the pair's compartment. -/
theorem forMembers (h : BothBecome o (followerOf o) w p r q s t) (ht : p.context.order.twin = true)
    (hb : r.context.stage = .bound) (g : SpoutId → State → State) : forMembers o g t = g (followerOf o) (g o t) :=
  forMembers_pair (h.atFirst.isTwin.trans ht) (h.atSecond.isBound.trans (congrArg (· == Stage.bound) hb)) g

theorem members (h : BothBecome o (followerOf o) w p r q s t) (ht : p.context.order.twin = true)
    (hb : r.context.stage = .bound) : t.members o = [o, followerOf o] :=
  members_pair (h.atFirst.isTwin.trans ht) (h.atSecond.isBound.trans (congrArg (· == Stage.bound) hb))

theorem enterReleasing (h : BothBecome o (followerOf o) w p r q s t) (ht : p.context.order.twin = true)
    (hb : r.context.stage = .bound) (settled : Bool) :
    BothBecome o (followerOf o) w (p.enterReleasing settled) (r.releasedBehind settled) q s (enterReleasing o settled t) := by
  have hready : t.present o .indexReady = p.field.indexReady.taken := h.atFirst.present .indexReady
  have hwatched := h.onFirst (h.atFirst.updateOrder fun x => { x with watch := p.releaseWatch })
  have hanswer := hwatched.onFirst (hwatched.atFirst.updateCompartment fun c => { c with releasedAnswered := false })
  have hanswered := hanswer.onSecond (hanswer.atSecond.updateCompartment fun c => { c with releasedAnswered := false })
  have hstaged := hanswered.onFirst (hanswered.atFirst.setStage .releasing)
  have hphased := hstaged.onSecond (hstaged.atSecond.setPhase r.releasePhase)
  have hcaptured := hphased.onFirst (hphased.atFirst.settleCapture settled)
  have hphase : ∀ u, BothBecome o (followerOf o) w ((((p.onOrder fun x => { x with watch := p.releaseWatch }).onCompartment
      fun c => { c with releasedAnswered := false }).onStage .releasing)) (r.onCompartment fun c => { c with releasedAnswered := false })
        q s u → u.releasePhase (followerOf o) = r.releasePhase := fun u hu => by
    unfold State.releasePhase Spout.releasePhase
    rw [hu.atSecond.isFaulted, hu.atSecond.gate]; rfl
  unfold Machine.enterReleasing; dsimp only
  rw [hready]
  rw [show (if p.field.indexReady.taken = true then IndexWatch.awaitDrop else .awaitRise) = p.releaseWatch from rfl,
    hwatched.forMembers ht hb, hstaged.forMembers ht hb, setMemberPhase_self, hphase _ hstaged]
  rw [show setMemberPhase o (followerOf o) r.releasePhase _ = _ from if_neg h.apart, hphased.forMembers ht hb]
  exact hcaptured.onSecond (hcaptured.atSecond.settleCapture settled)

/-- R65: RELEASING waits for a spout of the pair that is not at its end of release. -/
theorem releaseCheck_waits (h : BothBecome o (followerOf o) w p r q s t) (k : Reaction) (ht : p.context.order.twin = true)
    (hb : r.context.stage = .bound) {m : SpoutId} (hm : m = o ∨ m = followerOf o) (hd : t.releaseDone m = false) :
    releaseCheck k o t = t := by
  unfold releaseCheck
  refine if_neg fun c => ?_
  rw [h.members ht hb] at c
  have hdone := List.all_eq_true.1 c.2 m (by simpa using hm)
  rw [hd] at hdone; cases hdone

end BothBecome

/-! ## RELEASING waits for a spout that is down (R65) -/

/-- A spout that is down, or on its way, has its upper switch absent, and has not answered a release. -/
structure Spout.Down (p : Spout) : Prop where
  position : p.positioner.position = .engaged ∨ p.positioner.position = .lowering ∨ p.positioner.position = .raising
  raised : p.field.spoutRaised.taken = false
  answered : p.context.compartment.releasedAnswered = false

/-- The pair of `t` still waits for its spout `m`, which is down. -/
structure PairWaits (o m : SpoutId) (s t : State) : Prop where
  even : o.val % 2 = 0
  member : m = o ∨ m = followerOf o
  frame : PairFrame o s t
  twin : t.isTwin o = true
  leader : t.isBound o = false
  bound : t.isBound (followerOf o) = true
  down : (t.spout m).Down

namespace PairWaits

variable {o m i : SpoutId} {w : Option SlotId} {p : Spout} {s t u : State}

/-- A step of one spout of the pair that changes no stage, no TWIN and, of the spout that is down, nothing of that. -/
theorem step (h : PairWaits o m s t) (hi : i = o ∨ i = followerOf o) (hu : Becomes i w p t.port t u)
    (ht : p.context.order.twin = (t.spout i).context.order.twin) (hs : p.context.stage = (t.spout i).context.stage)
    (hd : i = m → p.Down) : PairWaits o m s u where
  even := h.even
  member := h.member
  frame := h.frame.step hi hu
  twin := (hu.same_at (fun x => x.context.order.twin) ht o :).trans h.twin
  leader := (congrArg (· == Stage.bound) (hu.same_at (fun x => x.context.stage) hs o :)).trans h.leader
  bound := (congrArg (· == Stage.bound) (hu.same_at (fun x => x.context.stage) hs (followerOf o) :)).trans h.bound
  down := by
    by_cases e : i = m
    · subst e; rw [hu.spout]; exact hd rfl
    · rw [hu.others m (Ne.symm e)]; exact h.down

theorem notDone (h : PairWaits o m s t) : t.releaseDone m = false := by
  have hposition : (t.positioner m).position ≠ .faulted := by
    obtain e | e | e := h.down.position <;> exact fun c => by rw [show (t.positioner m).position = _ from e] at c; cases c
  unfold State.releaseDone State.isFaulted
  rw [beq_eq_false_iff_ne.2 hposition, show (t.compartment m).releasedAnswered = false from h.down.answered]; rfl

theorem releaseCheck (h : PairWaits o m s t) (k : Reaction) : releaseCheck k o t = t := by
  refine if_neg fun c => ?_
  rw [members_pair h.twin h.bound] at c
  have hdone := List.all_eq_true.1 c.2 m (by simpa using h.member)
  rw [h.notDone] at hdone; cases hdone

/-- The spout that is down is not the one that is RELEASED. -/
theorem ne_of_raised (h : PairWaits o m s t) (hr : t.present i .spoutRaised = true) : i ≠ m := by
  rintro rfl
  have hdown : t.present i .spoutRaised = false := h.down.raised
  rw [hdown] at hr; cases hr

theorem ne_of_released (h : PairWaits o m s t) (hr : (t.positioner i).position = .released) : i ≠ m := by
  rintro rfl
  obtain e | e | e := h.down.position <;> rw [show (t.positioner i).position = _ from e] at hr <;> cases hr

/-- R65, R131: RELEASED answered by the other spout of the pair. -/
theorem onReleased (h : PairWaits o m s t) (hi : i = o ∨ i = followerOf o) (hne : i ≠ m) (d : Nat) :
    PairWaits o m s (reactTo d (.released i) t) := by
  cases d with
  | zero => exact h
  | succ d =>
    have howner : t.ownerOf i = o := by
      unfold State.ownerOf
      obtain rfl | rfl := hi
      · rw [h.leader, if_neg Bool.false_ne_true]
      · rw [h.bound, if_pos rfl, leaderOf_followerOf h.even]
    have hanswered := h.step hi ((Becomes.refl i none t).updateCompartment fun c => { c with releasedAnswered := true }) rfl rfl
      fun e => absurd e hne
    show PairWaits o m s (Machine.onReleased (reactTo d) i t)
    unfold Machine.onReleased; dsimp only
    rw [howner]; split
    · rw [hanswered.releaseCheck]; exact hanswered
    · exact h

/-- R131: the raise of a spout of the pair. -/
theorem raiseSpout (h : PairWaits o m s t) (hi : i = o ∨ i = followerOf o) (d : Nat) :
    PairWaits o m s (raiseSpout (reactTo d) i t) := by
  have hbegun := h.step hi (Becomes.refl i none t).beginRaise rfl rfl fun e => by
    subst e; exact ⟨.inr (.inr rfl), h.down.raised, h.down.answered⟩
  unfold Machine.raiseSpout testRaised; dsimp only
  split
  · next hup =>
    have hne := hbegun.ne_of_raised hup.2
    have harrive := (Becomes.refl i none (beginRaise i t)).updatePosition fun x => { x.arrive .released with engageWaiting := false }
    have harrived := hbegun.step hi harrive rfl rfl fun e => absurd e hne
    split
    · have hlower := (Becomes.refl i none (updatePosition i (fun x => { x.arrive .released with engageWaiting := false })
        (beginRaise i t))).beginLower
      have hpresent : (beginLower i (updatePosition i (fun x => { x.arrive .released with engageWaiting := false })
          (beginRaise i t))).present i .spoutRaised = true := (hlower.present _).trans ((harrive.present _).trans hup.2)
      unfold lowerSpout testLowered
      rw [if_neg fun c => c.2.2 hpresent]
      exact harrived.step hi hlower rfl rfl fun e => absurd e hne
    · exact harrived.onReleased hi hne d
  · exact hbegun

/-- R65: a release request to either spout of the pair. -/
theorem requestRelease (h : PairWaits o m s t) (hi : i = o ∨ i = followerOf o) (d : Nat) :
    PairWaits o m s (requestRelease (reactTo d) o i t) := by
  have hmoves (f : Positioner → Positioner) (hf : (f (t.positioner i)).position = (t.positioner i).position) :
      PairWaits o m s (t.updatePositioner i f) :=
    h.step hi ((Becomes.refl i none t).updatePositioner f) rfl rfl fun e => by
      subst e
      exact ⟨by
        show (f (t.positioner i)).position = _ ∨ (f (t.positioner i)).position = _ ∨ (f (t.positioner i)).position = _
        rw [hf]; exact h.down.position, h.down.raised, h.down.answered⟩
  unfold Machine.requestRelease; split
  · next hasked =>
    unfold releaseRequest; split
    · exact h.raiseSpout hi d
    · exact h.raiseSpout hi d
    · exact hmoves _ rfl
    · next hposition => exact h.onReleased hi (h.ne_of_released hposition) d
    · next hposition => exact absurd (beq_iff_eq.2 hposition) hasked.2.1
    · exact hmoves _ rfl
  · exact h

/-- R65: the release of a pair that waits for a spout which is down. -/
theorem requestsRelease (h : PairWaits o m s t) (d : Nat) :
    PairWaits o m s (Machine.releaseCheck (reactTo d) o (forMembers o (Machine.requestRelease (reactTo d) o) t)) := by
  have hasked := (h.requestRelease (.inl rfl) d).requestRelease (.inr rfl) d
  rw [forMembers_pair h.twin h.bound, hasked.releaseCheck]
  exact hasked

end PairWaits

end Sys2Proof.Machine

/-! A pair's compartment opens on both spouts (R56, R57): the opening, the gate that is not shut, and the opening verified. -/

namespace Sys2Proof.Machine

/-! ## An opening verified (R57) -/

/-- R29, R57: the spout whose own opening is verified; of a follower, its phase too. -/
def Spout.verifiedAs (phase : Option Phase) (p : Spout) : Spout :=
  p.verified.onContext fun c => { c with phase := phase.getD c.phase }

/-- R29, R57: what the verification of a spout's opening makes of the spout, and when the stage follows. -/
theorem verifyOpening_eq {o m : SpoutId} {w : Option SlotId} {p : Spout} {q : Port} {s t : State} (h : Becomes m w p q s t)
    (howner : t.ownerOf m = o) : ∃ u, Becomes m w (p.verifiedAs (if m = o then none else some .feeding)) q s u
      ∧ verifyOpening m t = if u.stage o = .opening ∧ (u.members o).all (fun j => (u.gate j).opening.isNone) then
        setStage o (if (u.gate o).output = .openFull then .coarse else .fine) u else u := by
  have hverified := (h.updateGate (GateUnit.verify p.calibration.profile.starveWindow)).updateCompartment
    fun c => { c with starveCount := 0 }
  unfold verifyOpening; dsimp only
  rw [howner, h.profile]
  unfold setMemberPhase
  by_cases hm : m = o
  · rw [if_pos hm, if_pos hm]
    exact ⟨_, hverified, rfl⟩
  · rw [if_neg hm, if_neg hm]
    exact ⟨_, hverified.setPhase .feeding, rfl⟩

theorem PairFrame.verifyOpening {o m : SpoutId} {s t : State} (h : PairFrame o s t) (he : o.val % 2 = 0)
    (hm : m = o ∨ m = followerOf o) : PairFrame o s (verifyOpening m t) := by
  obtain ⟨u, hu, hverify⟩ := verifyOpening_eq (Becomes.refl m none t) rfl
  have hframe := h.step hm hu
  rw [hverify]; split
  · exact hframe.step (ownerOf_mem he hm t) ((Becomes.refl _ none u).setStage _)
  · exact hframe

/-! ## The opening (R56) -/

namespace Spout

/-- R56: the follower opens beside its leader. -/
def opensBehind (output : GateOutput) (r : Spout) : Spout :=
  ((r.onChannel Channel.startCompartment).onGate (GateUnit.feed output r.calibration.profile.gateOpenTime)).onContext
    fun c => { c with phase := .opening }

/-- R56: a spout's gate is closed where it is not shut. -/
def closesOpen (p : Spout) : Spout :=
  if p.field.gateClosed.taken then p
  else (p.onGate (GateUnit.cut p.closeTime)).onCompartment fun c => { c with closeAwaited := true }

/-- R56: the leader of a pair whose GATE_CLOSED check fails. -/
def closesNoOpen (p : Spout) : Spout :=
  (p.closesOpen.onCompartment fun c => { c.setCause (some .noOpen) with noSettle := true }).onStage .closing

/-- R56: its follower. -/
def closesBehind (r : Spout) : Spout :=
  if r.field.gateClosed.taken then r else r.closesOpen.onContext fun c => { c with phase := .closing }

end Spout

namespace BothBecome

variable {o : SpoutId} {w : Option SlotId} {n : SlotId} {p r : Spout} {q : Port} {s t : State}

theorem setMemberPhase (h : BothBecome o (followerOf o) w p r q s t) (x : Phase) :
    BothBecome o (followerOf o) w p (r.onContext fun c => { c with phase := x }) q s (setMemberPhase o (followerOf o) x t) := by
  unfold Machine.setMemberPhase
  rw [if_neg h.apart]
  exact h.onSecond (h.atSecond.setPhase x)

/-- R56: both channels start afresh and both gates open, before any verification. -/
theorem opens (h : BothBecome o (followerOf o) w p r q s t) (ht : p.context.order.twin = true) (hb : r.context.stage = .bound) :
    ∃ u, BothBecome o (followerOf o) w p.opens (r.opensBehind p.openOutput) q s u ∧ openCompartment o t
      = Machine.forMembers o (fun m v => if (v.gate m).output = .openFull ∧ v.present m .gateOpen then verifyOpening m v else v) u := by
  have hmarked := h.onFirst (h.atFirst.updateCompartment fun c => { c with opened := true })
  have hleader := hmarked.onFirst ((hmarked.atFirst.updateChannel Channel.startCompartment).updateGate
    (GateUnit.feed p.openOutput p.calibration.profile.gateOpenTime))
  have hfollower := (hleader.onSecond ((hleader.atSecond.updateChannel Channel.startCompartment).updateGate
    (GateUnit.feed p.openOutput r.calibration.profile.gateOpenTime))).setMemberPhase .opening
  have hopened := hfollower.onFirst (hfollower.atFirst.setStage .opening)
  have houtput : (if (t.order o).fineBand < (t.compartment o).effectiveTarget then GateOutput.openFull else .openFine)
      = p.openOutput := by
    rw [h.atFirst.order, h.atFirst.compartment]; rfl
  have hopen {i : SpoutId} {a : Spout} {u : State} (hu : Becomes i w a q u u) {x : Profile} (hx : a.calibration.profile = x) :
      openGate i p.openOutput (startIntegration i u) = (u.updateChannel i Channel.startCompartment).updateGate i
        (GateUnit.feed p.openOutput x.gateOpenTime) := by
    unfold openGate startIntegration
    rw [(hu.updateChannel Channel.startCompartment).profile, ← hx]; rfl
  refine ⟨_, hopened, ?_⟩
  unfold openCompartment; dsimp only
  rw [houtput, hmarked.forMembers ht hb, setMemberPhase_self, hopen hmarked.atFirst (x := p.calibration.profile) rfl,
    hopen hleader.atSecond (x := r.calibration.profile) rfl]

/-- R56: where no gate opens at once, nothing is verified yet. -/
theorem openCompartment (h : BothBecome o (followerOf o) w p r q s t) (ht : p.context.order.twin = true)
    (hb : r.context.stage = .bound) (hg : p.openOutput = .openFull → p.field.gateOpen.taken = false ∧ r.field.gateOpen.taken = false) :
    BothBecome o (followerOf o) w p.opens (r.opensBehind p.openOutput) q s (openCompartment o t) := by
  obtain ⟨u, hu, hopen⟩ := h.opens ht hb
  have hwaits {i : SpoutId} {a : Spout} (ha : Becomes i w a q u u) (houtput : a.context.gate.output = p.openOutput)
      (hgate : p.openOutput = .openFull → a.field.gateOpen.taken = false) :
      (if (u.gate i).output = .openFull ∧ u.present i .gateOpen then verifyOpening i u else u) = u := by
    refine if_neg fun c => ?_
    have hfull : p.openOutput = .openFull := houtput.symm.trans ((congrArg (fun g => g.output) ha.gate).symm.trans c.1)
    have hpresent : u.present i .gateOpen = false := (ha.present _).trans (hgate hfull)
    rw [hpresent] at c
    exact Bool.false_ne_true c.2
  rw [hopen, hu.forMembers ht hb, hwaits hu.atFirst rfl fun e => (hg e).1, hwaits hu.atSecond rfl fun e => (hg e).2]
  exact hu

/-- R56: each gate that is not shut is closed. -/
theorem closeUnopened (h : BothBecome o (followerOf o) w p r q s t) (ht : p.context.order.twin = true)
    (hb : r.context.stage = .bound) : BothBecome o (followerOf o) w p.closesNoOpen r.closesBehind q s (closeUnopened o t) := by
  have hshut {i : SpoutId} {a : Spout} {u : State} (hu : Becomes i w a q u u) (hc : a.field.gateClosed.taken = false) :
      Becomes i w a.closesOpen q u (cutGate i u) := by
    unfold Spout.closesOpen
    rw [hc, if_neg Bool.false_ne_true]
    unfold cutGate setCloseAwaited
    rw [hu.closeTime]
    exact (hu.updateGate _).updateCompartment fun c => { c with closeAwaited := true }
  have hleader : BothBecome o (followerOf o) w p.closesOpen r q s
      (if t.present o .gateClosed then t else Machine.setMemberPhase o o .closing (cutGate o t)) := by
    rw [show t.present o .gateClosed = p.field.gateClosed.taken from h.atFirst.present _, setMemberPhase_self]
    cases hc : p.field.gateClosed.taken with
    | true => rw [if_pos rfl, Spout.closesOpen, hc, if_pos rfl]; exact h
    | false => exact h.onFirst (hshut h.atFirst hc)
  have hfollower {u : State} {a : Spout} (hu : BothBecome o (followerOf o) w a r q s u) : BothBecome o (followerOf o) w a r.closesBehind q s
      (if u.present (followerOf o) .gateClosed then u
        else Machine.setMemberPhase o (followerOf o) .closing (cutGate (followerOf o) u)) := by
    rw [show u.present (followerOf o) .gateClosed = r.field.gateClosed.taken from hu.atSecond.present _]
    cases hc : r.field.gateClosed.taken with
    | true => rw [if_pos rfl, Spout.closesBehind, hc, if_pos rfl]; exact hu
    | false =>
      rw [Spout.closesBehind, hc]
      exact (hu.onSecond (hshut hu.atSecond hc)).setMemberPhase .closing
  have hclosed := hfollower hleader
  unfold Machine.closeUnopened
  rw [h.forMembers ht hb]
  exact hclosed.onFirst ((hclosed.atFirst.updateCompartment fun c => { c.setCause (some .noOpen) with noSettle := true }).setStage .closing)

/-! ## What every outcome of the checks leaves outside the pair -/

theorem openCompartment_frame (h : BothBecome o (followerOf o) w p r s.port s t) (he : o.val % 2 = 0)
    (ht : p.context.order.twin = true) (hb : r.context.stage = .bound) : PairFrame o s (Machine.openCompartment o t) := by
  obtain ⟨u, hu, hopen⟩ := h.opens ht hb
  have hverify {v : State} {m : SpoutId} (hv : PairFrame o s v) (hm : m = o ∨ m = followerOf o) :
      PairFrame o s (if (v.gate m).output = .openFull ∧ v.present m .gateOpen then verifyOpening m v else v) := by
    split
    · exact hv.verifyOpening he hm
    · exact hv
  rw [hopen, hu.forMembers ht hb]
  exact hverify (hverify hu.frame (.inl rfl)) (.inr rfl)

/-- R28, R39: a pair's compartment that ends before its opening, its record with a final of 0 g: by the end mark, its order ends or
its release begins. -/
theorem endUnopened_eq (h : BothBecome o (followerOf o) (some n) p r q s t) (k : Reaction) (ht : p.context.order.twin = true)
    (hb : r.context.stage = .bound) (hslot : p.context.slot = some n) (he : p.context.compartment.index < 12)
    (ho : p.context.compartment.opened = false) (code : Code) : ∃ code' u,
      BothBecome o (followerOf o) (some n) (((p.dropCapture.onCompartment (Compartment.setCause (some code))).frozen).recorded code' 0)
        r.dropCapture.frozen q s u
      ∧ endUnopened k o code t = if (u.order o).mark = .reset then resetRest o u else startRelease k o false u := by
  have hleader := h.onFirst h.atFirst.dropCapture
  have hdropped := hleader.onSecond hleader.atSecond.dropCapture
  have hcaused := hdropped.onFirst (hdropped.atFirst.updateCompartment (Compartment.setCause (some code)))
  have hfrozen := hcaused.onFirst hcaused.atFirst.endIntegration
  have hended := hfrozen.onSecond hfrozen.atSecond.endIntegration
  have hset : (p.context.compartment.setCause (some code)).index = p.context.compartment.index
      ∧ (p.context.compartment.setCause (some code)).opened = p.context.compartment.opened := by
    unfold Compartment.setCause; split <;> exact ⟨rfl, rfl⟩
  unfold endUnopened finishCompartment
  rw [h.forMembers ht hb, hcaused.forMembers ht hb]
  generalize endIntegration (followerOf o) _ = u at *
  have hunopened : (u.compartment o).opened = false := by rw [hended.atFirst.compartment]; exact hset.2.trans ho
  dsimp only
  rw [takeFinal_unopened hunopened]
  refine ⟨_, _, hended.onFirst (hended.atFirst.recordedAs hslot (hset.1 ▸ he) (compartmentCode (u.order o) (u.compartment o) 0) 0), ?_⟩
  dsimp only
  rw [handRecord_unsettled]
  rfl

/-- R28, R65: a pair's compartment that ends before its opening, a spout of it down. -/
theorem endUnopened_frame (h : BothBecome o (followerOf o) (some n) p r s.port s t) (d : Nat) (heven : o.val % 2 = 0)
    (ht : p.context.order.twin = true) (hb : r.context.stage = .bound)
    (hslot : p.context.slot = some n) (he : p.context.compartment.index < 12) (ho : p.context.compartment.opened = false)
    {m : SpoutId} (hm : m = o ∨ m = followerOf o) (hposition : ((if m = o then p else r).positioner).position = .engaged)
    (hraised : (if m = o then p else r).field.spoutRaised.taken = false) (code : Code) :
    PairFrame o s (endUnopened (reactTo d) o code t) := by
  obtain ⟨code', u, hu, hend⟩ := h.endUnopened_eq (reactTo d) ht hb hslot he ho code
  rw [hend]; split
  · exact hu.frame.resetRest
  · have hentered := hu.enterReleasing ht hb false
    have hp := Spout.enterReleasing_context false (((p.dropCapture.onCompartment
      (Compartment.setCause (some code))).frozen).recorded code' 0)
    have hr := Spout.releasedBehind_context false r.dropCapture.frozen
    have hwaits : PairWaits o m s (Machine.enterReleasing o false u) := {
      even := heven
      member := hm
      frame := hentered.frame
      twin := hentered.atFirst.isTwin.trans ((congrArg (fun c => c.order.twin) hp).trans ht)
      leader := hentered.atFirst.isBound.trans (congrArg (· == Stage.bound) (congrArg (fun c => c.stage) hp))
      bound := hentered.atSecond.isBound.trans (congrArg (· == Stage.bound) ((congrArg (fun c => c.stage) hr).trans hb))
      down := by
        obtain rfl | rfl := hm
        · rw [if_pos rfl] at hposition hraised
          rw [hentered.first]
          exact ⟨.inl hposition, hraised, congrArg (fun c => c.compartment.releasedAnswered) hp⟩
        · rw [if_neg h.apart] at hposition hraised
          rw [hentered.second]
          exact ⟨.inl hposition, hraised, congrArg (fun c => c.compartment.releasedAnswered) hr⟩ }
    have htwin : u.isTwin o = true := hu.atFirst.isTwin.trans ht
    unfold startRelease
    rw [htwin, Bool.not_true, Bool.and_false, if_neg Bool.false_ne_true]
    exact (hwaits.requestsRelease d).frame

end BothBecome

end Sys2Proof.Machine

/-! A pair's compartment start, by its outcome (R55 to R57): the settled statement. -/

namespace Sys2Proof.Machine

/-! ## The outcomes of the start -/

/-- R56: a spout's opening conditions, its being ENGAGED apart, are those of the levels taken. -/
theorem pairFailure_none {o : SpoutId} {p r : Spout} {s : State} (hp : (s.spout o).Reported p)
    (hr : (s.spout (followerOf o)).Reported r)
    (hlevels : ∀ j, j = o ∨ j = followerOf o → s.present j .permit = true ∧ s.present j .levelHigh = false)
    (hready : s.present o .indexReady = true) (hpe : p.positioner.position = .engaged) (hre : r.positioner.position = .engaged) :
    pairFailure p r = none := by
  obtain ⟨hpermit, hlevel⟩ := hlevels o (.inl rfl)
  obtain ⟨hpermit', hlevel'⟩ := hlevels (followerOf o) (.inr rfl)
  have h1 : p.field.permit.taken = true := (congrArg (fun l => l.taken) hp.permit).trans hpermit
  have h2 : r.field.permit.taken = true := (congrArg (fun l => l.taken) hr.permit).trans hpermit'
  have h3 : p.field.levelHigh.taken = false := (congrArg (fun l => l.taken) hp.level).trans hlevel
  have h4 : r.field.levelHigh.taken = false := (congrArg (fun l => l.taken) hr.level).trans hlevel'
  have h5 : p.field.indexReady.taken = true := (congrArg (fun l => l.taken) hp.ready).trans hready
  unfold pairFailure
  rw [h1, h2, h3, h4, h5, hpe, hre]; rfl

namespace State.PairStarts

variable {o : SpoutId} {n : SlotId} {p r : Spout} {s u : State} (h : s.PairStarts o n p r u)
include h

theorem isTwin : p.context.order.twin = true := (congrArg OrderState.twin h.leader.order).trans h.pair.isTwin
theorem bound : r.context.stage = .bound := h.follower.stage.trans h.pair.stage_follower
theorem slot_eq : p.context.slot = some n := h.leader.slot.trans h.slot
theorem index_lt : p.context.compartment.index < 12 := by rw [h.leader.index]; exact h.index

theorem cleared : BothBecome o (followerOf o) (some n) p.cleared (r.clearedTo p.context.compartment.index) s.port s
    (clearCompartment o u) := (h.both.widen (some n)).clearCompartment h.isTwin h.bound h.slot_eq h.index_lt

/-- R27 step 1: the leader's context with its compartment's fields cleared. -/
theorem cleared_context : p.cleared.context = { s.context o with
    closeRecord := none
    compartment := { index := (s.compartment o).index, effectiveTarget := (s.compartment o).effectiveTarget } } := by
  obtain ⟨b, e⟩ := h.leader.context
  unfold Spout.cleared Spout.onContext
  rw [e]; rfl

theorem clearedTo_context (index : Nat) : (r.clearedTo index).context = { s.context (followerOf o) with
    closeRecord := none, compartment := { index := index, effectiveTarget := 0 } } := by
  obtain ⟨b, e⟩ := h.follower.context
  unfold Spout.clearedTo Spout.onContext
  rw [e]; rfl

/-- R56: a spout of the pair owes a zeroing. -/
theorem zeroes (k : Reaction) (hd : (s.calibration o).debt = 8 ∨ (s.calibration (followerOf o)).debt = 8) :
    BothBecome o (followerOf o) (some n) (p.cleared.onStage .zeroing).zeroesFirst
      (r.clearedTo p.context.compartment.index).zeroesBehind s.port s (startCompartment k o u) :=
  (h.both.widen (some n)).startCompartment_zeroing k h.isTwin h.bound h.slot_eq h.index_lt
    (by rw [h.leader.calibration, h.follower.calibration]; exact hd)

/-- R56: neither spout owes a zeroing. -/
theorem checks (k : Reaction) (hp : (s.calibration o).debt ≠ 8) (hr : (s.calibration (followerOf o)).debt ≠ 8) :
    startCompartment k o u = match pairFailure p r with
      | some code => endUnopened k o code (clearCompartment o u)
      | none => if p.field.gateClosed.taken = false ∨ r.field.gateClosed.taken = false then closeUnopened o (clearCompartment o u)
        else openCompartment o (clearCompartment o u) := by
  rw [(h.both.widen (some n)).startCompartment_eq k h.isTwin h.bound h.slot_eq h.index_lt
    (by rw [h.leader.calibration]; exact hp) (by rw [h.follower.calibration]; exact hr), h.cleared.checkOpening_eq k h.isTwin h.bound]
  rfl

/-- R56: nothing outside the pair takes part in the start. -/
theorem frame {m : SpoutId} (hm : m = o ∨ m = followerOf o) (hposition : ((if m = o then p else r).positioner).position = .engaged)
    (hraised : (if m = o then p else r).field.spoutRaised.taken = false) (d : Nat) :
    PairFrame o s (startCompartment (reactTo d) o u) := by
  by_cases hd : (s.calibration o).debt = 8 ∨ (s.calibration (followerOf o)).debt = 8
  · exact (h.zeroes (reactTo d) hd).frame
  · rw [not_or] at hd
    rw [h.checks (reactTo d) hd.1 hd.2]
    cases hcode : pairFailure p r with
    | some code =>
      refine h.cleared.endUnopened_frame d h.pair.even h.isTwin h.bound h.slot_eq h.index_lt rfl hm ?_ ?_ code
      · split <;> (next e => simpa [e, Spout.cleared, Spout.clearedTo, Spout.onContext] using hposition)
      · split <;> (next e => simpa [e, Spout.cleared, Spout.clearedTo, Spout.onContext] using hraised)
    | none =>
      dsimp only; split
      · exact (h.cleared.closeUnopened h.isTwin h.bound).frame
      · exact h.cleared.openCompartment_frame h.pair.even h.isTwin h.bound

/-- R56: where neither spout owes a zeroing and every condition but GATE_CLOSED holds, the gates decide. -/
theorem passes (k : Reaction) (hp : (s.calibration o).debt ≠ 8) (hr : (s.calibration (followerOf o)).debt ≠ 8)
    (hlevels : ∀ j, j = o ∨ j = followerOf o → s.present j .permit = true ∧ s.present j .levelHigh = false)
    (hready : s.present o .indexReady = true) (hpe : p.positioner.position = .engaged) (hre : r.positioner.position = .engaged) :
    startCompartment k o u = if s.present o .gateClosed = false ∨ s.present (followerOf o) .gateClosed = false then
      closeUnopened o (clearCompartment o u) else openCompartment o (clearCompartment o u) := by
  have hfirst : s.present o .gateClosed = p.field.gateClosed.taken := (congrArg (fun l => l.taken) h.leader.gateClosed).symm
  have hsecond : s.present (followerOf o) .gateClosed = r.field.gateClosed.taken := (congrArg (fun l => l.taken) h.follower.gateClosed).symm
  rw [h.checks k hp hr, pairFailure_none h.leader h.follower hlevels hready hpe hre, hfirst, hsecond]

/-! ## What the start shows -/

/-- R56: both spouts open. -/
theorem opens_shows (k : Reaction) (hm : s.memory.wf = true) (hp : (s.calibration o).debt ≠ 8)
    (hr : (s.calibration (followerOf o)).debt ≠ 8) (hfirst : s.mayOpen o) (hsecond : s.mayOpen (followerOf o))
    (hready : s.present o .indexReady = true) (hpe : p.positioner.position = .engaged) (hre : r.positioner.position = .engaged)
    (heff : (s.compartment o).effectiveTarget ≤ 65000000)
    (hgates : (s.order o).fineBand < (s.compartment o).effectiveTarget →
      s.present o .gateOpen = false ∧ s.present (followerOf o) .gateOpen = false) :
    let t := startCompartment k o u
    let f := followerOf o
    let x := s.compartment o
    let full := (s.order o).fineBand < x.effectiveTarget
    t.stage o = .opening ∧ t.stage f = .bound ∧ (t.context f).phase = .opening
      ∧ t.slotU32 n (0x40 + 16 * x.index + 8) = x.effectiveTarget ∧ t.order o = s.order o
      ∧ t.compartment o = { index := x.index, effectiveTarget := x.effectiveTarget, opened := true }
      ∧ (t.context f).closeRecord = none
      ∧ ∀ j, j = o ∨ j = f → (t.gate j).output = (if full then .openFull else .openFine)
          ∧ (t.gate j).opening = some (s.profile j).gateOpenTime ∧ (t.gate j).close = none ∧ t.integratesAfresh j := by
  intro t f x full
  have hlevels : ∀ j, j = o ∨ j = followerOf o → s.present j .permit = true ∧ s.present j .levelHigh = false := by
    rintro j (rfl | rfl)
    · exact ⟨hfirst.1, hfirst.2.1⟩
    · exact ⟨hsecond.1, hsecond.2.1⟩
  have hstart := h.passes k hp hr hlevels hready hpe hre
  rw [hfirst.2.2, hsecond.2.2, if_neg (by decide)] at hstart
  have hcontext := h.cleared_context
  have hbehind := h.clearedTo_context p.context.compartment.index
  have hfull : p.cleared.context.order.fineBand < p.cleared.context.compartment.effectiveTarget ↔ full := by rw [hcontext]; rfl
  have houtput : p.cleared.openOutput = if full then .openFull else .openFine := if_congr hfull rfl rfl
  have hopened := h.cleared.here.openCompartment h.isTwin h.bound fun e => by
    have hf : full := of_not_not fun hn => by rw [houtput, if_neg hn] at e; cases e
    obtain ⟨ho, hf'⟩ := hgates hf
    exact ⟨(congrArg (fun l => l.taken) h.leader.gateOpen).trans ho, (congrArg (fun l => l.taken) h.follower.gateOpen).trans hf'⟩
  rw [← hstart] at hopened
  have htarget := h.both.slotU32_clearCompartment hm h.isTwin h.bound h.slot_eq (by rw [h.leader.target]; exact Nat.lt_of_le_of_lt heff (by decide))
  rw [h.leader.index, h.leader.target] at htarget
  have hindex : x.index < 12 := h.index
  refine ⟨hopened.atFirst.stage, hopened.atSecond.stage.trans (congrArg (fun c => c.stage) hbehind |>.trans h.pair.stage_follower),
    (congrArg (fun c => c.phase) hopened.atSecond.context :), ((hopened.slots n (by simp)).slotU32 (by omega)).trans htarget,
    hopened.atFirst.order.trans (congrArg (fun c => c.order) hcontext),
    hopened.atFirst.compartment.trans (congrArg (fun c => { c.compartment with opened := true }) hcontext),
    (congrArg (fun c => c.closeRecord) hopened.atSecond.context).trans (congrArg (fun c => c.closeRecord) hbehind), ?_⟩
  rintro j (rfl | rfl)
  · have hprofile : p.calibration.profile = s.profile j := congrArg (fun c => c.profile) h.leader.calibration
    refine ⟨(congrArg (fun g => g.output) hopened.atFirst.gate).trans houtput,
      (congrArg (fun g => g.opening) hopened.atFirst.gate).trans (congrArg (fun v => some v.gateOpenTime) hprofile),
      (congrArg (fun g => g.close) hopened.atFirst.gate :), ?_⟩
    unfold State.integratesAfresh
    rw [hopened.atFirst.channel]
    exact ⟨rfl, rfl, rfl, rfl, rfl, rfl⟩
  · have hprofile : r.calibration.profile = s.profile (followerOf o) := congrArg (fun c => c.profile) h.follower.calibration
    refine ⟨(congrArg (fun g => g.output) hopened.atSecond.gate).trans houtput,
      (congrArg (fun g => g.opening) hopened.atSecond.gate).trans (congrArg (fun v => some v.gateOpenTime) hprofile),
      (congrArg (fun g => g.close) hopened.atSecond.gate :), ?_⟩
    unfold State.integratesAfresh
    rw [hopened.atSecond.channel]
    exact ⟨rfl, rfl, rfl, rfl, rfl, rfl⟩

/-- R56: a spout of the pair measures its zero first. -/
theorem zeroes_shows (k : Reaction) (hphase : (s.context (followerOf o)).phase = .engaging)
    (hd : (s.calibration o).debt = 8 ∨ (s.calibration (followerOf o)).debt = 8) :
    let t := startCompartment k o u
    let f := followerOf o
    t.stage o = .zeroing ∧ ((t.context f).phase = .zeroing ↔ (s.calibration f).debt = 8)
      ∧ (∀ j, j = o ∨ j = f → (s.calibration j).debt = 8 → (t.calibration j).capture = .longBlocking
          ∧ (t.calibration j).zeroTimeout = some (s.profile j).zeroTimeout)
      ∧ t.gate o = s.gate o ∧ t.gate f = s.gate f := by
  intro t f
  have ht : BothBecome _ _ _ _ _ _ s t := h.zeroes k hd
  have hbehind := h.clearedTo_context p.context.compartment.index
  have hleader : (p.cleared.onStage .zeroing).calibration = s.calibration o := h.leader.calibration
  have hfollower : (r.clearedTo p.context.compartment.index).calibration = s.calibration f := h.follower.calibration
  unfold Spout.zeroesFirst Spout.zeroesBehind at ht
  rw [hleader, hfollower] at ht
  have hgate : p.context.gate = s.gate o ∧ r.context.gate = s.gate f := ⟨h.leader.gate, h.follower.gate⟩
  refine ⟨?_, ?_, ?_, ?_, ?_⟩
  · rw [ht.atFirst.stage]; split <;> rfl
  · rw [ht.atSecond.context]
    have hkept : (r.clearedTo p.context.compartment.index).context.phase = .engaging :=
      (congrArg (fun c => c.phase) hbehind).trans hphase
    split
    · next e => exact ⟨fun _ => e, fun _ => rfl⟩
    · next e => exact ⟨fun c => absurd (hkept.symm.trans c) (by decide), fun c => absurd c e⟩
  · rintro j (rfl | rfl) hj
    · rw [ht.atFirst.calibration, if_pos hj]
      exact ⟨rfl, congrArg (fun c : Calibration => some c.profile.zeroTimeout) h.leader.calibration⟩
    · rw [ht.atSecond.calibration, if_pos hj]
      exact ⟨rfl, congrArg (fun c : Calibration => some c.profile.zeroTimeout) h.follower.calibration⟩
  · rw [ht.atFirst.gate]; split <;> exact hgate.1
  · rw [ht.atSecond.gate]; split <;> exact hgate.2

/-- R56: a gate that is not shut is closed alone, and the compartment is to end NO_OPEN. -/
theorem closes_shows (k : Reaction) (hp : (s.calibration o).debt ≠ 8) (hr : (s.calibration (followerOf o)).debt ≠ 8)
    (hlevels : ∀ j, j = o ∨ j = followerOf o → s.present j .permit = true ∧ s.present j .levelHigh = false)
    (hready : s.present o .indexReady = true) (hpe : p.positioner.position = .engaged) (hre : r.positioner.position = .engaged)
    (hshut : s.present o .gateClosed = false ∨ s.present (followerOf o) .gateClosed = false) :
    let t := startCompartment k o u
    let f := followerOf o
    t.stage o = .closing ∧ (t.compartment o).cause = some .noOpen ∧ (t.compartment o).opened = false
      ∧ (∀ j, j = o ∨ j = f → (s.present j .gateClosed = false → t.gateIsCut j) ∧ (s.present j .gateClosed = true → t.gate j = s.gate j))
      ∧ (s.present f .gateClosed = false → (t.context f).phase = .closing) := by
  intro t f
  have hstart := h.passes k hp hr hlevels hready hpe hre
  rw [if_pos hshut] at hstart
  have ht := h.cleared.closeUnopened h.isTwin h.bound
  rw [← hstart] at ht
  have hfirst : p.cleared.field.gateClosed.taken = s.present o .gateClosed := congrArg (fun l => l.taken) h.leader.gateClosed
  have hsecond : (r.clearedTo p.context.compartment.index).field.gateClosed.taken = s.present f .gateClosed :=
    congrArg (fun l => l.taken) h.follower.gateClosed
  unfold Spout.closesNoOpen Spout.closesBehind Spout.closesOpen at ht
  rw [hfirst, hsecond] at ht
  have hprofiles : p.calibration.profileValid = true ∧ r.calibration.profileValid = true := by
    rw [h.leader.calibration, h.follower.calibration]
    exact ⟨h.pair.hasProfile, h.pair.hasProfile_follower⟩
  refine ⟨ht.atFirst.stage, ?_, ?_, ?_, fun hc => ?_⟩
  · rw [ht.atFirst.compartment]; split <;> rfl
  · rw [ht.atFirst.compartment]; split <;> rfl
  · rintro j (rfl | rfl)
    · refine ⟨fun hc => ?_, fun hc => ?_⟩ <;> rw [hc] at ht
      · exact ht.atFirst.gateIsCut (g := p.context.gate) rfl hprofiles.1
      · exact ht.atFirst.gate.trans h.leader.gate
    · refine ⟨fun hc => ?_, fun hc => ?_⟩ <;> rw [hc] at ht
      · exact ht.atSecond.gateIsCut (g := r.context.gate) rfl hprofiles.2
      · exact ht.atSecond.gate.trans h.follower.gate
  · rw [hc] at ht
    exact (congrArg (fun c => c.phase) ht.atSecond.context :)

end State.PairStarts

/-! ## The opening of a spout verified -/

/-- R57: the leader enters COARSE at the later of the two verifications. -/
theorem verifyOpening_pair {o m : SpoutId} {s u : State} {p : Spout} (hp : s.pair o) (hm : m = o ∨ m = followerOf o)
    (hu : Becomes m none p s.port s u) (hcontext : p.context = s.context m) (hcalibration : p.calibration = s.calibration m)
    (hchannel : p.channel = s.channel m) (hs : s.stage o = .opening) (hfull : (s.gate o).output = .openFull) :
    let f := followerOf o
    let other := if m = o then f else o
    let t := verifyOpening m u
    t.gate m = { s.gate m with opening := none, starve := some (s.profile m).starveWindow }
      ∧ (t.compartment m).starveCount = 0 ∧ (m = f → (t.context f).phase = .feeding)
      ∧ t.stage o = (if (s.gate other).opening = none then .coarse else .opening)
      ∧ t.gate other = s.gate other ∧ t.channel o = s.channel o ∧ t.channel f = s.channel f
      ∧ (∀ j, j ≠ o → j ≠ f → t.spout j = s.spout j) ∧ t.port = s.port ∧ SameTables s t := by
  intro f other t
  have hstages : ∀ j, u.stage j = s.stage j := hu.same_at (fun x => x.context.stage) (congrArg (fun c => c.stage) hcontext)
  have howner : u.ownerOf m = o := by
    unfold State.ownerOf State.isBound
    rw [hstages]
    obtain rfl | rfl := hm
    · exact if_neg (by rw [hs]; decide)
    · rw [hp.stage_follower, hp.leaderOf_follower]; rfl
  obtain ⟨v, hv, hverify⟩ := verifyOpening_eq hu howner
  have hgates : (v.gate m) = { s.gate m with opening := none, starve := some (s.profile m).starveWindow } := by
    rw [hv.gate]
    show GateUnit.verify p.calibration.profile.starveWindow p.context.gate = _
    rw [hcontext, hcalibration]; rfl
  have hapart : other ≠ m := by
    obtain rfl | rfl := hm
    · exact (if_pos rfl).trans_ne hp.apart
    · exact (if_neg hp.apart).trans_ne hp.apart.symm
  have hother : v.gate other = s.gate other := congrArg (fun x : Spout => x.context.gate) (hv.others other hapart)
  have hstage : v.stage o = .opening := ((hv.same_at (fun x => x.context.stage) (congrArg (fun c => c.stage) hcontext) o :)).trans hs
  have htwin : v.isTwin o = true :=
    ((hv.same_at (fun x => x.context.order.twin) (congrArg (fun c => c.order.twin) hcontext) o :)).trans hp.isTwin
  have hbound : v.isBound (followerOf o) = true := (congrArg (· == Stage.bound)
    (hv.same_at (fun x => x.context.stage) (congrArg (fun c => c.stage) hcontext) (followerOf o) :)).trans hp.isBound
  have houtput : (v.gate o).output = .openFull := by
    obtain rfl | rfl := hm
    · rw [hgates]; exact hfull
    · rw [show v.gate o = s.gate o from congrArg (fun x : Spout => x.context.gate) (hv.others o hp.apart.symm)]; exact hfull
  have hall : (v.members o).all (fun j => (v.gate j).opening.isNone) = (s.gate other).opening.isNone := by
    rw [members_pair htwin hbound, List.all_cons, List.all_cons, List.all_nil, Bool.and_true]
    obtain rfl | rfl := hm
    · rw [hgates, show v.gate (followerOf m) = s.gate other from by rw [← hother, show other = followerOf m from if_pos rfl]]; rfl
    · rw [hgates, show v.gate o = s.gate other from by rw [← hother, show other = o from if_neg hp.apart]]
      exact Bool.and_true _
  rw [hall, houtput, if_pos rfl] at hverify
  have hchannels : ∀ j, v.channel j = s.channel j := hv.same_at (fun x => x.channel) hchannel
  have hframe : ∀ j, j ≠ o → j ≠ f → v.spout j = s.spout j := fun j ho hf =>
    hv.others j (by obtain rfl | rfl := hm; exacts [ho, hf])
  have hcount : (v.compartment m).starveCount = 0 := congrArg (fun c => c.starveCount) hv.compartment
  have hphase : m = f → (v.context f).phase = .feeding := fun e => by
    subst e
    refine (congrArg (fun c => c.phase) hv.context).trans ?_
    rw [if_neg hp.apart]; rfl
  by_cases hnone : (s.gate other).opening = none
  · rw [hnone] at hverify
    have hdone := (Becomes.refl o none v).setStage .coarse
    have ht : t = setStage o .coarse v := hverify.trans (if_pos ⟨hstage, rfl⟩)
    rw [if_pos hnone, ht]
    have hkeeps {α : Type} (g : Spout → α) (hg : g ((v.spout o).onStage .coarse) = g (v.spout o)) (j : SpoutId) :
        g ((setStage o .coarse v).spout j) = g (v.spout j) := hdone.same_at g hg j
    exact ⟨(hkeeps (fun x => x.context.gate) rfl m).trans hgates, (hkeeps (fun x => x.context.compartment.starveCount) rfl m).trans hcount,
      fun e => (hkeeps (fun x => x.context.phase) rfl f).trans (hphase e), hdone.stage,
      (hkeeps (fun x => x.context.gate) rfl other).trans hother, (hkeeps (fun x => x.channel) rfl o).trans (hchannels o),
      (hkeeps (fun x => x.channel) rfl f).trans (hchannels f), fun j ho hf => (hdone.others j ho).trans (hframe j ho hf),
      hdone.port.trans hv.port, hv.tables.trans hdone.tables⟩
  · have ht : t = v := hverify.trans (if_neg fun c => hnone (Option.isNone_iff_eq_none.1 c.2))
    rw [if_neg hnone, ht]
    exact ⟨hgates, hcount, hphase, hstage, hother, hchannels o, hchannels f, hframe, hv.port, hv.tables⟩

/-- Settles O35: the pair as its compartment start finds it (`State.PairStarts`), one lemma for each outcome of the start, and the
verification of either spout. -/
theorem twinCompartmentOpensOnBothSpouts : Obligations.TwinCompartmentOpensOnBothSpouts := by
  unfold Obligations.TwinCompartmentOpensOnBothSpouts
  refine ⟨fun c o m n s hw hp hm hc hs hphase hslot hindex heff => ?_, fun o m s hp hm hs hdue hg hfull hopening => ?_⟩
  · intro f other x full allOpen
    obtain ⟨e, u, hexec, hu, he⟩ := exec_reportsEngaged_pair hp hm hc hs hphase
    obtain ⟨p, r, hstart, hself, hrest⟩ := pairStarts_of_engages hp hm hslot hindex hu he
    by_cases hreported : (s.compartment other).engagedReported = true
    · rw [show (s.compartment (if m = o then followerOf o else o)).engagedReported = true from hreported, if_pos rfl] at hexec
      have hframe := hstart.frame hm (by rw [hself]; exact he.position) (by rw [hself]; exact he.raised) 63
      have hengaged : (s.positioner other).position = .engaged → p.positioner.position = .engaged ∧ r.positioner.position = .engaged := by
        intro hother
        have hrest' : (if m = o then r else p).positioner.position = .engaged := by rw [hrest]; exact hother
        have hself' := he.position
        rw [← hself] at hself'
        obtain rfl | rfl := hm
        · rw [if_pos rfl] at hrest' hself'; exact ⟨hself', hrest'⟩
        · rw [if_neg hp.apart] at hrest' hself'; exact ⟨hrest', hself'⟩
      refine ⟨_, hexec, fun hfalse => ?_, fun _ hdo hdf hall hgates => ?_, fun _ hd => hstart.zeroes_shows _ hphase hd,
        fun _ hdo hdf hlevels hready hother hshut => ?_, hframe.others, hframe.port, hframe.tables⟩
      · rw [hreported] at hfalse; cases hfalse
      · obtain ⟨hfirst, hsecond, hready, hother⟩ := hall
        exact hstart.opens_shows _ hw hdo hdf hfirst hsecond hready (hengaged hother).1 (hengaged hother).2 heff hgates
      · exact hstart.closes_shows _ hdo hdf hlevels hready (hengaged hother).1 (hengaged hother).2 hshut
    · have hfalse : (s.compartment other).engagedReported = false := Bool.eq_false_iff.2 hreported
      rw [show (s.compartment (if m = o then followerOf o else o)).engagedReported = false from hfalse, if_neg Bool.false_ne_true] at hexec
      have hframe := hstart.both.frame
      have hreport : (u.compartment m).engagedReported = true := by
        rw [hu.compartment, he.context]
      refine ⟨_, hexec, fun _ => ⟨(congrArg (fun x => x.position) hu.positioner).trans he.position,
        hstart.both.atFirst.stage.trans (hstart.leader.stage.trans hs),
        (congrArg (fun c => c.phase) hstart.both.atSecond.context).trans (hstart.follower.phase.trans hphase), hreport,
        hstart.both.atFirst.gate.trans hstart.leader.gate, hstart.both.atSecond.gate.trans hstart.follower.gate,
        hstart.both.atFirst.channel.trans hstart.leader.channel, hstart.both.atSecond.channel.trans hstart.follower.channel⟩,
        fun h => absurd h hreported, fun h => absurd h hreported, fun h => absurd h hreported, hframe.others, hframe.port, hframe.tables⟩
  · intro f other
    have htaken := (Becomes.refl m none s).taking .gateOpen true
    have hgate : (updateLine m .gateOpen (fun l => { l with taken := true, timer := none }) s).gate m = s.gate m := htaken.gate
    refine ⟨_, ?_, verifyOpening_pair hp hm htaken rfl rfl rfl hs hfull⟩
    rw [exec_debounceExpiry hdue]
    unfold takeChange deliverChange; dsimp only
    unfold gateOpenPresent; dsimp only
    rw [if_pos rfl, hgate, if_pos ⟨hg, hopening⟩]

end Sys2Proof.Machine

/-! A TWIN accepted and becoming RUNNING (R51, R99, R101, R103): its starting form in the slot, and the claim on its follower. -/

namespace Sys2Proof.Machine

/-! ## What becoming RUNNING reads of a slot (R100) -/

/-- The fields of an order that is to run read as they did: its part before the entries and the host fields of entry 0. -/
def SameHead (n : SlotId) (s t : State) : Prop :=
  ∀ off, 6 ≤ off → off < 0x18 ∨ 0x20 ≤ off → off < 0x45 →
    t.memory.read (Config.slotBase n + off) = s.memory.read (Config.slotBase n + off)

namespace SameHead

variable {n : SlotId} {s t u : State}

theorem trans (h : SameHead n s t) (h' : SameHead n t u) : SameHead n s u := fun off h6 hp ho =>
  (h' off h6 hp ho).trans (h off h6 hp ho)

theorem slotU8 (h : SameHead n s t) {off : Nat} (h6 : 6 ≤ off) (hp : off < 0x18 ∨ 0x20 ≤ off) (ho : off < 0x45) :
    t.slotU8 n off = s.slotU8 n off := congrArg BitVec.toNat (h off h6 hp ho)

theorem slotU32 (h : SameHead n s t) {off : Nat} (h6 : 6 ≤ off) (hp : off + 3 < 0x18 ∨ 0x20 ≤ off) (ho : off + 3 < 0x45) :
    t.slotU32 n off = s.slotU32 n off :=
  slotU32_of_bytes fun k hk => h.slotU8 (by omega) (by omega) (by omega)

theorem loadCount (h : SameHead n s t) : t.loadCount n = s.loadCount n :=
  h.slotU8 (off := 0x11) (by omega) (by omega) (by omega)
theorem loadLimit (h : SameHead n s t) : t.loadLimit n = s.loadLimit n :=
  h.slotU32 (off := 0x14) (by omega) (by omega) (by omega)
theorem target (h : SameHead n s t) : t.slotU32 n 0x40 = s.slotU32 n 0x40 := h.slotU32 (by omega) (by omega) (by omega)
theorem skip (h : SameHead n s t) : t.slotU8 n 0x44 = s.slotU8 n 0x44 := h.slotU8 (by omega) (by omega) (by omega)

/-- A write of the slot's header, or of the bytes that the part writes alone. -/
theorem writeMemory (n : SlotId) (s : State) {a : Nat} {bytes : List Byte}
    (h : a + bytes.length ≤ Config.slotBase n + 6 ∨ Config.slotBase n + 0x45 ≤ a
      ∨ (Config.slotBase n + 0x18 ≤ a ∧ a + bytes.length ≤ Config.slotBase n + 0x20)) : SameHead n s (s.writeMemory a bytes) :=
  fun _ _ _ _ => Memory.read_writeBytes_other _ _ _ (by omega)

theorem writeSlotState (n : SlotId) (x : SlotState) (s : State) : SameHead n s (writeSlotState n x s) :=
  writeMemory n s (.inl (by rw [length_u8Bytes]; omega))

theorem writeResult (n : SlotId) (r : Result) (why : Reason) (index : Nat) (s : State) :
    SameHead n s (writeResult n r why index s) :=
  writeMemory n s (.inl (by simp only [List.length_append, length_u8Bytes]; omega))

theorem setQueue (n : SlotId) (i : SpoutId) (l : List SlotId) (s : State) : SameHead n s (s.setQueue i l) :=
  fun _ _ _ _ => rfl

theorem of_sameSlot (h : SameSlot n s t) : SameHead n s t := fun off _ _ _ => h off (by omega)

end SameHead

/-- R99: the starting form of the entries leaves what the host wrote. -/
theorem sameHead_writeStartingFields (n : SlotId) (s : State) : SameHead n s (writeStartingFields n s) := by
  have hentry (t : State) (e : Nat) :
      SameHead n t (writeEffectiveTarget n e 0 (writeEntry n e .pending none 0 0 t)) := by
    have hcodes := SameHead.writeMemory n t (a := Config.slotBase n + entryOffset e + 5)
      (bytes := u8Bytes Code.pending.value ++ u8Bytes 0 ++ u8Bytes 0) (.inr (.inl (by unfold entryOffset; omega)))
    have hfinal := SameHead.writeMemory n (t.writeMemory (Config.slotBase n + entryOffset e + 5)
      (u8Bytes Code.pending.value ++ u8Bytes 0 ++ u8Bytes 0)) (a := Config.slotBase n + entryOffset e + 12)
      (bytes := u32Bytes 0) (.inr (.inl (by unfold entryOffset; omega)))
    exact (hcodes.trans hfinal).trans (SameHead.writeMemory n _ (.inr (.inl (by unfold entryOffset; omega))))
  have hentries (l : List Nat) (t : State) : SameHead n t
      (l.foldl (fun t e => writeEffectiveTarget n e 0 (writeEntry n e .pending none 0 0 t)) t) := by
    induction l generalizing t with
    | nil => exact fun _ _ _ _ => rfl
    | cons e l ih => exact (hentry t e).trans (ih _)
  have hprogress (t : State) : SameHead n t (writeProgress n (s.loadCount n) 0 t) := fun off _ _ _ =>
    read_writeProgress t n _ _ (by omega)
  exact (hentries _ s).trans (hprogress _)

/-- R99: the header of an accepted order is not part of its starting form. -/
theorem slotKind_writeStartingFields (n : SlotId) (s : State) : (writeStartingFields n s).slotKind n = s.slotKind n := by
  have hwrite (t : State) (e off : Nat) (bytes : List Byte) :
      (t.writeMemory (Config.slotBase n + entryOffset e + off) bytes).slotKind n = t.slotKind n :=
    Memory.u8_writeBytes_other _ _ _ (.inl (by unfold entryOffset; omega))
  have hentries (l : List Nat) (t : State) :
      (l.foldl (fun t e => writeEffectiveTarget n e 0 (writeEntry n e .pending none 0 0 t)) t).slotKind n = t.slotKind n := by
    induction l generalizing t with
    | nil => rfl
    | cons e l ih => exact (ih _).trans ((hwrite _ e 8 _).trans ((hwrite _ e 12 _).trans (hwrite t e 5 _)))
  exact (slotU8_writeProgress _ n _ _ (k := 1) (by omega)).trans (hentries _ s)

namespace Becomes

variable {i : SpoutId} {n : SlotId} {p : Spout} {q : Port} {s t : State}

theorem writeEntry (h : Becomes i (some n) p q s t) {e : Nat} (he : e < 12) (code : Code) (secondary : Option Code)
    (trims final : Nat) : Becomes i (some n) p q s (writeEntry n e code secondary trims final t) := by
  unfold Machine.writeEntry
  rw [Nat.add_assoc, Nat.add_assoc]
  exact (h.writeSlot _ (by simp only [List.length_append, length_u8Bytes]; unfold entryOffset; omega)).writeSlot _
    (by rw [length_u32Bytes]; unfold entryOffset; omega)

theorem writeStartingFields (h : Becomes i (some n) p q s t) (hc : t.loadCount n ≤ 12) :
    Becomes i (some n) p q s (writeStartingFields n t) := by
  have hentries (l : List Nat) (hl : ∀ e ∈ l, e < 12) : ∀ u, Becomes i (some n) p q s u → Becomes i (some n) p q s
      (l.foldl (fun t e => Machine.writeEffectiveTarget n e 0 (Machine.writeEntry n e .pending none 0 0 t)) u) := by
    induction l with
    | nil => exact fun _ hu => hu
    | cons e l ih =>
      have he := hl e List.mem_cons_self
      exact fun _ hu => ih (fun e' he' => hl e' (List.mem_cons_of_mem _ he')) _
        ((hu.writeEntry he .pending none 0 0).writeEffectiveTarget he 0)
  exact (hentries _ (fun e he => by have := List.mem_range.1 he; omega) t h).writeProgress _ _

theorem writeSlotState (h : Becomes i (some n) p q s t) (x : SlotState) :
    Becomes i (some n) p q s (writeSlotState n x t) := h.writeSlot 0 (by rw [length_u8Bytes]; omega)

end Becomes

/-! ## Accepted (R159, R162) -/

section Accepted

variable {n : SlotId} {i : SpoutId} {s : State} (hm : s.memory.wf = true) (ht : s.takesPosting n)
  (hi : s.slotSpoutByte n = i.val) (hc : ∀ c ∈ s.loadChecks n, c.2 = true)

/-- R99: what the checks of an accepted order say of its count, its limit and its first entry. -/
theorem head_of_loadChecks (hc : ∀ c ∈ s.loadChecks n, c.2 = true) :
    1 ≤ s.loadCount n ∧ s.loadCount n ≤ 12 ∧ 1 ≤ s.loadLimit n ∧ 1 ≤ s.slotU32 n 0x40 := by
  have hbetween {low high x : Nat} (h : inRange low high x = true) : low ≤ x ∧ x ≤ high := by
    simpa [inRange] using h
  obtain ⟨hlow, hhigh⟩ := hbetween (hc (0x11, inRange 1 12 (s.loadCount n)) (by simp [State.loadChecks]))
  obtain ⟨hlimit, -⟩ := hbetween (hc (0x14, inRange 1000 150000000 (s.loadLimit n)) (by simp [State.loadChecks]))
  obtain ⟨htarget, -⟩ := hbetween (hc (entryOffset 0, inRange 1000 65000000 (s.slotU32 n (entryOffset 0))) (by
    refine List.mem_append_right _ (List.mem_flatMap.2 ⟨0, List.mem_range.2 hlow, ?_⟩)
    exact List.mem_cons_self))
  exact ⟨hlow, hhigh, by omega, le_trans (by omega) htarget⟩

theorem slotU32_posted (s : State) (n : SlotId) (kind : Nat) {off : Nat} (h : 2 ≤ off) :
    (s.posted n kind).slotU32 n off = s.slotU32 n off := u32_posted s n kind off h

theorem loadChecks_posted (s : State) (n : SlotId) (kind : Nat) : (s.posted n kind).loadChecks n = s.loadChecks n := by
  have h8 : ∀ off, 2 ≤ off → (s.posted n kind).slotU8 n off = s.slotU8 n off := fun off ho =>
    Memory.u8_writeBytes_other _ _ _ (.inr (by simp only [List.length_cons, List.length_nil]; omega))
  have h32 : ∀ off, 2 ≤ off → (s.posted n kind).slotU32 n off = s.slotU32 n off := fun off ho => slotU32_posted s n kind ho
  have hentries : ∀ e, entryOffset e = 0x40 + 16 * e := fun _ => rfl
  unfold State.loadChecks State.loadCount State.loadLimit
  rw [h8 0x10 (by omega), h8 0x11 (by omega), h32 0x14 (by omega)]
  refine congrArg _ (List.flatMap_congr fun e _ => ?_)
  rw [h32 _ (by rw [hentries]; omega), h8 _ (by rw [hentries]; omega)]

/-- R50, R159: a TWIN that is not refused. -/
theorem twinRefusal_eq_none (hi : s.slotSpoutByte n = i.val) (hc : ∀ c ∈ s.loadChecks n, c.2 = true) (he : i.val % 2 = 0)
    (hp : s.hasProfile i = true) (hpf : s.hasProfile (followerOf i) = true)
    (hset : s.products[s.loadProduct n].set = true) (hf : s.isFaulted i = false) (hff : s.isFaulted (followerOf i) = false)
    (hq : s.queue i = []) : s.twinRefusal n = none := by
  have hspout : (decide (i.val < 8) && i.val % 2 == 0) = true := by rw [he]; simp
  unfold State.twinRefusal State.profileRefusal State.productRefusal; dsimp only
  rw [slotSpout_of_byte hi, hi, fieldsRefusal_eq_none hc, faultRefusal_eq_none hf, queueRefusal_eq_none hq, hp, hpf, hset, hff,
    hspout]
  rfl

/-- R99, R162: an accepted TWIN has joined the queue of a spout where nothing stood in it. -/
def State.twinQueued (s : State) (n : SlotId) (i : SpoutId) : State :=
  writeSlotState n .queued ((writeStartingFields n (writeResult n .none .none noField s)).setQueue i [n])

theorem slotKind_writeResult (n : SlotId) (s : State) : (writeResult n .none .none noField s).slotKind n = s.slotKind n :=
  Memory.u8_writeBytes_other _ _ _ (.inl (by omega))

theorem queueOrder_twin (k : Reaction) (hi : s.slotSpout n = i) (hk : s.slotKind n = 2) (hq : s.queue i = []) :
    queueOrder k n s = k (.idle i) (s.twinQueued n i) := by
  have hload : ((writeResult n .none .none noField s).slotKindIs n .load || (writeResult n .none .none noField s).slotKindIs n .twin)
      = true := by
    simp only [State.slotKindIs, slotKind_writeResult, hk, Kind.value]; rfl
  have hqueued : (writeStartingFields n (writeResult n .none .none noField s)).queue i = [] :=
    (congrArg Spout.queue ((sameButMemory_writeStartingFields ..).spout i)).trans hq
  unfold queueOrder State.twinQueued; dsimp only
  rw [hload, hi, if_pos rfl, hqueued]; rfl

theorem sameHead_twinQueued (n : SlotId) (i : SpoutId) (s : State) : SameHead n s (s.twinQueued n i) := by
  have hstarted := (SameHead.writeResult n .none .none noField s).trans (sameHead_writeStartingFields n _)
  exact (hstarted.trans (SameHead.setQueue n i [n] _)).trans (SameHead.writeSlotState n .queued _)

theorem slotKind_twinQueued (n : SlotId) (i : SpoutId) (s : State) : (s.twinQueued n i).slotKind n = s.slotKind n :=
  (Memory.u8_writeBytes_other _ _ _ (.inr (by rw [length_u8Bytes]))).trans
    ((slotKind_writeStartingFields n _).trans (slotKind_writeResult n s))

theorem Becomes.twinQueued {p : Spout} {q : Port} {t : State} (h : Becomes i (some n) p q s t) (hc : t.loadCount n ≤ 12) :
    Becomes i (some n) { p with queue := [n] } q s (t.twinQueued n i) := by
  have hstarted := (h.writeResult .none .none noField).writeStartingFields
    ((SameHead.writeResult n .none .none noField t).loadCount.trans_le hc)
  exact (hstarted.setQueue [n]).writeSlotState .queued

theorem slotKind_setQueue (s : State) (i : SpoutId) (l : List SlotId) (n : SlotId) :
    (s.setQueue i l).slotKind n = s.slotKind n := rfl

theorem serveHead_twin (k : Reaction) (hk : s.slotKind n = 2) : serveHead k i n s = becomeRunning k i n true s := by
  unfold serveHead
  rw [hk]; rfl

include hm ht hi hc

/-- R158, R162, R164: a TWIN accepted for a spout at rest is served at once; what it leaves when it is out of its queue. -/
theorem exec_twin_atRest (he : i.val % 2 = 0) (hp : s.hasProfile i = true) (hpf : s.hasProfile (followerOf i) = true)
    (hset : s.products[s.loadProduct n].set = true) (hf : s.isFaulted i = false) (hff : s.isFaulted (followerOf i) = false)
    (hr : s.rests i) : ∃ u, exec (.twin n) s = .next (becomeRunning (reactTo 63) i n true u)
      ∧ Becomes i (some n) (s.spout i) s.port s u ∧ SameHead n s u := by
  obtain ⟨hstage, hclaim, hqueue⟩ := hr
  obtain ⟨-, hcount, -, -⟩ := head_of_loadChecks hc
  have hposted : Becomes i (some n) (s.spout i) s.port s (s.posted n 2) :=
    (Becomes.refl i (some n) s).writeSlot 0 (bytes := [1, BitVec.ofNat 8 2]) (by simp)
  have hspout := (slotSpoutByte_posted s n 2).trans hi
  have hproduct : (s.posted n 2).loadProduct n = s.loadProduct n :=
    congrArg (Fin.ofNat 16) (u8_posted s n n 2 0x10 (.inr (by omega)) (by omega))
  have hset' : (s.posted n 2).products[(s.posted n 2).loadProduct n].set = true :=
    (congrArg (fun e : ProductId => s.products[e].set) hproduct).trans hset
  have hnone : (s.posted n 2).twinRefusal n = none :=
    twinRefusal_eq_none hspout (by rw [loadChecks_posted]; exact hc) he hp hpf hset' hf hff hqueue
  have hhead : SameHead n s (s.posted n 2) := SameHead.writeMemory n s (.inl (by simp))
  have hqueued := hposted.twinQueued (hhead.loadCount.trans_le hcount)
  have hkind : ((s.posted n 2).twinQueued n i).slotKind n = 2 := (slotKind_twinQueued ..).trans (slotKind_posted hm n (by omega))
  have hout := hqueued.setQueue []
  rw [show ({ ({ s.spout i with queue := [n] } : Spout) with queue := [] } : Spout) = s.spout i from
    congrArg (fun l => { s.spout i with queue := l }) hqueue.symm] at hout
  refine ⟨((s.posted n 2).twinQueued n i).setQueue i [], ?_, hout,
    (hhead.trans (sameHead_twinQueued n i _)).trans (SameHead.setQueue n i [] _)⟩
  have hexec : exec (.twin n) s = .next (postSlot n 2 (takeTwin react n) s) := rfl
  rw [hexec, postSlot_taken ht, takeTwin, hnone, takeOrder_accepted,
    queueOrder_twin react (slotSpout_of_byte hspout) (slotKind_posted hm n (by omega)) hqueue, react_idle,
    onIdle_head _ ((congrArg (fun q => q.exchange) hqueued.port).trans ht.1) (hqueued.stage.trans hstage)
      ((congrArg (fun c => c.claim) hqueued.context).trans hclaim) hqueued.queue,
    serveHead_twin _ ((slotKind_setQueue ..).trans hkind)]

end Accepted

/-! ## RUNNING (R51, R101, R103) -/

/-- R101, R102, R103: the leader whose TWIN has become RUNNING at entry 0. -/
def Spout.leads (n : SlotId) (o : OrderState) (eff : Nat) : Spout → Spout := Spout.onContext fun c =>
  { c with slot := some n, compartment := { index := 0, effectiveTarget := eff }, order := o, stage := .waitIndex }

/-- R51: the spout on which a TWIN's claim stands. -/
def Spout.claimed (o : SpoutId) (n : SlotId) : Spout → Spout := Spout.onContext fun c =>
  { c with claim := some { leader := o, slot := n } }

/-- R100, R101: what the order of the slot copies when it becomes RUNNING. -/
def State.twinCopy (s : State) (n : SlotId) : OrderState := (writeSlotState n .running s).orderCopy n true

theorem slotStateByte_running {s : State} (hm : s.memory.wf = true) (n : SlotId) :
    (writeSlotState n .running s).slotStateByte n = 3 :=
  (State.holds_writeMemory hm (Config.slotBase n) (u8Bytes SlotState.running.value)).u8 (k := 0) rfl

/-- R102, R103: the first entry of an order that has become RUNNING, if it is to be loaded, is handed over at once. -/
theorem stepThrough_first {n : SlotId} {s : State} (hc : 1 ≤ s.loadCount n) (hskip : s.slotU8 n 0x44 = 0)
    (htarget : 1 ≤ s.slotU32 n 0x40) (hlimit : 1 ≤ s.loadLimit n) (twin : Bool) (w : State) :
    stepThrough n ((writeSlotState n .running s).orderCopy n twin) 0
      (((writeSlotState n .running s).orderCopy n twin).entries.drop 0) w
      = (w, some (0, min (s.slotU32 n 0x40) (s.loadLimit n))) := by
  let v := writeSlotState n .running s
  have hhead : SameHead n s v := SameHead.writeSlotState n .running s
  obtain ⟨c, hcount⟩ : ∃ c, s.loadCount n = c + 1 := ⟨s.loadCount n - 1, by omega⟩
  obtain ⟨rest, hentries⟩ : ∃ rest, (v.orderCopy n twin).entries = { target := s.slotU32 n 0x40, skip := false } :: rest := by
    have hlist : (v.orderCopy n twin).entries = v.loadEntries n := rfl
    have hfirst : (v.slotU8 n (entryOffset 0 + 4) == 1) = false := by
      rw [show v.slotU8 n (entryOffset 0 + 4) = 0 from hhead.skip.trans hskip]; rfl
    rw [hlist, State.loadEntries, hhead.loadCount, hcount, List.range_succ_eq_map, List.map_cons, hfirst]
    exact ⟨_, by rw [show v.slotU32 n (entryOffset 0) = s.slotU32 n 0x40 from hhead.target]⟩
  have heff : effectiveTarget (s.slotU32 n 0x40) (v.orderCopy n twin).limit (v.orderCopy n twin).total
      = min (s.slotU32 n 0x40) (s.loadLimit n) := by
    rw [show (v.orderCopy n twin).limit = s.loadLimit n from hhead.loadLimit]; rfl
  show stepThrough n (v.orderCopy n twin) 0 ((v.orderCopy n twin).entries.drop 0) w = _
  rw [List.drop_zero, hentries, stepThrough, if_neg Bool.false_ne_true]
  dsimp only
  rw [heff, if_pos (by omega)]

/-- R51, R101 to R103: a TWIN whose first entry is to be loaded hands it over, and claims a follower that is not FAULTED. -/
theorem becomeRunning_twin (k : Reaction) {i : SpoutId} {n : SlotId} {s : State} (hm : s.memory.wf = true) (he : i.val % 2 = 0)
    (hc : 1 ≤ s.loadCount n) (hskip : s.slotU8 n 0x44 = 0) (htarget : 1 ≤ s.slotU32 n 0x40) (hlimit : 1 ≤ s.loadLimit n)
    (hf : s.isFaulted (followerOf i) = false) : ∃ u, becomeRunning k i n true s = k (.idle (followerOf i)) u
      ∧ BothBecome i (followerOf i) (some n)
        ((s.spout i).leads n (s.twinCopy n) (min (s.slotU32 n 0x40) (s.loadLimit n)))
        ((s.spout (followerOf i)).claimed i n) s.port s u
      ∧ u.slotStateByte n = 3 := by
  let v := writeSlotState n .running s
  have hrunning := (Becomes.refl i (some n) s).writeSlotState .running
  let w := v.updateContext i fun c => { c with slot := some n, compartment := {}, order := s.twinCopy n }
  have hw := hrunning.updateContext fun c => { c with slot := some n, compartment := {}, order := s.twinCopy n }
  have horder : w.order i = s.twinCopy n := hw.order
  have hstep : stepThrough n (s.twinCopy n) 0 ((s.twinCopy n).entries.drop 0) w
      = (w, some (0, min (s.slotU32 n 0x40) (s.loadLimit n))) := stepThrough_first hc hskip htarget hlimit true w
  have hhanded := (hw.updateCompartment fun _ => { index := 0, effectiveTarget := min (s.slotU32 n 0x40) (s.loadLimit n) }).setStage
    .waitIndex
  have hboth := hhanded.both (followerOf_ne he)
  have hclaimed := hboth.onSecond (hboth.atSecond.updateContext fun c => { c with claim := some { leader := i, slot := n } })
  refine ⟨_, ?_, hclaimed, ?_⟩
  · show stepFrom k i n 0 true w = _
    unfold stepFrom; dsimp only
    rw [horder, hstep]; dsimp only
    rw [if_pos (show ((s.twinCopy n).twin && true) = true from rfl)]
    unfold placeClaim; dsimp only
    have hfaulted : (setStage i .waitIndex (handOver i 0 (min (s.slotU32 n 0x40) (s.loadLimit n)) w)).isFaulted (followerOf i)
        = s.isFaulted (followerOf i) := hboth.atSecond.isFaulted
    rw [hfaulted, hf, if_neg Bool.false_ne_true]
    rfl
  · have hstate : (setStage i .waitIndex (handOver i 0 (min (s.slotU32 n 0x40) (s.loadLimit n)) w)).slotStateByte n
        = v.slotStateByte n :=
      (((Becomes.refl i none w).updateCompartment fun _ =>
        { index := 0, effectiveTarget := min (s.slotU32 n 0x40) (s.loadLimit n) }).setStage .waitIndex).slots n (by simp) |>.slotStateByte
    exact hstate.trans (slotStateByte_running hm n)

/-! ## The claim is granted (R52, R54) -/

/-- R52, R54: the follower that enters BOUND. -/
def Spout.boundTo (n : SlotId) (index : Nat) (r : Spout) : Spout :=
  (r.onContext (Context.bind (some n) index)).onStage .bound

/-- R55, R106: the spout whose index timer starts. -/
def Spout.timesIndex (p : Spout) : Spout :=
  p.onOrder fun o => { o with indexTimer := some (p.calibration.profile.indexTimeout * 1000) }

namespace BothBecome

variable {o f : SpoutId} {w : Option SlotId} {n : SlotId} {p r : Spout} {q : Port} {s t : State}

/-- R52, R55, R106: a claim is granted, and then the index condition is tested. -/
theorem grantClaim (h : BothBecome o f w p r q s t) (k : Reaction) (n : SlotId) : ∃ u,
    grantClaim k f { leader := o, slot := n } t = testIndex k o u
      ∧ BothBecome o f w p.timesIndex (r.boundTo n p.context.compartment.index) q s u := by
  have hbind := h.onSecond (h.atSecond.updateContext (Context.bind (some n) (t.compartment o).index))
  have hbound := hbind.onSecond (hbind.atSecond.setStage .bound)
  have htimed := hbound.onFirst (hbound.atFirst.updateOrder fun x =>
    { x with indexTimer := some (p.calibration.profile.indexTimeout * 1000) })
  rw [h.atFirst.compartment] at htimed
  refine ⟨_, ?_, htimed⟩
  unfold Machine.grantClaim startIndexTimer
  rw [← hbound.atFirst.profile, h.atFirst.compartment]

end BothBecome

/-- R52: a claim on a context that is IDLE is granted. -/
theorem reactTo_idle_claim (d : Nat) {f : SpoutId} {c : Claim} {s : State} (hx : s.port.exchange = .running)
    (hs : s.stage f = .idle) (hc : (s.context f).claim = some c) : reactTo (d + 1) (.idle f) s = grantClaim (reactTo d) f c s := by
  rw [reactTo_idle]
  unfold onIdle
  rw [if_pos ⟨hx, hs⟩, hc]

/-- R105: where the index condition does not hold, its test does nothing. -/
theorem testIndex_unmet (k : Reaction) {o : SpoutId} {s : State}
    (h : indexCondition (s.order o).watch (s.present o .indexReady) = false) : testIndex k o s = s := by
  unfold testIndex
  rw [h]
  exact if_neg fun c => Bool.false_ne_true c.2.2

/-- R51, R52, R106: a TWIN whose first entry is to be loaded, and whose follower is at rest, binds it at once and waits for its hatch. -/
theorem becomeRunning_granted (d : Nat) {i : SpoutId} {n : SlotId} {s : State} (hm : s.memory.wf = true) (he : i.val % 2 = 0)
    (hc : 1 ≤ s.loadCount n) (hskip : s.slotU8 n 0x44 = 0) (htarget : 1 ≤ s.slotU32 n 0x40) (hlimit : 1 ≤ s.loadLimit n)
    (hf : s.isFaulted (followerOf i) = false) (hx : s.port.exchange = .running) (hidle : s.stage (followerOf i) = .idle)
    (hready : s.present i .indexReady = false) :
    BothBecome i (followerOf i) (some n)
      ((s.spout i).leads n (s.twinCopy n) (min (s.slotU32 n 0x40) (s.loadLimit n))).timesIndex
      (((s.spout (followerOf i)).claimed i n).boundTo n 0) s.port s (becomeRunning (reactTo (d + 1)) i n true s)
      ∧ (becomeRunning (reactTo (d + 1)) i n true s).slotStateByte n = 3 := by
  obtain ⟨v, hrun, hv, hstate⟩ := becomeRunning_twin (reactTo (d + 1)) hm he hc hskip htarget hlimit hf
  obtain ⟨w, hgrant, hw⟩ := hv.here.grantClaim (reactTo d) n
  have hclaim : (v.context (followerOf i)).claim = some { leader := i, slot := n } :=
    (congrArg (fun c => c.claim) hv.atSecond.context :)
  have hserved : reactTo (d + 1) (.idle (followerOf i)) v = w := by
    rw [reactTo_idle_claim d ((congrArg (fun q => q.exchange) hv.port).trans hx) (hv.atSecond.stage.trans hidle) hclaim, hgrant]
    refine testIndex_unmet _ ?_
    rw [hw.atFirst.present, hw.atFirst.order]
    show indexCondition .first (s.present i .indexReady) = false
    rw [hready]; rfl
  rw [hrun, hserved]
  exact ⟨hv.trans (hw.widen _), (hw.slots n (by simp)).slotStateByte.trans hstate⟩

end Sys2Proof.Machine

/-! A TWIN binds its follower (R51, R52, R54, R55, R105): at once, or when the follower's own order ends. -/

namespace Sys2Proof.Machine

/-! ## The engage order to both spouts (R55, R86) -/

/-- R128: a lowering of a spout that is still at its upper switch goes on. -/
theorem Becomes.testLowered_raised {i : SpoutId} {w : Option SlotId} {p : Spout} {q : Port} {s t : State}
    (h : Becomes i w p q s t) (k : Reaction) (hr : p.field.spoutRaised.taken = true) : testLowered k i t = t :=
  if_neg fun c => c.2.2 ((h.present .spoutRaised).trans hr)

namespace Spout

/-- R55: the mark of an ENGAGED report. -/
def reporting (b : Bool) : Spout → Spout := Spout.onCompartment fun c => { c with engagedReported := b }

/-- R54, R55, R86: the follower on its leader's engage order. -/
def engagedBehind (r : Spout) : Spout := r.dropCapture.onContext fun c => { c with phase := .engaging }

/-- R86, R106: the leader that enters ENGAGING. -/
def entersEngaging (p : Spout) : Spout :=
  ((p.onOrder fun o => { o with indexTimer := none }).dropCapture).onStage .engaging

end Spout

namespace BothBecome

variable {o : SpoutId} {w : Option SlotId} {p r : Spout} {q : Port} {s t : State}

/-- R55: ENGAGED by the follower alone is marked, and the compartment waits for its leader. -/
theorem reportEngaged (h : BothBecome o (followerOf o) w p r q s t) (d : Nat) (he : o.val % 2 = 0)
    (ht : p.context.order.twin = true) (hn : p.context.compartment.engagedReported = false)
    (hb : r.context.stage = .bound) :
    ∃ b, BothBecome o (followerOf o) w p (r.reporting b) q s (reactTo d (.engaged (followerOf o)) t) := by
  have hunmarked : r.reporting r.context.compartment.engagedReported = r := rfl
  cases d with
  | zero => exact ⟨_, hunmarked ▸ h⟩
  | succ d =>
    have howner : t.ownerOf (followerOf o) = o := by
      unfold State.ownerOf
      rw [h.atSecond.isBound, hb, leaderOf_followerOf he]; rfl
    have hmarked := h.onSecond (h.atSecond.updateCompartment fun c => { c with engagedReported := true })
    have hwaits : ((t.updateCompartment (followerOf o) fun c => { c with engagedReported := true }).members o).all
        (fun j => ((t.updateCompartment (followerOf o) fun c => { c with engagedReported := true }).compartment j).engagedReported)
          = false := by
      rw [hmarked.members ht hb, List.all_cons, hmarked.atFirst.compartment, hn, Bool.false_and]
    show ∃ b, BothBecome o (followerOf o) w p (r.reporting b) q s (onEngaged (reactTo d) (followerOf o) t)
    unfold onEngaged; dsimp only
    rw [howner]; split
    · rw [hwaits, if_neg Bool.false_ne_true]
      exact ⟨true, hmarked⟩
    · exact ⟨_, hunmarked ▸ h⟩

/-- R55, R128: the engage request to a follower that is not FAULTED. -/
theorem engageRequest (h : BothBecome o (followerOf o) w p r q s t) (d : Nat) (he : o.val % 2 = 0)
    (ht : p.context.order.twin = true) (hn : p.context.compartment.engagedReported = false)
    (hb : r.context.stage = .bound) (hf : r.positioner.position ≠ .faulted) : ∃ g b,
      BothBecome o (followerOf o) w p ((r.onPositioner g).reporting b) q s (engageRequest (reactTo d) (followerOf o) t) := by
  have hmoved (g : Positioner → Positioner) {u : State} (hu : BothBecome o (followerOf o) w p (r.onPositioner g) q s u) :
      ∃ g b, BothBecome o (followerOf o) w p ((r.onPositioner g).reporting b) q s u :=
    ⟨g, r.context.compartment.engagedReported, hu⟩
  have hposition : (t.positioner (followerOf o)).position = r.positioner.position :=
    congrArg (fun x => x.position) h.atSecond.positioner
  unfold Machine.engageRequest; split
  · have hlower := h.onSecond h.atSecond.beginLower
    unfold lowerSpout testLowered; split
    · have harrived := hlower.onSecond (hlower.atSecond.updatePosition (Positioner.arrive .engaged))
      exact ⟨fun x => Positioner.arrive .engaged { x with drive := .lower, travel := some r.travelTime, position := .lowering },
        harrived.reportEngaged d he ht hn hb⟩
    · exact hmoved _ hlower
  · exact hmoved _ (h.onSecond (h.atSecond.updatePositioner _))
  · exact hmoved id h
  · obtain ⟨b, hreported⟩ := h.reportEngaged d he ht hn hb
    exact ⟨id, b, hreported⟩
  · next e => exact absurd (hposition.symm.trans e) hf
  · exact hmoved _ (h.onSecond (h.atSecond.updatePositioner _))

/-- R55, R105: where the index condition holds, both spouts of a pair are sent the engage request; a leader at its upper switch
lowers. -/
theorem testIndex_met (h : BothBecome o (followerOf o) w p r q s t) (d : Nat) (he : o.val % 2 = 0)
    (ht : p.context.order.twin = true) (hs : p.context.stage = .waitIndex) (hn : p.context.compartment.engagedReported = false)
    (hb : r.context.stage = .bound) (hf : r.positioner.position ≠ .faulted) (hp : p.positioner.position = .released)
    (hr : p.field.spoutRaised.taken = true)
    (hi : indexCondition p.context.order.watch p.field.indexReady.taken = true) : ∃ g b,
      BothBecome o (followerOf o) w p.entersEngaging.beginLower ((r.engagedBehind.onPositioner g).reporting b) q s
        (testIndex (reactTo d) o t) := by
  have hdropped := h.onSecond h.atSecond.dropCapture
  have hphased := hdropped.onSecond (hdropped.atSecond.setPhase .engaging)
  have htimer := hphased.onFirst (hphased.atFirst.updateOrder fun x => { x with indexTimer := none })
  have hfree := htimer.onFirst htimer.atFirst.dropCapture
  have hengaging := hfree.onFirst (hfree.atFirst.setStage .engaging)
  have hlower := hengaging.onFirst hengaging.atFirst.beginLower
  have hasked : Machine.engageRequest (reactTo d) o (enterEngaging o (setPhase (followerOf o) .engaging (dropCapture (followerOf o) t)))
      = beginLower o (enterEngaging o (setPhase (followerOf o) .engaging (dropCapture (followerOf o) t))) := by
    have hposition := (congrArg (fun x => x.position) hengaging.atFirst.positioner).trans hp
    unfold Machine.engageRequest
    rw [show ((enterEngaging o (setPhase (followerOf o) .engaging (dropCapture (followerOf o) t))).positioner o).position
      = .released from hposition]
    exact hlower.atFirst.testLowered_raised (reactTo d) hr
  have hpending : t.claimPending o = false := by
    unfold State.claimPending
    rw [h.atSecond.isBound, hb, h.atFirst.isTwin, ht]; rfl
  have hmet : t.stage o = .waitIndex ∧ ¬ t.claimPending o ∧ indexCondition (t.order o).watch (t.present o .indexReady) := by
    refine ⟨h.atFirst.stage.trans hs, by rw [hpending]; exact Bool.false_ne_true, ?_⟩
    rw [h.atFirst.order, h.atFirst.present]; exact hi
  have hwill : (beginLower o (enterEngaging o (setPhase (followerOf o) .engaging (dropCapture (followerOf o) t)))).stage o = .engaging
      ∧ ((beginLower o (enterEngaging o (setPhase (followerOf o) .engaging (dropCapture (followerOf o) t)))).context
        (followerOf o)).phase = .engaging :=
    ⟨hlower.atFirst.stage, (congrArg (fun c => c.phase) hlower.atSecond.context :)⟩
  obtain ⟨g, b, hboth⟩ := hlower.engageRequest d he ht hn hb hf
  refine ⟨g, b, ?_⟩
  unfold testIndex
  rw [if_pos hmet]
  unfold beginEngaging
  rw [h.atFirst.isTwin, ht, if_pos rfl]; dsimp only
  rw [hasked]
  unfold engageFollower; dsimp only
  rw [if_pos hwill]
  exact hboth

end BothBecome

/-! ## The follower's own order ends (R109) -/

/-- The order of slot `m` that the spout ran by itself has ended, but for what it serves then. -/
structure State.OrderEnds (f : SpoutId) (m : SlotId) (s v : State) : Prop where
  slotState : v.slotStateByte m = 4
  stage : v.stage f = .idle
  claim : (v.context f).claim = (s.context f).claim
  queue : v.queue f = s.queue f
  faulted : v.isFaulted f = s.isFaulted f
  exchange : v.port.exchange = s.port.exchange
  others : SameOtherSpouts f s v

namespace State.OrderEnds

variable {f : SpoutId} {m n : SlotId} {q : Port} {s u v : State}

/-- R109: the end action of the order. -/
theorem orderClosed {w : Option SlotId} {p : Spout} {q : Port} (h : Becomes f w p q s u) (hm : u.memory.wf = true)
    (hc : p.context.order.count ≤ 12) (hclaim : p.context.claim = (s.context f).claim) (hqueue : p.queue = s.queue f)
    (hfaulted : (p.positioner.position == .faulted) = s.isFaulted f) (hx : q.exchange = s.port.exchange) :
    s.OrderEnds f m (orderClosed f m u) := by
  have hclosed := (Becomes.refl f (some m) u).orderClosed hm ((congrArg OrderState.count h.order).trans_le hc)
  exact {
    slotState := (slotClosed_orderClosed hm ((congrArg OrderState.count h.order).trans_le hc)).slotState
    stage := hclosed.stage
    claim := (congrArg (fun c => c.claim) hclosed.context).trans ((congrArg (fun c => c.claim) h.context).trans hclaim)
    queue := hclosed.queue.trans (h.queue.trans hqueue)
    faulted := hclosed.isFaulted.trans (h.isFaulted.trans hfaulted)
    exchange := (congrArg (fun q => q.exchange) hclosed.port).trans ((congrArg (fun q => q.exchange) h.port).trans hx)
    others := fun j hj => (hclosed.others j hj).trans (h.others j hj) }

end State.OrderEnds

/-- R92, R93: a running ZERO ends with Z unchanged, but for what its spout serves then. -/
theorem endZeroUnchanged_ends (k : Reaction) {f : SpoutId} {m : SlotId} {s : State} (hm : s.memory.wf = true)
    (hslot : (s.context f).slot = some m) (r : Result) :
    ∃ v, endZeroUnchanged k f r s = k (.idle f) v ∧ s.OrderEnds f m v := by
  have hdropped := (Becomes.refl f (some m) s).dropCapture
  have hfields := hdropped.writeSlot 0x10 (bytes := s16Bytes (s.calibration f).zero
    ++ s16Bytes ((dropCapture f s).calibration f).zero ++ u8Bytes (if ((dropCapture f s).calibration f).zeroLimit then 1 else 0))
    (by simp only [List.length_append, length_u8Bytes, length_s16Bytes]; omega)
  have hended := (hfields.markDone r).restContext
  have hcurrent : ((dropCapture f s).context f).slot = some m := (congrArg (fun c => c.slot) hdropped.context).trans hslot
  refine ⟨_, ?_, ?_, hended.stage, (congrArg (fun c => c.claim) hended.context :), hended.queue, hended.isFaulted,
    (congrArg (fun q => q.exchange) hended.port :), hended.others⟩
  · unfold endZeroUnchanged endZeroRun; dsimp only
    rw [hcurrent]; rfl
  · exact (sameSlot_restContext m f _).slotStateByte.trans (slotStateByte_answered (hfields.wf hm) ..)

section Stopped

variable {f : SpoutId} {m : SlotId} {s : State} (hm : s.memory.wf = true) (hslot : (s.context f).slot = some m)
include hm hslot

/-- R93, R113: a STOP in WAIT_INDEX or ZERO_RUN ends the order. -/
theorem stopRunning_ends (k : Reaction) (ht : s.isTwin f = false) (hc : (s.order f).count ≤ 12)
    (hs : s.stage f = .waitIndex ∨ s.stage f = .zeroRun) (hstop : (s.order f).stopTaken = false) :
    ∃ v, stopRunning k f s = k (.idle f) v ∧ s.OrderEnds f m v := by
  unfold stopRunning
  obtain hs | hs := hs
  · have hmarked := ((Becomes.refl f none s).markOrder .stopped).updateOrder fun x => { x with stopTaken := true }
    refine ⟨_, ?_, .orderClosed (m := m) hmarked (hmarked.wf hm) hc rfl rfl rfl rfl⟩
    rw [if_neg (by rw [hs]; decide)]
    unfold stopOrder
    rw [hstop, if_neg Bool.false_ne_true]; dsimp only
    rw [show _ = Stage.waitIndex from hmarked.stage.trans hs]
    exact endOrder_single k ((congrArg (fun c => c.slot) hmarked.context).trans hslot) (hmarked.isTwin.trans ht)
  · rw [if_pos hs]
    exact endZeroUnchanged_ends k hm hslot .stopped

/-- R106: the index timeout ends the order. -/
theorem indexTimeout_ends (ht : s.isTwin f = false) (hc : (s.order f).count ≤ 12) (hindex : (s.compartment f).index < 12) :
    ∃ v, indexTimeout f s = react (.idle f) v ∧ s.OrderEnds f m v := by
  have hcoded := (((Becomes.refl f (some m) s).writeEntryCode hindex .indexTimeout).writeProgress (s.order f).count
    (s.order f).total).markOrder .ended
  refine ⟨_, ?_, .orderClosed (m := m) hcoded (hcoded.wf hm) hc rfl rfl rfl rfl⟩
  unfold indexTimeout; dsimp only
  rw [hslot]
  exact endOrder_single react ((congrArg (fun c => c.slot) hcoded.context).trans hslot) (hcoded.isTwin.trans ht)

/-- R40, R109, R131: RELEASED is reported by a spout whose order has an end mark. -/
theorem onReleased_ends (k : Reaction) {u : State} {p : Spout} (h : Becomes f none p s.port s u)
    (hcontext : p.context = s.context f) (hposition : p.positioner.position ≠ .faulted) (hfaulted : s.isFaulted f = false)
    (hqueue : p.queue = s.queue f) (hcapture : p.calibration.capture = .none) (hi : s.single f) (hc : (s.order f).count ≤ 12)
    (hs : s.stage f = .releasing) (hmark : (s.order f).mark ≠ .none) (hreset : (s.order f).mark ≠ .reset) :
    ∃ v, onReleased k f u = k (.idle f) v ∧ s.OrderEnds f m v := by
  have hanswered := h.updateCompartment fun c => { c with releasedAnswered := true }
  have htwin : (u.updateCompartment f fun c => { c with releasedAnswered := true }).isTwin f = false :=
    hanswered.isTwin.trans ((congrArg (fun c => c.order.twin) hcontext).trans hi.1)
  have horder : (u.updateCompartment f fun c => { c with releasedAnswered := true }).order f = s.order f :=
    hanswered.order.trans (congrArg (fun c => c.order) hcontext)
  have hcurrent : ((u.updateCompartment f fun c => { c with releasedAnswered := true }).context f).slot = some m :=
    (congrArg (fun c => c.slot) hanswered.context).trans ((congrArg (fun c => c.slot) hcontext).trans hslot)
  have hstage : (u.updateCompartment f fun c => { c with releasedAnswered := true }).stage f = .releasing :=
    hanswered.stage.trans ((congrArg (fun c => c.stage) hcontext).trans hs)
  have hdone : (u.updateCompartment f fun c => { c with releasedAnswered := true }).releaseDone f = true := by
    unfold State.releaseDone
    rw [hanswered.compartment, hanswered.calibration]
    show (_ || (true && (p.calibration.capture == .none))) = true
    rw [hcapture]; exact Bool.or_true _
  have hstageu : u.stage f = .releasing := h.stage.trans ((congrArg (fun c => c.stage) hcontext).trans hs)
  have howner : u.ownerOf f = f := ownerOf_self (by rw [hstageu]; decide)
  refine ⟨_, ?_, .orderClosed (m := m) hanswered (hanswered.wf hm) ((congrArg (fun c => c.order.count) hcontext).trans_le hc)
    (congrArg (fun c => c.claim) hcontext) hqueue ((beq_eq_false_iff_ne.2 hposition).trans hfaulted.symm) rfl⟩
  unfold onReleased; dsimp only
  rw [howner, if_pos ⟨hstageu, .inl rfl⟩]
  unfold releaseCheck
  rw [members_single htwin, List.all_cons, hdone, if_pos ⟨hstage, rfl⟩]
  unfold leaveReleasing
  rw [hcurrent, horder]
  have hconclude : concludeOrder k f (u.updateCompartment f fun c => { c with releasedAnswered := true })
      = k (.idle f) (orderClosed f m (u.updateCompartment f fun c => { c with releasedAnswered := true })) := by
    unfold concludeOrder
    rw [horder, if_neg hreset]
    exact endOrder_single k hcurrent htwin
  cases hmk : (s.order f).mark with
  | none => exact absurd hmk hmark
  | _ => exact hconclude

end Stopped

end Sys2Proof.Machine

/-! The commands that end an order (R40, R87, R106, R112), and the statement on the claim of a TWIN (R51 to R55). -/

namespace Sys2Proof.Machine

/-! ## A STOP of a running order (R112) -/

theorem mem_allSpouts (i : SpoutId) : i ∈ allSpouts := by revert i; decide

/-- R112: the context that runs the order of a slot. -/
theorem find_runs {i : SpoutId} {m : SlotId} {s : State} (h : ∀ j, s.runs j m = true ↔ j = i) :
    (allSpouts.find? fun j => s.runs j m) = some i := by
  cases hfind : allSpouts.find? fun j => s.runs j m with
  | none => exact absurd ((h i).2 rfl) (List.find?_eq_none.1 hfind i (mem_allSpouts i))
  | some j => rw [(h j).1 (List.find?_some (p := fun j => s.runs j m) hfind)]

/-- R112, R158: a STOP that names the slot of a running order. -/
theorem exec_stop_running {n m : SlotId} {i : SpoutId} {s : State} (hx : s.port.exchange = .running)
    (hn : s.slotStateByte n = 0) (htarget : s.slotU8 n 0x10 = m.val) (hm : s.slotStateByte m = 3)
    (hruns : ∀ j, s.runs j m = true ↔ j = i) :
    m ≠ n ∧ exec (.stop n) s = .next (markDone n .stoppedRunning (stopRunning react i (s.posted n 10))) := by
  have hne : m ≠ n := by rintro rfl; rw [hn] at hm; cases hm
  have hnamed : (s.posted n 10).slotU8 n 0x10 = m.val := (u8_posted s n n 10 0x10 (.inr (by omega)) (by omega)).trans htarget
  have hstate : (s.posted n 10).slotStateByte m = 3 := (u8_posted s n m 10 0 (.inl hne.symm) (by omega)).trans hm
  have hquery : (Fin.ofNat 32 m.val : SlotId) = m := Fin.ext (Nat.mod_eq_of_lt m.isLt)
  have hnone : (s.posted n 10).stopRefusal n = none := by
    have hok : (decide (m.val < 32) && m.val != n.val) = true := by
      rw [decide_eq_true m.isLt, Bool.true_and, bne_iff_ne]; exact fun e => hne (Fin.ext e)
    unfold State.stopRefusal require
    rw [hnamed, hok, if_pos rfl]
  have hexec : exec (.stop n) s = .next (postSlot n 10 (takeStop react n) s) := rfl
  refine ⟨hne, ?_⟩
  rw [hexec, postSlot_taken ⟨hx, hn⟩, takeStop, hnone, takeOrder_accepted]
  unfold applyStop; dsimp only
  rw [hnamed, hquery]
  unfold State.slotIs
  rw [hstate, if_neg (by decide), if_pos (by rfl), find_runs (s := s.posted n 10) hruns]

/-! ## The commands of `endsOrder` -/

/-- R40, R131: the upper switch is reached by a spout whose raise no engage order waits for. -/
theorem exec_raised {f : SpoutId} {s : State} (hd : s.changeDue f .spoutRaised true)
    (hp : (s.positioner f).position = .raising) (hw : (s.positioner f).engageWaiting = false) : ∃ u,
      exec (.debounceExpiry f .spoutRaised) s = .next (react (.released f) u)
        ∧ Becomes f none (((s.spout f).taking .spoutRaised true).onPositioner fun x =>
          { x.arrive .released with engageWaiting := false }) s.port s u := by
  have htaken := (Becomes.refl f none s).taking .spoutRaised true
  refine ⟨_, ?_, htaken.updatePosition fun x => { x.arrive .released with engageWaiting := false }⟩
  rw [exec_debounceExpiry hd]
  unfold takeChange deliverChange; dsimp only
  unfold spoutRaisedChange
  rw [show _ = Position.raising from (congrArg (fun x => x.position) htaken.positioner).trans hp]
  unfold testRaised; dsimp only
  rw [if_pos ⟨(congrArg (fun x => x.position) htaken.positioner).trans hp, htaken.present .spoutRaised⟩,
    show _ = false from (congrArg (fun x => x.engageWaiting) htaken.positioner).trans hw, if_neg Bool.false_ne_true]

/-- Nothing differs but the answer in a slot other than `m`, if anything. -/
structure AnsweredElsewhere (m : SlotId) (s t : State) : Prop where
  spout : ∀ j, t.spout j = s.spout j
  slot : SameSlot m s t

/-- R40, R87, R106, R113: each of the commands ends the order that the spout runs by itself, and the spout serves what waits for it. -/
theorem exec_endsOrder {c : Instr} {f : SpoutId} {m : SlotId} {s : State} (hm : s.memory.wf = true) (h : s.endsOrder c f m) :
    ∃ (d : Nat) (v : State) (a : State → State), exec c s = .next (a (reactTo (d + 1) (.idle f) v)) ∧ s.OrderEnds f m v ∧ ∀ t, AnsweredElsewhere m t (a t) := by
  obtain ⟨hslot, hi, hx, hstate, hc, hindex, hreset, hcase⟩ := h
  obtain ⟨rfl, hs, ht⟩ | ⟨rfl, hs, ht⟩ | ⟨hall, hstops, hs, hstop⟩ | ⟨rfl, hd, hp, hw, hs, hcapture, hmark⟩ := hcase
  · obtain ⟨v, hended, hv⟩ := indexTimeout_ends hm hslot hi.1 hc hindex
    exact ⟨63, v, id, congrArg Host.Outcome.next ((if_pos ⟨ht, hs⟩).trans hended), hv, fun t => ⟨fun _ => rfl, .refl m t⟩⟩
  · obtain ⟨v, hended, hv⟩ := endZeroUnchanged_ends react hm hslot .zeroUnstable
    exact ⟨63, v, id, congrArg Host.Outcome.next ((if_pos ht).trans ((if_pos hs).trans hended)), hv,
      fun t => ⟨fun _ => rfl, .refl m t⟩⟩
  · obtain ⟨-, -, -, -, ⟨n, rfl, hn, htarget, hruns⟩ | ⟨he, -⟩⟩ := hstops
    · obtain ⟨hne, hexec⟩ := exec_stop_running hx hn htarget hstate hruns
      obtain ⟨v, hended, hv⟩ := stopRunning_ends (s := s.posted n 10) (Memory.wf_writeBytes hm _ _) hslot react hi.1 hc hs hstop
      refine ⟨63, v, markDone n .stoppedRunning, hexec.trans ?_, { hv with }, fun t =>
        ⟨(sameButAnswers_markDone n .stoppedRunning t).spout, sameSlot_answered hne t _ _ _⟩⟩
      rw [hended]; rfl
    · exact absurd he hall
  · obtain ⟨u, hexec, hu⟩ := exec_raised hd hp hw
    have hfaulted : s.isFaulted f = false := beq_eq_false_iff_ne.2 (by rw [hp]; decide)
    obtain ⟨v, hended, hv⟩ := onReleased_ends hm hslot (reactTo 63) hu rfl (fun e => by cases e) hfaulted rfl hcapture hi hc hs
      hmark hreset
    refine ⟨62, v, id, hexec.trans ?_, hv, fun t => ⟨fun _ => rfl, .refl m t⟩⟩
    rw [react_released, hended]; rfl

/-! ## The statement -/

/-- R52, R54: a TWIN accepted for a spout at rest binds a follower at rest. -/
theorem exec_twin_binds {n : SlotId} {i : SpoutId} {s : State} (hm : s.memory.wf = true) (ht : s.takesPosting n)
    (hi : s.slotSpoutByte n = i.val) (he : i.val % 2 = 0) (hc : ∀ c ∈ s.loadChecks n, c.2 = true) (hp : s.hasProfile i = true)
    (hpf : s.hasProfile (followerOf i) = true) (hset : s.products[s.loadProduct n].set = true) (hf : s.isFaulted i = false)
    (hff : s.isFaulted (followerOf i) = false) (hr : s.rests i) (hidle : s.stage (followerOf i) = .idle)
    (hskip : s.slotU8 n 0x44 = 0) (hready : s.present i .indexReady = false) :
    ∃ t, exec (.twin n) s = .next t ∧ t.slotStateByte n = 3 ∧ t.stage i = .waitIndex ∧ (t.context i).slot = some n
      ∧ (t.compartment i).effectiveTarget = min (s.slotU32 n 0x40) (s.loadLimit n)
      ∧ (t.order i).indexTimer = some ((s.profile i).indexTimeout * 1000)
      ∧ t.stage (followerOf i) = .bound ∧ (t.context (followerOf i)).phase = .waiting
      ∧ (t.context (followerOf i)).slot = some n ∧ t.queue (followerOf i) = s.queue (followerOf i)
      ∧ (∀ j, j ≠ i → j ≠ followerOf i → t.spout j = s.spout j) ∧ t.port = s.port ∧ SameTables s t := by
  obtain ⟨u, hexec, hu, hhead⟩ := exec_twin_atRest hm ht hi hc he hp hpf hset hf hff hr
  obtain ⟨hcount, -, hlimit, htarget⟩ := head_of_loadChecks hc
  have hne := followerOf_ne he
  have hfollower := hu.others _ hne
  obtain ⟨hw, hstate⟩ := becomeRunning_granted 62 (hu.wf hm) he (hcount.trans_eq hhead.loadCount.symm) (hhead.skip.trans hskip)
    (htarget.trans_eq hhead.target.symm) (hlimit.trans_eq hhead.loadLimit.symm)
    ((congrArg (fun p => p.positioner.position == .faulted) hfollower).trans hff)
    ((congrArg (fun q => q.exchange) hu.port).trans ht.1) ((congrArg (fun p => p.context.stage) hfollower).trans hidle)
    ((hu.present .indexReady).trans hready)
  rw [hu.spout, hfollower, hu.port, hhead.target, hhead.loadLimit] at hw
  exact ⟨_, hexec, hstate, hw.atFirst.stage, (congrArg (fun c => c.slot) hw.atFirst.context :),
    (congrArg (fun c => c.effectiveTarget) hw.atFirst.compartment :), (congrArg (fun o => o.indexTimer) hw.atFirst.order :),
    hw.atSecond.stage, (congrArg (fun c => c.phase) hw.atSecond.context :), (congrArg (fun c => c.slot) hw.atSecond.context :),
    hw.atSecond.queue, fun j hj hjf => (hw.others j hj hjf).trans (hu.others j hj), hw.port, hu.tables.trans hw.tables⟩

/-- R51, R53: a follower at work keeps its own order, and the claim waits on it. -/
theorem exec_twin_claims {n : SlotId} {i : SpoutId} {s : State} (hm : s.memory.wf = true) (ht : s.takesPosting n)
    (hi : s.slotSpoutByte n = i.val) (he : i.val % 2 = 0) (hc : ∀ c ∈ s.loadChecks n, c.2 = true) (hp : s.hasProfile i = true)
    (hpf : s.hasProfile (followerOf i) = true) (hset : s.products[s.loadProduct n].set = true) (hf : s.isFaulted i = false)
    (hff : s.isFaulted (followerOf i) = false) (hr : s.rests i) (hwork : s.stage (followerOf i) ≠ .idle)
    (hb : s.isBound (followerOf i) = false) (hskip : s.slotU8 n 0x44 = 0) :
    let f := followerOf i
    ∃ t, exec (.twin n) s = .next t ∧ t.slotStateByte n = 3 ∧ t.stage i = .waitIndex ∧ (t.context i).slot = some n
      ∧ t.claimPending i = true ∧ (t.order i).indexTimer = none
      ∧ t.compartment i = { index := 0, effectiveTarget := min (s.slotU32 n 0x40) (s.loadLimit n) }
      ∧ t.spout f = { s.spout f with context := { s.context f with claim := some { leader := i, slot := n } } }
      ∧ t.gate i = s.gate i ∧ t.channel i = s.channel i ∧ t.calibration i = s.calibration i
      ∧ t.positioner i = s.positioner i ∧ (∀ j, j ≠ i → j ≠ f → t.spout j = s.spout j) ∧ t.port = s.port
      ∧ SameTables s t := by
  intro f
  obtain ⟨u, hexec, hu, hhead⟩ := exec_twin_atRest hm ht hi hc he hp hpf hset hf hff hr
  obtain ⟨hcount, -, hlimit, htarget⟩ := head_of_loadChecks hc
  obtain ⟨v, hrun, hv, hstate⟩ := becomeRunning_twin (reactTo 63) (hu.wf hm) he (hcount.trans_eq hhead.loadCount.symm)
    (hhead.skip.trans hskip) (htarget.trans_eq hhead.target.symm) (hlimit.trans_eq hhead.loadLimit.symm)
    ((hu.same_at (fun x => x.positioner.position == .faulted) rfl (followerOf i) :).trans hff)
  rw [hu.spout, hu.others _ (followerOf_ne he), hu.port, hhead.target, hhead.loadLimit] at hv
  have hworkv : v.stage f ≠ .idle := fun e => hwork (hv.atSecond.stage.symm.trans e)
  have hpending : v.claimPending i = true := by
    have hbound : v.isBound f = false := hv.atSecond.isBound.trans hb
    unfold State.claimPending
    rw [hv.atFirst.isTwin, hbound]; rfl
  exact ⟨v, hexec.trans (congrArg Host.Outcome.next (hrun.trans (reactTo_idle_of_stage_ne 63 hworkv))), hstate, hv.atFirst.stage,
    (congrArg (fun c => c.slot) hv.atFirst.context :), hpending, (congrArg (fun o => o.indexTimer) hv.atFirst.order :),
    hv.atFirst.compartment, hv.second, hv.atFirst.gate, hv.atFirst.channel, hv.atFirst.calibration, hv.atFirst.positioner,
    fun j hj hjf => (hv.others j hj hjf).trans (hu.others j hj), hv.port, hu.tables.trans hv.tables⟩

/-- R52: the follower whose own order ends is bound before it serves its queue. -/
theorem exec_endsOrder_binds {c : Instr} {o : SpoutId} {n m : SlotId} {s : State} (hm : s.memory.wf = true) (he : o.val % 2 = 0)
    (hends : s.endsOrder c (followerOf o) m) (hclaim : (s.context (followerOf o)).claim = some { leader := o, slot := n })
    (htwin : s.isTwin o = true) (hs : s.stage o = .waitIndex) :
    let f := followerOf o
    let holds := indexCondition (s.order o).watch (s.present o .indexReady)
    (holds = true → (s.positioner o).position = .released ∧ s.present o .spoutRaised = true ∧ s.isFaulted f = false
      ∧ (s.compartment o).engagedReported = false) →
    ∃ t, exec c s = .next t ∧ t.slotStateByte m = 4 ∧ t.stage f = .bound ∧ (t.context f).slot = some n
      ∧ (t.context f).claim = some { leader := o, slot := n } ∧ t.queue f = s.queue f
      ∧ (t.context f).compartment.index = (s.compartment o).index
      ∧ (holds = false →
          t.stage o = .waitIndex ∧ (t.context f).phase = .waiting
            ∧ t.order o = { s.order o with indexTimer := some ((s.profile o).indexTimeout * 1000) })
      ∧ (holds = true →
          t.stage o = .engaging ∧ (t.context f).phase = .engaging ∧ t.isLowering o ∧ (t.order o).indexTimer = none
            ∧ (t.calibration o).capture = .none ∧ (t.calibration f).capture = .none)
      ∧ t.gate o = s.gate o ∧ (∀ j, j ≠ o → j ≠ f → t.spout j = s.spout j) := by
  intro f holds hholds
  have hne : f ≠ o := followerOf_ne he
  obtain ⟨d, v, a, hexec, hv, ha⟩ := exec_endsOrder hm hends
  have hleader : v.spout o = s.spout o := hv.others o hne.symm
  have hrunning := hends.2.2.1
  obtain ⟨w, hgrant, hw⟩ := (BothBecome.refl hne none v).grantClaim (reactTo d) n
  rw [hleader] at hw
  have hserved : reactTo (d + 1) (.idle f) v = testIndex (reactTo d) o w := by
    rw [reactTo_idle_claim d (hv.exchange.trans hrunning) hv.stage (hv.claim.trans hclaim), hgrant]
  have hother (t : State) (ht : ∀ j, j ≠ o → j ≠ f → t.spout j = v.spout j) (j : SpoutId) (hj : j ≠ o) (hjf : j ≠ f) :
      (a t).spout j = s.spout j := ((ha t).spout j).trans ((ht j hj hjf).trans (hv.others j hjf))
  rw [hserved] at hexec
  cases hmet : holds with
  | false =>
    have hwait : testIndex (reactTo d) o w = w := testIndex_unmet _ (by
      rw [hw.atFirst.present, hw.atFirst.order]; exact hmet)
    rw [hwait] at hexec
    have hfirst := ((ha w).spout o).trans hw.first
    have hsecond := ((ha w).spout f).trans hw.second
    exact ⟨a w, hexec, ((ha w).slot.slotStateByte.trans (hw.slots m (by simp)).slotStateByte).trans hv.slotState,
      (congrArg (fun p => p.context.stage) hsecond :), (congrArg (fun p => p.context.slot) hsecond :),
      (congrArg (fun p => p.context.claim) hsecond).trans (hv.claim.trans hclaim),
      (congrArg (fun p => p.queue) hsecond).trans hv.queue, (congrArg (fun p => p.context.compartment.index) hsecond :),
      fun _ => ⟨(congrArg (fun p => p.context.stage) hfirst).trans hs, (congrArg (fun p => p.context.phase) hsecond :),
        (congrArg (fun p => p.context.order) hfirst :)⟩, (fun e => by cases e),
      (congrArg (fun p => p.context.gate) hfirst :), hother w hw.others⟩
  | true =>
    obtain ⟨hposition, hraised, hfaulted, hreported⟩ := hholds hmet
    have hsound : (v.spout f).positioner.position ≠ .faulted := beq_eq_false_iff_ne.1 (hv.faulted.trans hfaulted)
    obtain ⟨g, b, hx⟩ := hw.testIndex_met d he htwin hs hreported rfl hsound hposition hraised hmet
    have hfirst := ((ha _).spout o).trans hx.first
    have hsecond := ((ha _).spout f).trans hx.second
    have hlowering : (a (testIndex (reactTo d) o w)).isLowering o := by
      have htravel : (a (testIndex (reactTo d) o w)).travelTime o = (s.spout o).travelTime := by
        unfold State.travelTime State.hasProfile State.profile State.calibration
        rw [hfirst]; rfl
      unfold State.isLowering
      rw [htravel]
      exact ⟨(congrArg (fun p => p.positioner.position) hfirst :), (congrArg (fun p => p.positioner.drive) hfirst :),
        (congrArg (fun p => p.positioner.travel) hfirst :)⟩
    have hdropped (x : Calibration) : x.dropCapture.capture = .none := rfl
    exact ⟨_, hexec, ((ha _).slot.slotStateByte.trans (hx.slots m (by simp)).slotStateByte).trans hv.slotState,
      (congrArg (fun p => p.context.stage) hsecond :), (congrArg (fun p => p.context.slot) hsecond :),
      (congrArg (fun p => p.context.claim) hsecond).trans (hv.claim.trans hclaim),
      (congrArg (fun p => p.queue) hsecond).trans hv.queue, (congrArg (fun p => p.context.compartment.index) hsecond :),
      (fun e => by cases e), fun _ => ⟨(congrArg (fun p => p.context.stage) hfirst :),
        (congrArg (fun p => p.context.phase) hsecond :), hlowering, (congrArg (fun p => p.context.order.indexTimer) hfirst :),
        (congrArg (fun p => p.calibration.capture) hfirst).trans (hdropped _),
        (congrArg (fun p => p.calibration.capture) hsecond).trans (hdropped _)⟩,
      (congrArg (fun p => p.context.gate) hfirst :), hother _ hx.others⟩

/-- Settles O17: a TWIN's claim is granted on a follower at rest, waits for one at work, and wins over its queue. -/
theorem twinBindsAFollowerAtRest : Obligations.TwinBindsAFollowerAtRest := by
  refine ⟨?_, ?_, ?_⟩
  · intro n i s hm ht hi he hc hp hpf hset hf hff hr hidle _ hskip hready
    exact exec_twin_binds hm ht hi he hc hp hpf hset hf hff hr hidle hskip hready
  · intro n i s hm ht hi he hc hp hpf hset hf hff hr hwork hb hskip
    exact exec_twin_claims hm ht hi he hc hp hpf hset hf hff hr hwork hb hskip
  · intro c o n m s hm he hends hclaim htwin _ hs _
    exact exec_endsOrder_binds hm he hends hclaim htwin hs

end Sys2Proof.Machine

/-! A soft reset seen from a pair (R64, R175): the resets of the other pairs leave it alone, and what follows keeps its work. -/

namespace Sys2Proof.Machine

/-! ## The other pairs -/

/-- The two spouts of pair `o` and the slots of `N` are as they were. -/
structure State.SparesPair (o : SpoutId) (N : SlotId → Prop) (s t : State) : Prop where
  leader : t.spout o = s.spout o
  follower : t.spout (followerOf o) = s.spout (followerOf o)
  slots : ∀ n, N n → SameSlot n s t
  wf : s.memory.wf = true → t.memory.wf = true

namespace State.SparesPair

variable {o : SpoutId} {N : SlotId → Prop} {s t u : State}

theorem refl (o : SpoutId) (N : SlotId → Prop) (s : State) : s.SparesPair o N s := ⟨rfl, rfl, fun n _ => .refl n s, id⟩

theorem trans (h : s.SparesPair o N t) (h' : t.SparesPair o N u) : s.SparesPair o N u :=
  ⟨h'.leader.trans h.leader, h'.follower.trans h.follower, fun n hn => (h.slots n hn).trans (h'.slots n hn), h'.wf ∘ h.wf⟩

end State.SparesPair

section Others

variable {o : SpoutId} (heven : o.val % 2 = 0) {N : SlotId → Prop}
include heven

/-- R64: the reset of another pair. -/
theorem sparesPair_softResetPair {a : SpoutId} (ha : a.val % 2 = 0) (hne : a ≠ o) {s : State} (hl : s.WritesApart a N)
    (hf : s.WritesApart (followerOf a) N) : s.SparesPair o N (softResetPair a s) := by
  obtain ⟨hspout, hslots, hwf⟩ := softResetPair_outside ha hl hf
  obtain ⟨hoa, hof⟩ := ne_of_leaderOf_ne (m := o) ha (by rw [leaderOf_of_even heven]; exact hne.symm)
  obtain ⟨hfa, hff⟩ := ne_of_leaderOf_ne (m := followerOf o) ha (by rw [leaderOf_followerOf heven]; exact hne.symm)
  exact ⟨hspout o hoa hof, hspout _ hfa hff, hslots, hwf⟩

theorem sparesPair_softResetPairs {l : List SpoutId} (hl : ∀ a ∈ l, a.val % 2 = 0) (hnodup : l.Nodup) (ho : o ∉ l) {s : State}
    (hN : ∀ c, leaderOf c ∈ l → s.WritesApart c N) : s.SparesPair o N (softResetPairs l s) := by
  induction l generalizing s with
  | nil => exact .refl o N s
  | cons a l ih =>
    have ha := hl a List.mem_cons_self
    obtain ⟨hnot, hnodup'⟩ := List.nodup_cons.1 hnodup
    rw [List.mem_cons, not_or] at ho
    have hfirst := sparesPair_softResetPair heven ha (Ne.symm ho.1) (hN a (by rw [leaderOf_of_even ha]; exact List.mem_cons_self))
      (hN _ (by rw [leaderOf_followerOf ha]; exact List.mem_cons_self))
    exact hfirst.trans (ih (fun b hb => hl b (List.mem_cons_of_mem _ hb)) hnodup' ho.2 fun c hc =>
      writesApart_softResetPair ha (fun e => hnot (e ▸ hc)) (hN c (List.mem_cons_of_mem _ hc)))

/-- R175 step 4: the pair meets its own reset, between resets that leave it alone. -/
theorem resetPair_softResetPairs {l : List SpoutId} (hl : ∀ a ∈ l, a.val % 2 = 0) (hnodup : l.Nodup) (ho : o ∈ l) {s : State}
    (hN : ∀ c, leaderOf c ∈ l → leaderOf c ≠ o → s.WritesApart c N) :
    ∃ u, s.SparesPair o N u ∧ (softResetPair o u).SparesPair o N (softResetPairs l s) := by
  induction l generalizing s with
  | nil => cases ho
  | cons a l ih =>
    have ha := hl a List.mem_cons_self
    obtain ⟨hnot, hnodup'⟩ := List.nodup_cons.1 hnodup
    have hlater (c : SpoutId) (hcl : leaderOf c ∈ l) (hc : leaderOf c ≠ o) : (softResetPair a s).WritesApart c N :=
      writesApart_softResetPair ha (fun e => hnot (e ▸ hcl)) (hN c (List.mem_cons_of_mem _ hcl) hc)
    by_cases e : a = o
    · subst e
      exact ⟨s, .refl a N s, sparesPair_softResetPairs heven (fun b hb => hl b (List.mem_cons_of_mem _ hb)) hnodup' hnot
        fun c hc => hlater c hc fun e => hnot (e ▸ hc)⟩
    · have hleader : leaderOf a = a := leaderOf_of_even ha
      have hfollower : leaderOf (followerOf a) = a := leaderOf_followerOf ha
      have hfirst := sparesPair_softResetPair (N := N) (s := s) heven ha e
        (hN a (by rw [hleader]; exact List.mem_cons_self) (by rw [hleader]; exact e))
        (hN _ (by rw [hfollower]; exact List.mem_cons_self) (by rw [hfollower]; exact e))
      obtain ⟨u, hbefore, hafter⟩ := ih (fun b hb => hl b (List.mem_cons_of_mem _ hb)) hnodup'
        ((List.mem_cons.1 ho).resolve_left (Ne.symm e)) hlater
      exact ⟨u, hfirst.trans hbefore, hafter⟩

end Others

/-! ## The queues in what follows (R138, R165) -/

/-- R138, R165: a positioner's soft reset serves no queue, while no context is in RELEASING. -/
theorem queue_softResetPositioner {s t : State} (hk : s.KeepsWork t) (hs : ∀ j, s.stage j ≠ .releasing) (i j : SpoutId) :
    (softResetPositioner react i t).queue j = t.queue j := by
  have hcleared := (Becomes.refl i none t).updatePositioner fun p => { p with engageWaiting := false, requests := [] }
  have hqueue {p : Spout} {u : State} (h : Becomes i none p t.port t u) (hp : p.queue = t.queue i) : u.queue j = t.queue j :=
    h.same_at (fun p => p.queue) hp j
  have hraise : (raiseSpout react i (t.updatePositioner i fun p => { p with engageWaiting := false, requests := [] })).queue j
      = t.queue j := by
    have hbegun := hcleared.beginRaise
    have hwaiting : ((beginRaise i (t.updatePositioner i fun p => { p with engageWaiting := false, requests := [] })).positioner
        i).engageWaiting = false := congrArg (fun p => p.engageWaiting) hbegun.positioner
    unfold raiseSpout testRaised; dsimp only; split
    · have harrived := hbegun.updatePosition fun p => { p.arrive .released with engageWaiting := false }
      have hstage (k : SpoutId) : (updatePosition i (fun p => { p.arrive .released with engageWaiting := false })
          (beginRaise i (t.updatePositioner i fun p => { p with engageWaiting := false, requests := [] }))).stage k ≠ .releasing := by
        intro e
        exact hs k (((hk.stage k).symm.trans (harrived.same_at (fun p => p.context.stage) rfl k :).symm).trans e)
      rw [hwaiting, if_neg Bool.false_ne_true, react_released, onReleased_of_stage_ne _ (hstage _)]
      exact hqueue harrived rfl
    · exact hqueue hbegun rfl
  unfold softResetPositioner; dsimp only
  split
  · exact hraise
  · exact hraise
  · exact hqueue hcleared rfl

theorem queue_changePreact (e : Fin 128) (v : PreactEntry) (s : State) (j : SpoutId) :
    (changePreact e v s).queue j = s.queue j := by
  unfold changePreact; split
  · rfl
  · exact congrArg Spout.queue ((sameButLearning_writePreact e v s).spout j)

/-- R175: what follows the resets of the pairs serves no queue. -/
theorem queue_softResetBlocks (s : State) (hs : ∀ j, (softResetPairs allLeaders s).stage j ≠ .releasing) (j : SpoutId) :
    (softResetBlocks s).queue j = (softResetPairs allLeaders s).queue j := by
  obtain ⟨-, hpositioners⟩ := forSpouts_kept (f := softResetPositioner react)
    (P := fun t => (softResetPairs allLeaders s).KeepsWork t ∧ t.queue j = (softResetPairs allLeaders s).queue j)
    (fun i t ht => ⟨ht.1.softResetPositioner hs i, (queue_softResetPositioner ht.1 hs i j).trans ht.2⟩) ⟨.refl _, rfl⟩
  have hupdate {t : State} (i : SpoutId) {f : Spout → Spout} (hf : ∀ p, (f p).queue = p.queue) :
      (t.updateSpout i f).queue j = t.queue j := ((Becomes.refl i none t).update f).same_at (fun p => p.queue) (hf _) j
  have hcalibrations := forSpouts_same (fun t => t.queue j) (fun i t => t.updateCalibration i Calibration.softReset)
    fun i t => hupdate i fun _ => rfl
  have hpreact (t : State) : (softResetPreact t).queue j = t.queue j := by
    exact forEntries_kept (P := fun u => u.queue j = t.queue j) (fun e u hu => (queue_changePreact ..).trans hu) rfl
  exact (forSpouts_same (fun t => t.queue j) dropAerate (fun i t => hupdate i fun _ => rfl) _).trans
    ((hpreact _).trans ((hcalibrations _).trans hpositioners))

/-! ## The soft reset of a pair -/

/-- The work of spout `i` is that of `p`. -/
structure State.ShowsAt (i : SpoutId) (p : Spout) (t : State) : Prop where
  context : t.context i = p.context
  channel : t.channel i = p.channel
  profile : t.profile i = p.calibration.profile
  hasProfile : t.hasProfile i = p.calibration.profileValid
  queue : t.queue i = p.queue

theorem State.KeepsWork.showsAt {i : SpoutId} {p : Spout} {v t : State} (h : v.KeepsWork t) (hq : ∀ j, t.queue j = v.queue j)
    (hv : v.spout i = p) : t.ShowsAt i p := by
  subst hv
  exact ⟨h.context i, h.channel i, h.profile i, h.hasProfile i, hq i⟩

/-- R64, R175: a soft reset shows the two spouts of a pair, and the slots that no context of another pair writes, as the pair's own
reset leaves them. -/
theorem exec_softReset_pair {o : SpoutId} (heven : o.val % 2 = 0) {N : SlotId → Prop} {s : State} (hx : s.port.exchange = .running)
    (hN : ∀ c, leaderOf c ≠ o → s.WritesApart c N) :
    ∃ t u, exec .softReset s = .next t ∧ s.SparesPair o N u
      ∧ t.ShowsAt o ((softResetPair o u).spout o) ∧ t.ShowsAt (followerOf o) ((softResetPair o u).spout (followerOf o))
      ∧ ∀ n, N n → SameSlot n (softResetPair o u) t := by
  let b := (setExchange .resetting s).updatePort fun p => { p with doneCount := 0 }
  have hexec : exec .softReset s = .next (softResetBlocks b) := congrArg Host.Outcome.next (if_pos hx)
  have hslots (n : SlotId) : SameSlot n s b := sameSlot_writeMemory (s.updatePort fun p => { p with exchange := .resetting })
    (.inl (by rw [length_u16Bytes, Config.exchangeStateAddress, slotBase_eq]; omega))
  have hbegun : s.SparesPair o N b := ⟨rfl, rfl, fun n _ => hslots n, fun hw => Memory.wf_writeBytes hw _ _⟩
  have hreleasing (j : SpoutId) : (softResetPairs allLeaders b).stage j ≠ .releasing :=
    stage_softResetPairs allLeaders_even (.inl (leaderOf_mem_allLeaders j))
  have hmem : o ∈ allLeaders := leaderOf_of_even heven ▸ leaderOf_mem_allLeaders o
  obtain ⟨u, hbefore, hafter⟩ := resetPair_softResetPairs heven allLeaders_even (by decide) hmem (s := b) fun c _ hc =>
    (hN c hc).of_unclaimed rfl hbegun.wf
  have hkept := keepsWork_softResetBlocks b hreleasing
  have hqueues := queue_softResetBlocks b hreleasing
  exact ⟨_, u, hexec, hbegun.trans hbefore, hkept.showsAt hqueues hafter.leader, hkept.showsAt hqueues hafter.follower,
    fun n hn => (hafter.slots n hn).trans (hkept.slots n)⟩

/-- R54, R100: no context of another pair writes in the slot that a context runs. -/
theorem writesApart_of_runs {o : SpoutId} {n : SlotId} {s : State} (h : s.WorkLawful) (hx : s.port.exchange = .running)
    (hb : s.isBound o = false) (hslot : (s.context o).slot = some n) {c : SpoutId} (hc : c ≠ o)
    (hpair : s.isBound c = true → leaderOf c ≠ o) : s.WritesApart c (· = n) := by
  intro m hm
  subst hm
  have hruns {j : SpoutId} (hj : (s.context j).slot = some m) (hb' : s.isBound j = false) : o = j :=
    h.slots.alone o j m (by rw [State.runs, hslot, hb]; simp) (by rw [State.runs, hj, hb']; simp)
  refine ⟨h.memory, fun hcur => ?_, h.contexts.index c, (h.contexts.count c).1⟩
  cases hbc : s.isBound c with
  | false => exact hc (hruns hcur hbc).symm
  | true =>
    obtain ⟨-, hclaim⟩ := h.contexts.bound c hbc
    rw [hcur] at hclaim
    obtain ⟨x, hx', rfl⟩ := Option.map_eq_some_iff.1 hclaim.symm
    obtain ⟨-, -, ⟨-, hleader⟩ | ⟨-, -, hreset⟩⟩ := h.contexts.claimed c x hx'
    · have hfree : s.isBound (leaderOf c) = false := by
        refine Bool.eq_false_iff.2 fun hbound => ?_
        obtain ⟨-, hslot'⟩ := h.contexts.bound _ hbound
        rw [hleader] at hslot'
        obtain ⟨y, hy, -⟩ := Option.map_eq_some_iff.1 hslot'.symm
        have hodd := (h.contexts.claimed _ y hy).1
        have heven := leaderOf_even c
        omega
      exact hpair hbc (hruns hleader hfree).symm
    · rw [hx] at hreset; cases hreset

end Sys2Proof.Machine

/-! The soft reset of a pair by its stage (R49, R64): the order that ends, the cut, and the compartment that waits or ends. -/

namespace Sys2Proof.Machine

/-! ## The two spouts -/

namespace Spout

/-- R64: a follower that leaves BOUND with its channel frozen. -/
def freed (r : Spout) : Spout := (r.frozen.unclaimed).resting

/-- R64: a BOUND follower on its leader's reset; one whose close runs stays. -/
def resetBehind (r : Spout) : Spout := if r.context.phase = .closing then r else r.freed

/-- R33, R59: a BOUND follower on its leader's cut. -/
def cutBehind (r : Spout) : Spout :=
  if r.context.gate.isOpen then r.cutGate.onContext fun c => { c with phase := .closing } else r

def resetMarked : Spout → Spout := Spout.onOrder fun o => { o with mark := .reset }

/-- R49: the cause and the end mark of a compartment that a soft reset ends. -/
def resetCaused (p : Spout) : Spout := p.resetMarked.onCompartment (Compartment.setCause (some .reset))

/-- R64: a leader that waits in SETTLING, counting nothing. -/
def waits (p : Spout) : Spout := (p.frozen.onCompartment fun c => { c with noSettle := true }).onStage .settling

theorem cutBehind_open {r : Spout} (h : r.context.gate.isOpen = true) : r.cutBehind.context = { r.context with
    gate := r.context.gate.cut r.closeTime, phase := .closing
    compartment := { r.context.compartment with closeAwaited := true } } := by
  unfold cutBehind
  rw [if_pos h]
  show ({ r.context.cutGate r.closeTime with phase := .closing } : Context) = _
  rw [Context.cutGate_open h]

theorem cutBehind_shut {r : Spout} (h : r.context.gate.isOpen = false) : r.cutBehind = r :=
  if_neg (by rw [h]; exact Bool.false_ne_true)

/-- R33: a cut moves no follower out of BOUND, and leaves all but its context. -/
theorem cutBehind_kept (r : Spout) : r.cutBehind.context.stage = r.context.stage ∧ r.cutBehind.channel = r.channel
    ∧ r.cutBehind.calibration = r.calibration := by
  cases h : r.context.gate.isOpen with
  | true =>
    refine ⟨by rw [cutBehind_open h], ?_, ?_⟩
    · unfold cutBehind; rw [if_pos h]; rfl
    · unfold cutBehind; rw [if_pos h]; rfl
  | false => rw [cutBehind_shut h]; exact ⟨rfl, rfl, rfl⟩

theorem delivered_resetBehind (r : Spout) : r.resetBehind.channel.delivered = r.channel.delivered := by
  unfold resetBehind; split <;> rfl

end Spout

/-- R33: the cut of a follower. -/
theorem Becomes.cutBehind {f : SpoutId} {w : Option SlotId} {r : Spout} {q : Port} {s t : State} (h : Becomes f w r q s t)
    {o : SpoutId} (hne : f ≠ o) : Becomes f w r.cutBehind q s (Machine.cutMember o f t) := by
  have hcut := (((h.updateGate (GateUnit.cut r.closeTime)).updateCompartment fun c => { c with closeAwaited := true })).setPhase
    .closing
  unfold Machine.cutMember
  rw [h.gate]
  cases hg : r.context.gate.isOpen with
  | true =>
    rw [if_pos rfl]
    unfold setMemberPhase
    rw [if_neg hne]
    unfold Machine.cutGate setCloseAwaited
    rw [h.closeTime]
    have heq : r.cutBehind = ((r.onGate (GateUnit.cut r.closeTime)).onCompartment fun c => { c with closeAwaited := true }).onContext
        fun c => { c with phase := .closing } := by
      unfold Spout.cutBehind Spout.cutGate Spout.onContext
      rw [if_pos hg]; dsimp only
      rw [Context.cutGate_open hg]; rfl
    rw [heq]; exact hcut
  | false =>
    rw [if_neg Bool.false_ne_true, Spout.cutBehind_shut hg]
    exact h

namespace BothBecome

variable {o : SpoutId} {w : Option SlotId} {n : SlotId} {p r : Spout} {q : Port} {s t : State}

/-- R33, R62: the cut of a pair. -/
theorem cut (h : BothBecome o (followerOf o) w p r q s t) (ht : p.context.order.twin = true) (hb : r.context.stage = .bound)
    (reason : Option Code) : BothBecome o (followerOf o) w (p.cut reason) r.cutBehind q s (cut o reason t) := by
  have hleader := h.onFirst h.atFirst.cutMember
  have hcut := hleader.onSecond (hleader.atSecond.cutBehind h.apart)
  have hcaused := hcut.onFirst (hcut.atFirst.updateCompartment (Compartment.setCause reason))
  unfold Machine.cut
  rw [h.forMembers ht hb]
  exact hcaused.onFirst (hcaused.atFirst.setStage .closing)

theorem resetMarked (h : BothBecome o (followerOf o) w p r q s t) :
    BothBecome o (followerOf o) w p.resetMarked r q s (markReset o t) := h.onFirst (h.atFirst.updateOrder _)

theorem resetCaused (h : BothBecome o (followerOf o) w p r q s t) :
    BothBecome o (followerOf o) w p.resetCaused r q s (setResetCause o (markReset o t)) :=
  h.resetMarked.onFirst (h.resetMarked.atFirst.updateCompartment _)

theorem leaderWaits (h : BothBecome o (followerOf o) w p r q s t) :
    BothBecome o (followerOf o) w p.waits r q s (leaderWaits o t) :=
  h.onFirst ((h.atFirst.endIntegration.updateCompartment fun c => { c with noSettle := true }).setStage .settling)

/-- R64: the follower is set free, its channel frozen. -/
theorem freed (h : BothBecome o (followerOf o) w p r q s t) :
    BothBecome o (followerOf o) w p r.freed q s (leaveBound (followerOf o) (endIntegration (followerOf o) t)) :=
  h.onSecond ((h.atSecond.endIntegration.updateContext fun c => { c with claim := none }).restContext)

theorem resetBehind (h : BothBecome o (followerOf o) w p r q s t) (hb : r.context.stage = .bound) :
    BothBecome o (followerOf o) w p r.resetBehind q s (softResetFollower (followerOf o) t) := by
  have hbound : t.isBound (followerOf o) = true := h.atSecond.isBound.trans (congrArg (· == Stage.bound) hb)
  have hphase : (t.context (followerOf o)).phase = r.context.phase := congrArg (fun c => c.phase) h.atSecond.context
  unfold softResetFollower Spout.resetBehind
  rw [hbound, hphase]
  by_cases hc : r.context.phase = .closing
  · rw [if_pos hc, if_neg fun x => x.2 hc]; exact h
  · rw [if_neg hc, if_pos ⟨rfl, hc⟩]; exact h.freed

/-- R53, R64, R117: the end of a TWIN's order under a soft reset; a claim still pending is withdrawn. -/
theorem resetRest (h : BothBecome o (followerOf o) (some n) p r q s t) (hm : s.memory.wf = true)
    (hslot : p.context.slot = some n) (ht : p.context.order.twin = true) (hc : p.context.order.count ≤ 12) :
    BothBecome o (followerOf o) (some n) p.resting (if r.context.stage = .bound then r else r.unclaimed) q s
      (resetRest o t) := by
  have hcurrent : (t.context o).slot = some n := (congrArg (fun c => c.slot) h.atFirst.context).trans hslot
  have hrested := h.onFirst (((h.atFirst.closeEntries (h.wf hm) hc (t.order o).total).writeResult .reset .none noField).restContext)
  have horder : (t.order o).twin = true := h.atFirst.isTwin.trans ht
  have hcount : (t.order o).count = p.context.order.count := congrArg OrderState.count h.atFirst.order
  unfold Machine.resetRest; dsimp only
  rw [hcurrent, horder, if_pos rfl, hcount]
  unfold Machine.withdrawClaim
  rw [hrested.atSecond.isBound]
  by_cases hb : r.context.stage = .bound
  · rw [if_pos (beq_iff_eq.2 hb), if_pos hb]; exact hrested
  · rw [if_neg fun e => hb (beq_iff_eq.1 e), if_neg hb]
    exact hrested.onSecond (hrested.atSecond.updateContext fun c => { c with claim := none })

end BothBecome

/-- R117: what the end of an order under a soft reset writes in its slot. -/
theorem slotClosed_resetRest_any {i : SpoutId} {n : SlotId} {s : State} (hm : s.memory.wf = true)
    (hslot : (s.context i).slot = some n) (hc : (s.order i).count ≤ 12) :
    s.SlotClosed n (s.order i).count (s.order i).total (s.slotStateByte n) 7 (resetRest i s) := by
  have hclosed := (slotClosed_resetSlot (total := (s.order i).total) hm hc (n := n)).after hc (sameSlot_restContext n i _)
  unfold resetRest; dsimp only
  rw [hslot]; dsimp only; split
  · unfold withdrawClaim; split
    · exact hclosed
    · exact hclosed.after hc (sameSlot_updateSpout n _ _ _)
  · exact hclosed

/-! ## The reset of the pair -/

theorem softResetPair_bound {o : SpoutId} {s : State} (hb : s.isBound (followerOf o) = true) :
    softResetPair o s = resetCheck react o (softResetFollower (followerOf o) (softResetContext o s)) := by
  rw [softResetPair_eq, hb]; rfl

/-- R64: a reset that finds its pair, as `p` and `r`. -/
structure State.PairMeets (o : SpoutId) (n : SlotId) (p r : Spout) (s : State) : Prop where
  both : BothBecome o (followerOf o) (some n) p r s.port s s
  wf : s.memory.wf = true
  twin : p.context.order.twin = true
  slot : p.context.slot = some n
  count : p.context.order.count ≤ 12
  index : p.context.compartment.index < 12
  bound : r.context.stage = .bound

namespace State.PairMeets

variable {o : SpoutId} {n : SlotId} {p r : Spout} {s t : State} (h : s.PairMeets o n p r)
include h

theorem isBound : s.isBound (followerOf o) = true := h.both.atSecond.isBound.trans (congrArg (· == Stage.bound) h.bound)

/-- R64: a leader that is at rest, or does not wait in SETTLING, is not checked; its follower follows. -/
theorem followed {p' r' : Spout} (hv : BothBecome o (followerOf o) (some n) p' r' s.port s (softResetContext o s))
    (hb : r'.context.stage = .bound)
    (hcheck : p'.context.order.twin = false ∨ p'.context.stage ≠ .settling ∨ r'.context.phase = .closing) :
    BothBecome o (followerOf o) (some n) p' r'.resetBehind s.port s (softResetPair o s)
      ∧ SameSlot n (softResetContext o s) (softResetPair o s) := by
  have hfollowed := hv.resetBehind hb
  have hsame := ((hv.here.resetBehind hb).slots n (by simp))
  have hnot : resetCheck react o (softResetFollower (followerOf o) (softResetContext o s))
      = softResetFollower (followerOf o) (softResetContext o s) := by
    refine if_neg ?_
    rintro ⟨htwin, -, hstage, hfree⟩
    obtain e | e | e := hcheck
    · rw [hfollowed.atFirst.isTwin, e] at htwin; cases htwin
    · exact e (hfollowed.atFirst.stage.symm.trans hstage)
    · refine hfree (hfollowed.atSecond.isBound.trans ?_)
      unfold Spout.resetBehind
      rw [if_pos e]; exact congrArg (· == Stage.bound) hb
  rw [softResetPair_bound h.isBound, hnot]
  exact ⟨hfollowed, hsame⟩

/-- R64, R117: before the opening but in ZEROING, or in RELEASING, the order ends. -/
theorem softReset_rests (hs : p.context.stage = .waitIndex ∨ p.context.stage = .engaging ∨ p.context.stage = .releasing) :
    BothBecome o (followerOf o) (some n) p.resting r.resetBehind s.port s (softResetPair o s)
      ∧ s.SlotClosed n p.context.order.count p.context.order.total (s.slotStateByte n) 7 (softResetPair o s) := by
  have hmarked := h.both.resetMarked
  have hrested := hmarked.resetRest h.wf h.slot h.twin h.count
  rw [if_pos h.bound] at hrested
  have hmet : softResetContext o s = resetRest o (markReset o s) := by
    have hstage := h.both.atFirst.stage
    unfold softResetContext
    obtain e | e | e := hs <;> rw [hstage, e]
  have hclosed := slotClosed_resetRest_any (hmarked.wf h.wf) ((congrArg (fun c => c.slot) hmarked.atFirst.context).trans h.slot)
    (by rw [hmarked.atFirst.order]; exact h.count)
  rw [hmarked.atFirst.order] at hclosed
  rw [← hmet] at hrested hclosed
  obtain ⟨hboth, hsame⟩ := h.followed hrested h.bound (.inl rfl)
  have hmemory : SameSlot n s (markReset o s) := fun _ _ => rfl
  exact ⟨hboth, (hclosed.after h.count hsame).before h.count hmemory⟩

/-- R98, R117: in ZEROING the entry in hand ends with code RESET, and the order ends. -/
theorem softReset_zeroing (hs : p.context.stage = .zeroing) :
    BothBecome o (followerOf o) (some n) p.resting r.resetBehind s.port s (softResetPair o s)
      ∧ (writeEntryCode n p.context.compartment.index .reset s).SlotClosed n p.context.order.count p.context.order.total
        (s.slotStateByte n) 7 (softResetPair o s) := by
  have hmarked := h.both.resetMarked
  have hslot := (congrArg (fun c => c.slot) hmarked.atFirst.context).trans h.slot
  have hindex : ((markReset o s).compartment o).index = p.context.compartment.index :=
    congrArg (fun c => c.index) hmarked.atFirst.compartment
  have hcoded := hmarked.onFirst (hmarked.atFirst.writeEntryCode h.index .reset)
  have hrested := hcoded.resetRest h.wf h.slot h.twin h.count
  rw [if_pos h.bound] at hrested
  have hmet : softResetContext o s = resetRest o (writeEntryCode n p.context.compartment.index .reset (markReset o s)) := by
    unfold softResetContext
    rw [h.both.atFirst.stage, hs]; dsimp only
    unfold resetEntry
    rw [hslot]; dsimp only
    rw [hindex]
  have hclosed := slotClosed_resetRest_any (hcoded.wf h.wf) ((congrArg (fun c => c.slot) hcoded.atFirst.context).trans h.slot)
    (by rw [hcoded.atFirst.order]; exact h.count)
  have hstate : (writeEntryCode n p.context.compartment.index .reset (markReset o s)).slotStateByte n = s.slotStateByte n :=
    congrArg BitVec.toNat (read_writeEntryCode _ n _ _ (by unfold entryOffset; omega))
  rw [hcoded.atFirst.order, hstate] at hclosed
  rw [← hmet] at hrested hclosed
  obtain ⟨hboth, hsame⟩ := h.followed hrested h.bound (.inl rfl)
  have hmemory : SameSlot n (writeEntryCode n p.context.compartment.index .reset s)
      (writeEntryCode n p.context.compartment.index .reset (markReset o s)) := fun _ _ => rfl
  exact ⟨hboth, (hclosed.after h.count hsame).before h.count hmemory⟩

/-- R49, R64: an open stage is cut with cause RESET. -/
theorem softReset_open (hs : p.context.stage.isOpen = true) :
    BothBecome o (followerOf o) (some n) (p.resetMarked.cut (some .reset)) r.cutBehind.resetBehind s.port s (softResetPair o s)
      ∧ SameSlot n s (softResetPair o s) := by
  have hcut := h.both.resetMarked.cut h.twin h.bound (some .reset)
  have hmet : softResetContext o s = cut o (some .reset) (markReset o s) := by
    have hstage := h.both.atFirst.stage
    unfold softResetContext
    obtain e | e | e | e := (Stage.isOpen_iff _).1 hs <;> rw [hstage, e]
  have hsame : SameSlot n s (cut o (some .reset) (markReset o s)) :=
    (h.both.here.resetMarked.cut h.twin h.bound (some .reset)).slots n (by simp)
  rw [← hmet] at hcut hsame
  obtain ⟨hboth, hafter⟩ := h.followed hcut (r.cutBehind_kept.1.trans h.bound) (.inr (.inl fun e => by cases e))
  exact ⟨hboth, hsame.trans hafter⟩

/-- R64: in CLOSING the cause is set, while the leader's own close runs. -/
theorem softReset_closing (hs : p.context.stage = .closing) (hw : p.context.compartment.closeAwaited = true) :
    BothBecome o (followerOf o) (some n) p.resetCaused r.resetBehind s.port s (softResetPair o s)
      ∧ SameSlot n s (softResetPair o s) := by
  have hcaused := h.both.resetCaused
  have hawaited : (p.resetCaused.context.compartment).closeAwaited = true := by
    show (p.context.compartment.setCause (some .reset)).closeAwaited = true
    rw [Compartment.setCause_some]; exact hw
  have hmet : softResetContext o s = setResetCause o (markReset o s) := by
    unfold softResetContext
    rw [h.both.atFirst.stage, hs]; dsimp only
    rw [hcaused.atFirst.compartment, hawaited, Bool.not_true, Bool.and_false, if_neg Bool.false_ne_true]
  have hsame : SameSlot n s (setResetCause o (markReset o s)) := h.both.here.resetCaused.slots n (by simp)
  rw [← hmet] at hcaused hsame
  obtain ⟨hboth, hafter⟩ := h.followed hcaused h.bound (.inr (.inl fun e => by cases hs.symm.trans e))
  exact ⟨hboth, hsame.trans hafter⟩

/-- R64: a leader whose own close does not run waits in SETTLING. -/
theorem softResetContext_waits
    (hs : p.context.stage = .settling ∨ (p.context.stage = .closing ∧ p.context.compartment.closeAwaited = false)) :
    softResetContext o s = leaderWaits o (setResetCause o (markReset o s))
      ∧ BothBecome o (followerOf o) (some n) p.resetCaused.waits r s.port s (softResetContext o s)
      ∧ SameSlot n s (softResetContext o s) := by
  have hcaused := h.both.resetCaused
  have htwin : (setResetCause o (markReset o s)).isTwin o = true := hcaused.atFirst.isTwin.trans h.twin
  have hmet : softResetContext o s = leaderWaits o (setResetCause o (markReset o s)) := by
    unfold softResetContext
    rw [h.both.atFirst.stage]
    obtain e | ⟨e, hw⟩ := hs
    · rw [e]; dsimp only
      rw [htwin, if_pos rfl]
    · have hawaited : (p.resetCaused.context.compartment).closeAwaited = false := by
        show (p.context.compartment.setCause (some .reset)).closeAwaited = false
        rw [Compartment.setCause_some]; exact hw
      rw [e]; dsimp only
      rw [htwin, hcaused.atFirst.compartment, hawaited, if_pos (by rfl)]
  refine ⟨hmet, ?_, ?_⟩
  · rw [hmet]; exact hcaused.leaderWaits
  · rw [hmet]; exact h.both.here.resetCaused.leaderWaits.slots n (by simp)

end State.PairMeets

end Sys2Proof.Machine

/-! The compartment of a pair that a soft reset ends (R39, R49, R64), and the gate closes that it waits for. -/

namespace Sys2Proof.Machine

/-! ## The end of the compartment -/

/-- R39 step 1: the final that the end of a compartment takes. -/
def State.finalMass (s : State) (o : SpoutId) : Nat := (takeFinal o (forMembers o endIntegration s)).2

/-- R49, R117: the end of a compartment whose order is to end RESET, with the final it takes. -/
theorem finishCompartment_finalMass (k : Reaction) {o : SpoutId} {s : State} (h : (s.order o).mark = .reset) :
    finishCompartment k o false s = resetRest o (recordedAs o .reset (s.finalMass o) (finalTaken o s)) := by
  have hmark : ((finalTaken o s).order o).mark = .reset :=
    (congrArg (fun c => c.order.mark) (context_finalTaken o o s)).trans h
  have hreset : ((recordedAs o .reset (s.finalMass o) (finalTaken o s)).order o).mark = .reset := by
    refine (congrArg (fun c => c.order.mark) (context_recordedAs ..)).trans ?_
    show ((finalTaken o s).order o).mark.strongest _ = .reset
    rw [hmark]; exact EndMark.reset_strongest _
  have hcode := compartmentCode_reset hmark ((finalTaken o s).compartment o) (s.finalMass o)
  unfold finishCompartment; dsimp only
  rw [handRecord_unsettled, ← finalTaken, ← State.finalMass, hcode, ← recordedAs, if_pos hreset]

/-- The spout whose compartment a soft reset ends. -/
def Spout.endsReset (final : Nat) (p : Spout) : Spout := (p.frozen.recorded .reset final).resting

namespace BothBecome

variable {o : SpoutId} {n : SlotId} {w : Option SlotId} {p r : Spout} {q : Port} {s t : State}

/-- R64: a compartment whose follower is free works for its leader alone. -/
theorem forMembers_free (h : BothBecome o (followerOf o) w p r q s t) (hb : r.context.stage ≠ .bound)
    (g : SpoutId → State → State) : Machine.forMembers o g t = g o t := by
  have hmembers : t.members o = [o] := by
    unfold State.members
    rw [h.atSecond.isBound, beq_eq_false_iff_ne.2 hb, Bool.and_false, if_neg Bool.false_ne_true]
  unfold Machine.forMembers
  rw [hmembers]; rfl

/-- R39 step 1: the final is taken with the follower free. -/
theorem finalTaken (h : BothBecome o (followerOf o) w p r q s t) (hb : r.context.stage ≠ .bound) :
    BothBecome o (followerOf o) w p.frozen r q s (finalTaken o t) := by
  have hended := h.onFirst h.atFirst.endIntegration
  obtain ⟨c, hc⟩ := takeFinal_fst o (endIntegration o t)
  unfold Machine.finalTaken
  rw [h.forMembers_free hb, hc]
  exact ⟨hended.apart, hended.first, hended.second, hended.port, hended.others, hended.tables, hended.slots, hended.wf⟩

/-- R58: the final of an opened compartment is the sum of both channels. -/
theorem finalMass (h : BothBecome o (followerOf o) w p r q s t) (hb : r.context.stage ≠ .bound)
    (ht : p.context.order.twin = true) (ho : p.context.compartment.opened = true)
    (hd : p.channel.delivered + r.channel.delivered ≤ 4294967295) :
    t.finalMass o = p.channel.delivered + r.channel.delivered := by
  have hended := h.onFirst h.atFirst.endIntegration
  have hmass : (endIntegration o t).mass o = p.channel.delivered + r.channel.delivered := by
    rw [mass_twin (hended.atFirst.isTwin.trans ht), hended.atFirst.channel, hended.atSecond.channel]; rfl
  have hopened : ((endIntegration o t).compartment o).opened = true := by rw [hended.atFirst.compartment]; exact ho
  unfold State.finalMass
  rw [h.forMembers_free hb]
  unfold takeFinal
  rw [if_pos hopened, hmass, if_pos (show _ ≤ Config.maxU32 from hd)]

/-- R39, R49, R64, R117: the compartment ends, and the order with it. -/
theorem finishReset (h : BothBecome o (followerOf o) (some n) p r q s t) (hm : s.memory.wf = true) (k : Reaction)
    (hb : r.context.stage ≠ .bound) (ht : p.context.order.twin = true) (hmark : p.context.order.mark = .reset)
    (hslot : p.context.slot = some n) (hc : p.context.order.count ≤ 12) (hi : p.context.compartment.index < 12) :
    BothBecome o (followerOf o) (some n) (p.endsReset (t.finalMass o)) r.unclaimed q s (finishCompartment k o false t)
      ∧ (finishCompartment k o false t).slotStateByte n = t.slotStateByte n
      ∧ (finishCompartment k o false t).slotU8 n 3 = 7
      ∧ (p.context.compartment.trimsUsed ≤ 3 → t.finalMass o ≤ 4294967295 →
          (finishCompartment k o false t).entryShows n p.context.compartment.index 16
            ((p.context.compartment.secondary.map Code.value).getD 0) p.context.compartment.trimsUsed (t.finalMass o)) := by
  have htaken := h.finalTaken hb
  have hcurrent : ((Machine.finalTaken o t).context o).slot = some n :=
    (congrArg (fun c => c.slot) htaken.atFirst.context).trans hslot
  have hrecorded := htaken.onFirst (htaken.atFirst.recordedAs hslot hi .reset (t.finalMass o))
  have hrested := hrecorded.resetRest hm hslot ht hc
  rw [if_neg hb] at hrested
  have hcompartment : (Machine.finalTaken o t).compartment o = p.context.compartment := htaken.atFirst.compartment
  have hclosed := slotClosed_resetRest_any (hrecorded.wf hm)
    ((congrArg (fun c => c.slot) hrecorded.atFirst.context).trans hslot) (by rw [hrecorded.atFirst.order]; exact hc)
  have hstate : (recordedAs o .reset (t.finalMass o) (Machine.finalTaken o t)).slotStateByte n = t.slotStateByte n :=
    (slotU8_recordedAs hcurrent .reset _ (k := 0) (by omega) (by omega) (by omega)).trans
      ((h.here.finalTaken hb).slots n (by simp)).slotStateByte
  have hshows := entryShows_recordedAs (htaken.wf hm) hcurrent .reset (t.finalMass o)
  rw [hcompartment] at hshows
  rw [finishCompartment_finalMass k ((congrArg OrderState.mark h.atFirst.order).trans hmark)]
  refine ⟨hrested, hclosed.slotState.trans hstate, hclosed.result, fun htrims hfinal => ?_⟩
  rw [Nat.mod_eq_of_lt (by omega : p.context.compartment.trimsUsed < 256),
    Nat.mod_eq_of_lt (by omega : t.finalMass o < 4294967296)] at hshows
  exact hclosed.entryShows_any hi (by rw [hrecorded.atFirst.order]; exact hc) (by decide) hshows

end BothBecome

end Sys2Proof.Machine

/-! A soft reset reaches a pair (R49, R64, R98, R117): what it shows, by the stage of its leader. -/

namespace Sys2Proof.Machine

/-! ## A leader whose own close does not run (R64) -/

namespace State.PairMeets

variable {o : SpoutId} {n : SlotId} {p r : Spout} {s : State} (h : s.PairMeets o n p r)
  (hs : p.context.stage = .settling ∨ (p.context.stage = .closing ∧ p.context.compartment.closeAwaited = false))
include h hs

/-- R64: the leader waits while the follower's close runs. -/
theorem softReset_waits (hc : r.context.phase = .closing) :
    BothBecome o (followerOf o) (some n) p.resetCaused.waits r s.port s (softResetPair o s)
      ∧ SameSlot n s (softResetPair o s) := by
  obtain ⟨-, hwaits, hsame⟩ := h.softResetContext_waits hs
  obtain ⟨hboth, hafter⟩ := h.followed hwaits h.bound (.inr (.inr hc))
  rw [show r.resetBehind = r from if_pos hc] at hboth
  exact ⟨hboth, hsame.trans hafter⟩

/-- R64: where the follower's close does not run either, the compartment ends, and the order with it. -/
theorem softReset_ends (hc : r.context.phase ≠ .closing) : ∃ final,
    BothBecome o (followerOf o) (some n) (p.resetCaused.waits.endsReset final) r.freed s.port s (softResetPair o s)
      ∧ (softResetPair o s).slotStateByte n = s.slotStateByte n ∧ (softResetPair o s).slotU8 n 3 = 7
      ∧ (p.context.compartment.opened = true → p.context.compartment.trimsUsed ≤ 3 →
          p.channel.delivered + r.channel.delivered ≤ 4294967295 →
          (softResetPair o s).entryShows n p.context.compartment.index 16
            ((p.context.compartment.secondary.map Code.value).getD 0) p.context.compartment.trimsUsed
            (p.channel.delivered + r.channel.delivered)) := by
  obtain ⟨-, hwaits, hsame⟩ := h.softResetContext_waits hs
  have hfollowed := hwaits.resetBehind h.bound
  have hkept := (hwaits.here.resetBehind h.bound).slots n (by simp)
  rw [show r.resetBehind = r.freed from if_neg hc] at hfollowed
  have hcaused : p.resetCaused.waits.context.compartment = { p.context.compartment with
      cause := some (p.context.compartment.cause.getD .reset), noSettle := true } := by
    show ({ p.context.compartment.setCause (some .reset) with noSettle := true } : Compartment) = _
    rw [Compartment.setCause_some]
  obtain ⟨hboth, hstate, hresult, hshows⟩ := hfollowed.finishReset h.wf react (by rintro ⟨⟩) h.twin rfl h.slot h.count
    (by rw [hcaused]; exact h.index)
  have hcheck : softResetPair o s
      = finishCompartment react o false (softResetFollower (followerOf o) (softResetContext o s)) := by
    rw [softResetPair_bound h.isBound]
    refine if_pos ⟨hfollowed.atFirst.isTwin.trans h.twin, (congrArg OrderState.mark hfollowed.atFirst.order :),
      hfollowed.atFirst.stage, ?_⟩
    rw [hfollowed.atSecond.isBound]; exact Bool.false_ne_true
  rw [← hcheck] at hboth hstate hresult hshows
  refine ⟨_, hboth, hstate.trans (hsame.trans hkept).slotStateByte, hresult, fun hopened htrims hd => ?_⟩
  have hfinal := hfollowed.finalMass (by rintro ⟨⟩) h.twin (by rw [hcaused]; exact hopened) hd
  rw [hfinal, hcaused] at hshows
  exact hshows htrims hd

end State.PairMeets

/-! ## What the spouts show -/

namespace State.ShowsAt

variable {i : SpoutId} {p : Spout} {t : State} (h : t.ShowsAt i p)
include h

theorem stage : t.stage i = p.context.stage := congrArg Context.stage h.context
theorem gate : t.gate i = p.context.gate := congrArg Context.gate h.context
theorem order : t.order i = p.context.order := congrArg Context.order h.context
theorem compartment : t.compartment i = p.context.compartment := congrArg Context.compartment h.context
theorem delivered : (t.channel i).delivered = p.channel.delivered := congrArg Channel.delivered h.channel

/-- R33: the gate that a cut has shut. -/
theorem gateIsCut {g : GateUnit} (hg : p.context.gate = g.cut p.closeTime) (hp : p.calibration.profileValid = true) :
    t.gateIsCut i := by
  have htime : p.closeTime = some p.calibration.profile.gateCloseTime := if_pos hp
  rw [htime] at hg
  unfold State.gateIsCut
  rw [h.gate, h.profile, hg]
  exact ⟨rfl, rfl, rfl, rfl⟩

end State.ShowsAt

theorem State.ShowsAt.atRest {i : SpoutId} {p : Spout} {t : State} (h : t.ShowsAt i p.resting) : t.atRest i :=
  ⟨h.stage, (congrArg (fun c => c.slot) h.context :), h.order, h.compartment⟩

/-- R64: the follower is at rest, its claim gone and its channel frozen. -/
def State.isFreed (t : State) (f : SpoutId) : Prop :=
  t.atRest f ∧ (t.context f).claim = none ∧ (t.channel f).integrating = false

theorem State.ShowsAt.isFreed {f : SpoutId} {r : Spout} {t : State} (h : t.ShowsAt f r.freed) : t.isFreed f :=
  ⟨h.atRest, (congrArg (fun c => c.claim) h.context :), (congrArg (fun c => c.integrating) h.channel :)⟩

/-- R64, R175: a soft reset shows pair `o`, found in `u` as it was in `s`, as the pair's own reset leaves it. -/
structure State.PairIsReset (o : SpoutId) (n : SlotId) (s u t : State) : Prop where
  meets : u.PairMeets o n (s.spout o) (s.spout (followerOf o))
  before : SameSlot n s u
  leader : t.ShowsAt o ((softResetPair o u).spout o)
  follower : t.ShowsAt (followerOf o) ((softResetPair o u).spout (followerOf o))
  after : SameSlot n (softResetPair o u) t

theorem exec_softReset_bound {o : SpoutId} {n : SlotId} {s : State} (hl : s.WorkLawful) (hx : s.port.exchange = .running)
    (hp : s.pair o) (hslot : (s.context o).slot = some n) : ∃ t u, exec .softReset s = .next t ∧ s.PairIsReset o n u t := by
  obtain ⟨t, u, hexec, hbefore, hleader, hfollower, hslots⟩ := exec_softReset_pair hp.even hx fun c hc =>
    writesApart_of_runs hl hx hp.isBound_leader hslot (fun e => hc (by rw [e]; exact leaderOf_of_even hp.even)) fun _ => hc
  have hboth := BothBecome.refl hp.apart (some n) u
  rw [hbefore.leader, hbefore.follower] at hboth
  exact ⟨t, u, hexec, ⟨hboth, hbefore.wf hl.memory, hp.isTwin, hslot, (hl.contexts.count o).1, hl.contexts.index o,
    hp.stage_follower⟩, hbefore.slots n rfl, hleader, hfollower, hslots n rfl⟩

/-- R20: where a leader whose follower is BOUND stands. -/
theorem stage_of_pair {o : SpoutId} {s : State} (hl : s.WorkLawful) (hp : s.pair o) :
    (s.stage o = .waitIndex ∨ s.stage o = .engaging ∨ s.stage o = .releasing) ∨ s.stage o = .zeroing
      ∨ (s.stage o).isOpen = true ∨ (s.stage o = .closing ∧ (s.compartment o).closeAwaited = true)
      ∨ (s.stage o = .settling ∨ (s.stage o = .closing ∧ (s.compartment o).closeAwaited = false)) := by
  have hwork : ¬ (s.stage o = .idle ∨ s.stage o = .bound ∨ s.stage o = .zeroRun) := fun e => by
    obtain ⟨horder, -⟩ := hl.contexts.idle o e
    have htwin : (s.order o).twin = true := hp.isTwin
    rw [horder] at htwin; cases htwin
  cases hstage : s.stage o with
  | idle => exact absurd (.inl hstage) hwork
  | bound => exact absurd (.inr (.inl hstage)) hwork
  | zeroRun => exact absurd (.inr (.inr hstage)) hwork
  | closing => cases (s.compartment o).closeAwaited <;> simp
  | opening | coarse | fine | trim => exact .inr (.inr (.inl rfl))
  | _ => simp

namespace State.PairIsReset

variable {o : SpoutId} {n : SlotId} {s u t : State} (h : s.PairIsReset o n u t) (hp : s.pair o)
include h

/-- What the pair's own reset makes of its two spouts is what `t` shows. -/
theorem shows {p r : Spout} (hb : BothBecome o (followerOf o) (some n) p r u.port u (softResetPair o u)) :
    t.ShowsAt o p ∧ t.ShowsAt (followerOf o) r :=
  ⟨hb.first ▸ h.leader, hb.second ▸ h.follower⟩

/-- R64: before the opening, or in RELEASING, both contexts are at rest, but for a follower whose close runs. -/
theorem rests (hs : s.stage o = .waitIndex ∨ s.stage o = .engaging ∨ s.stage o = .zeroing ∨ s.stage o = .releasing) :
    t.ShowsAt o (s.spout o).resting ∧ t.ShowsAt (followerOf o) (s.spout (followerOf o)).resetBehind
      ∧ t.slotStateByte n = s.slotStateByte n ∧ t.slotU8 n 3 = 7
      ∧ ∀ e ∈ List.range (s.order o).count, t.entryCode n e
        = if s.stage o = .zeroing ∧ e = (s.compartment o).index then 16
          else if s.entryCode n e = 0 then 21 else s.entryCode n e := by
  have hcount : (s.order o).count ≤ 12 := h.meets.count
  by_cases hz : s.stage o = .zeroing
  · obtain ⟨hboth, hclosed⟩ := h.meets.softReset_zeroing hz
    have hended := hclosed.after hcount h.after
    obtain ⟨hleader, hfollower⟩ := h.shows hboth
    refine ⟨hleader, hfollower, hended.slotState.trans h.before.slotStateByte, hended.result, fun e he => ?_⟩
    have he' : e < (s.order o).count := List.mem_range.1 he
    rw [hended.codes e he']
    by_cases hi : e = (s.compartment o).index
    · rw [if_pos ⟨hz, hi⟩, hi]
      exact congrArg closedCode (entryCode_writeEntryCode h.meets.wf n (s.compartment o).index .reset (by decide))
    · have hcode : (writeEntryCode n (s.compartment o).index .reset u).entryCode n e = s.entryCode n e :=
        (congrArg BitVec.toNat (read_writeEntryCode u n _ _ (by unfold entryOffset; omega))).trans (h.before.entryCode (by omega))
      rw [if_neg fun c => hi c.2]
      exact congrArg closedCode hcode
  · obtain ⟨hboth, hclosed⟩ := h.meets.softReset_rests (by
      obtain e | e | e | e := hs
      exacts [.inl e, .inr (.inl e), absurd e hz, .inr (.inr e)])
    have hended := (hclosed.after hcount h.after).before hcount h.before
    obtain ⟨hleader, hfollower⟩ := h.shows hboth
    refine ⟨hleader, hfollower, hended.slotState.trans h.before.slotStateByte, hended.result, fun e he => ?_⟩
    rw [if_neg fun c => hz c.1]
    exact hended.codes e (List.mem_range.1 he)

/-- R49, R64: an open stage is cut. -/
theorem opens (hs : (s.stage o).isOpen = true) :
    t.ShowsAt o ((s.spout o).resetMarked.cut (some .reset))
      ∧ t.ShowsAt (followerOf o) (s.spout (followerOf o)).cutBehind.resetBehind ∧ t.slotStateByte n = s.slotStateByte n := by
  obtain ⟨hboth, hsame⟩ := h.meets.softReset_open hs
  obtain ⟨hleader, hfollower⟩ := h.shows hboth
  exact ⟨hleader, hfollower, ((h.before.trans hsame).trans h.after).slotStateByte⟩

/-- R64: the leader's own close runs on. -/
theorem closes (hs : s.stage o = .closing) (hw : (s.compartment o).closeAwaited = true) :
    t.ShowsAt o (s.spout o).resetCaused ∧ t.ShowsAt (followerOf o) (s.spout (followerOf o)).resetBehind
      ∧ t.slotStateByte n = s.slotStateByte n := by
  obtain ⟨hboth, hsame⟩ := h.meets.softReset_closing hs hw
  obtain ⟨hleader, hfollower⟩ := h.shows hboth
  exact ⟨hleader, hfollower, ((h.before.trans hsame).trans h.after).slotStateByte⟩

section Waiting

variable (hs : s.stage o = .settling ∨ (s.stage o = .closing ∧ (s.compartment o).closeAwaited = false))
include hs

/-- R64: the leader waits in SETTLING for the follower's close. -/
theorem waits (hc : (s.context (followerOf o)).phase = .closing) :
    t.ShowsAt o (s.spout o).resetCaused.waits ∧ t.ShowsAt (followerOf o) (s.spout (followerOf o))
      ∧ t.slotStateByte n = s.slotStateByte n := by
  obtain ⟨hboth, hsame⟩ := h.meets.softReset_waits hs hc
  obtain ⟨hleader, hfollower⟩ := h.shows hboth
  exact ⟨hleader, hfollower, ((h.before.trans hsame).trans h.after).slotStateByte⟩

/-- R64: no close runs, and the compartment ends. -/
theorem ends (hc : (s.context (followerOf o)).phase ≠ .closing) : ∃ final,
    t.ShowsAt o ((s.spout o).resetCaused.waits.endsReset final) ∧ t.ShowsAt (followerOf o) (s.spout (followerOf o)).freed
      ∧ t.slotStateByte n = s.slotStateByte n ∧ t.slotU8 n 3 = 7
      ∧ ((s.compartment o).opened = true → (s.compartment o).trimsUsed ≤ 3 →
          (s.channel o).delivered + (s.channel (followerOf o)).delivered ≤ 4294967295 →
          t.entryShows n (s.compartment o).index 16 (((s.compartment o).secondary.map Code.value).getD 0)
            (s.compartment o).trimsUsed ((s.channel o).delivered + (s.channel (followerOf o)).delivered)) := by
  obtain ⟨final, hboth, hstate, hresult, hshows⟩ := h.meets.softReset_ends hs hc
  obtain ⟨hleader, hfollower⟩ := h.shows hboth
  have hindex : (s.spout o).context.compartment.index < 12 := h.meets.index
  refine ⟨final, hleader, hfollower, (h.after.slotStateByte.trans hstate).trans h.before.slotStateByte,
    (h.after.slotU8 (by omega)).trans hresult, fun ho htrims hd => ?_⟩
  have hshown := hshows ho htrims hd
  exact hshown.of_bytes (h.after.entryCode hindex) fun off _ _ => h.after.slotU8 (by unfold entryOffset; omega)

end Waiting

end State.PairIsReset

end Sys2Proof.Machine

/-! The statement on the soft reset of a TWIN (R53, R64, R98, R117, R175), and a gate close that a reset pair waits for (R24, R64). -/

namespace Sys2Proof.Machine

/-! ## The end of a close (R24, R34) -/

/-- R24: GATE_CLOSED taken present ends a close. -/
theorem exec_closeTaken {i : SpoutId} {s : State} (hd : s.changeDue i .gateClosed true) (ho : (s.gate i).output = .close)
    (hf : (s.gate i).failed = false) : exec (.debounceExpiry i .gateClosed) s
      = .next (if (s.closeEnded i).stage i = .closing then ownCloseTaken react i (s.closeEnded i)
        else if (s.closeEnded i).stage i = .bound ∧ ((s.closeEnded i).context i).phase = .closing then
          followerCloseTaken react i (s.closeEnded i)
        else closesEnded react ((s.closeEnded i).ownerOf i) (s.closeEnded i)) := by
  have hgate : (updateLine i .gateClosed (fun l => { l with taken := true, timer := none }) s).gate i = s.gate i :=
    ((Becomes.refl i none s).taking .gateClosed true).gate
  have htakes : (s.gate i).takesClosed = true := by
    unfold GateUnit.takesClosed
    rw [hf, ho]; rfl
  rw [exec_debounceExpiry hd]
  unfold takeChange deliverChange; dsimp only
  unfold gateClosedPresent
  rw [if_pos rfl, hgate, if_pos htakes]
  rfl

/-- R24, R34: the close of a gate that has not failed is followed by its hold. -/
theorem closeEnded_held {i : SpoutId} {s : State} (hr : (s.gate i).retry = none) : s.closeEnded i
    = ((s.updateField i fun g => g.taking .gateClosed true).updateGate i fun g =>
        { g with close := none, hold := some 500 }).updateCompartment i fun x => { x with closeAwaited := false } := by
  have hgate : (s.updateField i fun g => g.taking .gateClosed true).gate i = s.gate i :=
    ((Becomes.refl i none s).taking .gateClosed true).gate
  have hupdate : (s.updateField i fun g => g.taking .gateClosed true).updateGate i GateUnit.closedTaken
      = (s.updateField i fun g => g.taking .gateClosed true).updateGate i fun g =>
        { g with close := none, hold := some 500 } :=
    State.updateGate_congr (by
      unfold GateUnit.closedTaken
      rw [hgate, hr]; rfl)
  rw [← hupdate]; rfl

section ResetClose

variable {o : SpoutId} {s : State} (ht : s.isTwin o = true) (he : o.val % 2 = 0) (hm : (s.order o).mark = .reset)
include ht he hm

/-- R64: the leader's close is taken under a soft reset. -/
theorem ownCloseTaken_reset (k : Reaction) : ownCloseTaken k o s
    = if s.isBound (followerOf o) then leaderWaits o s else finishCompartment k o false (leaderWaits o s) := by
  have hwaits := (BothBecome.refl (followerOf_ne he) none s).leaderWaits
  have hbound : (leaderWaits o s).isBound (followerOf o) = s.isBound (followerOf o) := hwaits.atSecond.isBound
  have htwin : (leaderWaits o s).isTwin o = true := hwaits.atFirst.isTwin.trans ht
  have hmark : ((leaderWaits o s).order o).mark = .reset := (congrArg OrderState.mark hwaits.atFirst.order).trans hm
  unfold ownCloseTaken
  rw [if_pos hm, ht, if_pos rfl]
  unfold resetCloseEnded
  rw [if_pos rfl]
  unfold resetCheck
  rw [hbound]
  by_cases hb : s.isBound (followerOf o) = true
  · rw [if_pos hb, if_neg fun c => c.2.2.2 hb]
  · rw [if_neg hb, if_pos ⟨htwin, hmark, hwaits.atFirst.stage, hb⟩]

/-- R64: the follower's close is taken under a soft reset. -/
theorem followerCloseTaken_reset (k : Reaction) :
    let u := leaveBound (followerOf o) (endIntegration (followerOf o) s)
    followerCloseTaken k (followerOf o) s = if s.stage o = .settling then finishCompartment k o false u else u := by
  intro u
  have hfreed := (BothBecome.refl (followerOf_ne he) none s).freed
  have hreset : s.pairReset (leaderOf (followerOf o)) = true := by
    unfold State.pairReset
    rw [leaderOf_followerOf he, hm]; rfl
  unfold followerCloseTaken; dsimp only
  rw [hreset, if_pos rfl, leaderOf_followerOf he]
  unfold resetCloseEnded
  rw [if_neg (followerOf_ne he)]
  unfold resetCheck
  by_cases hs : s.stage o = .settling
  · rw [if_pos hs]
    exact if_pos ⟨hfreed.atFirst.isTwin.trans ht, (congrArg OrderState.mark hfreed.atFirst.order).trans hm,
      hfreed.atFirst.stage.trans hs, by rw [hfreed.atSecond.isBound]; exact Bool.false_ne_true⟩
  · rw [if_neg hs]
    exact if_neg fun c => hs (hfreed.atFirst.stage.symm.trans c.2.2.1)

end ResetClose

/-! ## A claim still pending (R53) -/

/-- R51, R117: the reset of a context that leads no TWIN leaves the claim on it. -/
theorem claim_softResetContext {i : SpoutId} {s : State} (ht : s.isTwin i = false) :
    ((softResetContext i s).context i).claim = (s.context i).claim := by
  have hrest (u : State) (htwin : u.isTwin i = false) : ((resetRest i u).context i).claim = (u.context i).claim := by
    have horder : (u.order i).twin = false := htwin
    unfold resetRest; dsimp only
    rw [horder, if_neg Bool.false_ne_true]
    cases (u.context i).slot with
    | none => exact (congrArg (fun p => p.context.claim) (spout_restContext i u) :)
    | some n =>
      exact (congrArg (fun p => p.context.claim) (spout_restContext i _)).trans (congrArg (fun p => p.context.claim)
        (((sameButMemory_closeEntries n (u.order i).count (u.order i).total u).trans ⟨_, rfl⟩).spout i))
  have hmarked : Becomes i none (s.spout i).resetMarked s.port s (markReset i s) := (Becomes.refl i none s).updateOrder _
  have hmarkedRest : ((resetRest i (markReset i s)).context i).claim = (s.context i).claim :=
    (hrest _ (hmarked.isTwin.trans ht)).trans (congrArg (fun c => c.claim) hmarked.context :)
  have hcut : ((cut i (some .reset) (markReset i s)).context i).claim = (s.context i).claim := by
    refine (congrArg (fun c => c.claim) (hmarked.cut ht (some .reset)).context).trans ?_
    show ((s.spout i).resetMarked.context.cutGate _).claim = _
    unfold Context.cutGate; split <;> rfl
  have hcaused := becomes_setResetCause i s
  have htwin : (setResetCause i (markReset i s)).isTwin i = false := hcaused.isTwin.trans ht
  unfold softResetContext
  cases s.stage i with
  | idle => rfl
  | bound => rfl
  | waitIndex => exact hmarkedRest
  | engaging => exact hmarkedRest
  | releasing => exact hmarkedRest
  | zeroing =>
    have hentry : (resetEntry i (markReset i s)).spout i = (markReset i s).spout i := by
      unfold resetEntry; split <;> rfl
    exact (hrest _ ((congrArg (fun p => p.context.order.twin) hentry).trans (hmarked.isTwin.trans ht))).trans
      ((congrArg (fun p => p.context.claim) hentry).trans (congrArg (fun c => c.claim) hmarked.context :))
  | zeroRun => exact (congrArg (fun p => p.context.claim) (spout_restContext i s) :)
  | opening => exact hcut
  | coarse => exact hcut
  | fine => exact hcut
  | trim => exact hcut
  | closing =>
    dsimp only
    rw [htwin, Bool.false_and, if_neg Bool.false_ne_true]
    exact (congrArg (fun c => c.claim) hcaused.context :)
  | settling =>
    dsimp only
    rw [htwin, if_neg Bool.false_ne_true]
    obtain ⟨final, hfinish⟩ := finishCompartment_markedReset react (mark_setResetCause_markReset i s)
    have htaken := context_finalTaken i i (setResetCause i (markReset i s))
    have hclaimed : ((finalTaken i (setResetCause i (markReset i s))).context i).claim = (s.context i).claim :=
      (congrArg (fun c => c.claim) htaken).trans (congrArg (fun c => c.claim) hcaused.context)
    have hsingle : (finalTaken i (setResetCause i (markReset i s))).isTwin i = false :=
      (congrArg (fun c => c.order.twin) htaken).trans htwin
    rw [hfinish]
    generalize finalTaken i (setResetCause i (markReset i s)) = v at *
    have hrecord := context_recordedAs i .reset final v
    have htwinr : (recordedAs i .reset final v).isTwin i = false := (congrArg (fun c => c.order.twin) hrecord).trans hsingle
    exact (hrest _ htwinr).trans ((congrArg (fun c => c.claim) hrecord).trans hclaimed)

/-- R53, R64, R117: a TWIN whose claim is still pending ends, and its claim is withdrawn. -/
theorem softResetPair_pending {o : SpoutId} {n : SlotId} {p r : Spout} {s : State} (heven : o.val % 2 = 0)
    (hb : BothBecome o (followerOf o) (some n) p r s.port s s) (hm : s.memory.wf = true) (hslot : p.context.slot = some n)
    (ht : p.context.order.twin = true) (hc : p.context.order.count ≤ 12) (hs : p.context.stage = .waitIndex)
    (hf : r.context.stage ≠ .bound) (hrt : r.context.order.twin = false) (hapart : s.WritesApart (followerOf o) (· = n)) :
    (softResetPair o s).spout o = p.resting ∧ ((softResetPair o s).context (followerOf o)).claim = none
      ∧ s.SlotClosed n p.context.order.count p.context.order.total (s.slotStateByte n) 7 (softResetPair o s) := by
  have hmarked := hb.resetMarked
  have hrested := hmarked.resetRest hm hslot ht hc
  rw [if_neg hf] at hrested
  have hmet : softResetContext o s = resetRest o (markReset o s) := by
    unfold softResetContext
    rw [hb.atFirst.stage, hs]
  have hclosed := slotClosed_resetRest_any (hmarked.wf hm) ((congrArg (fun c => c.slot) hmarked.atFirst.context).trans hslot)
    (by rw [hmarked.atFirst.order]; exact hc)
  rw [hmarked.atFirst.order] at hclosed
  rw [← hmet] at hrested hclosed
  have hfree : s.isBound (followerOf o) = false := hb.atSecond.isBound.trans (beq_eq_false_iff_ne.2 hf)
  have hspares := spares_softResetSecond heven fun _ => hapart
  have hleader := (spout_softResetSecond heven (s := s)).trans hrested.first
  have hclaim : ((softResetSecond (followerOf o) (s.isBound (followerOf o)) (softResetContext o s)).context (followerOf o)).claim
      = none := by
    unfold softResetSecond
    rw [hfree, if_neg Bool.false_ne_true, claim_softResetContext (hrested.atSecond.isTwin.trans hrt)]
    exact (congrArg (fun c => c.claim) hrested.atSecond.context :)
  have hcheck : softResetPair o s = softResetSecond (followerOf o) (s.isBound (followerOf o)) (softResetContext o s) := by
    have htwin : (softResetSecond (followerOf o) (s.isBound (followerOf o)) (softResetContext o s)).isTwin o = false :=
      congrArg (fun p => p.context.order.twin) hleader
    rw [softResetPair_eq]
    unfold resetCheck
    rw [htwin, if_neg fun c => Bool.false_ne_true c.1]
  have hmemory : SameSlot n s (markReset o s) := fun _ _ => rfl
  rw [hcheck]
  exact ⟨hleader, hclaim, (hclosed.after hc (hspares.slots n rfl)).before hc hmemory⟩

end Sys2Proof.Machine

/-! The statement on the soft reset of a TWIN (R53, R64, R98, R117, R175). -/

namespace Sys2Proof.Machine

/-! ## The clauses -/

/-- R117: the slot of the pair stays RUNNING, and the masses stay, whatever the stage. -/
theorem State.PairIsReset.kept {o : SpoutId} {n : SlotId} {s u t : State} (h : s.PairIsReset o n u t) (hl : s.WorkLawful)
    (hp : s.pair o) : t.slotStateByte n = s.slotStateByte n ∧ (t.channel o).delivered = (s.channel o).delivered
      ∧ (t.channel (followerOf o)).delivered = (s.channel (followerOf o)).delivered := by
  have hbehind {r : Spout} (hf : t.ShowsAt (followerOf o) r.resetBehind) : (t.channel (followerOf o)).delivered
      = r.channel.delivered := hf.delivered.trans r.delivered_resetBehind
  obtain hs | hs | hs | ⟨hs, hw⟩ | hs := stage_of_pair hl hp
  · obtain ⟨hleader, hfollower, hstate, -⟩ := h.rests (by tauto)
    exact ⟨hstate, hleader.delivered, hbehind hfollower⟩
  · obtain ⟨hleader, hfollower, hstate, -⟩ := h.rests (.inr (.inr (.inl hs)))
    exact ⟨hstate, hleader.delivered, hbehind hfollower⟩
  · obtain ⟨hleader, hfollower, hstate⟩ := h.opens hs
    refine ⟨hstate, hleader.delivered, (hbehind hfollower).trans ?_⟩
    rw [(s.spout (followerOf o)).cutBehind_kept.2.1]; rfl
  · obtain ⟨hleader, hfollower, hstate⟩ := h.closes hs hw
    exact ⟨hstate, hleader.delivered, hbehind hfollower⟩
  · by_cases hc : (s.context (followerOf o)).phase = .closing
    · obtain ⟨hleader, hfollower, hstate⟩ := h.waits hs hc
      exact ⟨hstate, hleader.delivered, hfollower.delivered⟩
    · obtain ⟨final, hleader, hfollower, hstate, -⟩ := h.ends hs hc
      exact ⟨hstate, hleader.delivered, hfollower.delivered⟩

/-- R64: a follower by its phase, on its leader's reset. -/
theorem State.ShowsAt.ofResetBehind {f : SpoutId} {r : Spout} {t : State} (h : t.ShowsAt f r.resetBehind) :
    (r.context.phase ≠ .closing → t.isFreed f) ∧ (r.context.phase = .closing → t.ShowsAt f r) := by
  unfold Spout.resetBehind at h
  refine ⟨fun hc => ?_, fun hc => ?_⟩
  · rw [if_neg hc] at h; exact h.isFreed
  · rw [if_pos hc] at h; exact h

/-- R49, R64: the open stage of a pair, cut with cause RESET. -/
theorem State.PairIsReset.isCut {o : SpoutId} {n : SlotId} {s u t : State} (h : s.PairIsReset o n u t) (hp : s.pair o)
    (hs : (s.stage o).isOpen = true) (hg : (s.gate o).isOpen = true) :
    let f := followerOf o
    let phase := (s.context f).phase
    t.stage o = .closing ∧ t.gateIsCut o ∧ (t.order o).mark = .reset
      ∧ (t.compartment o).cause = some ((s.compartment o).cause.getD .reset)
      ∧ ((s.gate f).isOpen = true → t.gateIsCut f ∧ t.stage f = .bound ∧ (t.context f).phase = .closing)
      ∧ ((s.gate f).isOpen = false → phase = .closing → t.stage f = .bound ∧ t.gate f = s.gate f)
      ∧ ((s.gate f).isOpen = false → phase = .settling ∨ phase = .settled → t.isFreed f) := by
  intro f phase
  obtain ⟨hleader, hfollower, -⟩ := h.opens hs
  have hcut : ((s.spout o).resetMarked.cut (some .reset)).context = { s.context o with
      gate := (s.gate o).cut (s.spout o).closeTime, stage := .closing, order := { s.order o with mark := .reset }
      compartment := { s.compartment o with closeAwaited := true }.setCause (some .reset) } :=
    Context.cut_open (c := { s.context o with order := { s.order o with mark := .reset } }) hg (s.spout o).closeTime (some .reset)
  have hcompartment := hleader.compartment.trans (congrArg (fun c => c.compartment) hcut)
  rw [Compartment.setCause_some] at hcompartment
  refine ⟨hleader.stage.trans (congrArg (fun c => c.stage) hcut),
    hleader.gateIsCut (congrArg (fun c => c.gate) hcut) hp.hasProfile,
    (congrArg OrderState.mark (hleader.order.trans (congrArg (fun c => c.order) hcut)) :),
    (congrArg Compartment.cause hcompartment :), fun hgf => ?_, fun hgf hc => ?_, fun hgf hc => ?_⟩
  · have hbehind := Spout.cutBehind_open (r := s.spout f) hgf
    have hshown := hfollower.ofResetBehind.2 (congrArg (fun c => c.phase) hbehind)
    have hkept : (s.spout f).cutBehind.closeTime = (s.spout f).closeTime := by
      unfold Spout.closeTime
      rw [(s.spout f).cutBehind_kept.2.2]
    exact ⟨hshown.gateIsCut ((congrArg (fun c => c.gate) hbehind).trans (by rw [hkept])) (by
        rw [(s.spout f).cutBehind_kept.2.2]; exact hp.hasProfile_follower),
      hshown.stage.trans ((congrArg (fun c => c.stage) hbehind).trans hp.stage_follower),
      (congrArg (fun c => c.phase) hshown.context).trans (congrArg (fun c => c.phase) hbehind)⟩
  · rw [Spout.cutBehind_shut (r := s.spout f) hgf] at hfollower
    have hshown := hfollower.ofResetBehind.2 hc
    exact ⟨hshown.stage.trans hp.stage_follower, hshown.gate⟩
  · rw [Spout.cutBehind_shut (r := s.spout f) hgf] at hfollower
    exact hfollower.ofResetBehind.1 fun e => by obtain e' | e' := hc <;> cases e.symm.trans e'

/-- R36, R64: a sample of a leader that waits in SETTLING reaches its channel alone. -/
theorem deliverSample_waiting (k : Reaction) {o : SpoutId} (x : Sample) {s : State} (hb : s.isBound o = false)
    (hs : s.stage o = .settling) (hn : (s.compartment o).noSettle = true) (hc : (s.calibration o).capture = .none)
    (ht : (s.gate o).starve = none) : deliverSample k o x s = channelSample o x s := by
  have hu := becomes_channelSample o x s
  have hstage : (channelSample o x s).stage o = .settling := hu.stage.trans hs
  have hsettle : ((channelSample o x s).compartment o).noSettle = true := (congrArg (fun c => c.noSettle) hu.compartment).trans hn
  have hstarve : restartStarve o (channelSample o x s) = channelSample o x s := by
    unfold restartStarve; dsimp only
    rw [show _ = none from (congrArg (fun g => g.starve) hu.gate).trans ht]
    exact if_neg Bool.false_ne_true
  have hbound : (channelSample o x s).isBound o = false := hu.isBound.trans hb
  unfold deliverSample; dsimp only
  rw [if_pos hc, hbound, if_neg Bool.false_ne_true]
  unfold ownSample
  rw [hstage, hsettle, hstarve, evaluateFeed_settling hstage, if_neg (by rintro ⟨⟩), if_neg fun c => c.2 rfl]

/-- R53: a soft reset ends a TWIN whose claim is still pending. -/
theorem softReset_pending {o : SpoutId} {n : SlotId} {s : State} (hl : s.WorkLawful) (hx : s.port.exchange = .running)
    (hp : s.claimPending o = true) (hslot : (s.context o).slot = some n) (hs : s.stage o = .waitIndex) :
    ∃ t, exec .softReset s = .next t ∧ t.atRest o ∧ (t.context (followerOf o)).claim = none
      ∧ t.slotStateByte n = 3 ∧ t.slotU8 n 3 = 7 ∧ t.queue o = s.queue o ∧ t.gate o = s.gate o
      ∧ (∀ e ∈ List.range (s.order o).count, t.entryCode n e = if s.entryCode n e = 0 then 21 else s.entryCode n e) := by
  have hpending := hp
  unfold State.claimPending at hpending
  rw [Bool.and_eq_true, Bool.not_eq_true'] at hpending
  obtain ⟨htwin, hfree⟩ := hpending
  have heven := hl.contexts.twin o htwin
  have hbound : s.isBound o = false := beq_eq_false_iff_ne.2 (by rw [hs]; decide)
  have hapart {c : SpoutId} (hc : c ≠ o) (hpair : s.isBound c = true → leaderOf c ≠ o) : s.WritesApart c (· = n) :=
    writesApart_of_runs hl hx hbound hslot hc hpair
  have hodd : s.isTwin (followerOf o) = false := Bool.eq_false_iff.2 fun e => by
    have hne := (by decide : ∀ o : SpoutId, o.val % 2 = 0 → (followerOf o).val % 2 ≠ 0) o heven
    exact hne (hl.contexts.twin _ e)
  obtain ⟨t, u, hexec, hbefore, hleader, hfollower, hslots⟩ := exec_softReset_pair heven hx (N := (· = n)) fun c hc =>
    hapart (fun e => hc (by rw [e]; exact leaderOf_of_even heven)) fun _ => hc
  have hboth := BothBecome.refl (followerOf_ne heven) (some n) u
  rw [hbefore.leader, hbefore.follower] at hboth
  have hwrites : u.WritesApart (followerOf o) (· = n) :=
    (hapart (followerOf_ne heven) fun e => by rw [hfree] at e; cases e).of_unclaimed (congrArg Spout.unclaimed hbefore.follower)
      hbefore.wf
  obtain ⟨hrested, hclaim, hclosed⟩ := softResetPair_pending heven hboth (hbefore.wf hl.memory) hslot htwin (hl.contexts.count o).1 hs
    (beq_eq_false_iff_ne.1 hfree) hodd hwrites
  rw [hrested] at hleader
  have hcount := (hl.contexts.count o).1
  have hended := (hclosed.after hcount (hslots n rfl)).before hcount (hbefore.slots n rfl)
  exact ⟨t, hexec, hleader.atRest, (congrArg (fun c => c.claim) hfollower.context).trans hclaim,
    hended.slotState.trans ((hbefore.slots n rfl).slotStateByte.trans (hl.slots.current o n hslot)), hended.result, hleader.queue,
    hleader.gate, fun e he => hended.codes e (List.mem_range.1 he)⟩

/-- Settles O49: the pair meets its own reset alone (`exec_softReset_bound`), and shows it by the stage of its leader. -/
theorem twinUnderSoftReset : Obligations.TwinUnderSoftReset := by
  unfold Obligations.TwinUnderSoftReset
  refine ⟨fun o n s hl hx hp hslot => ?_, fun o m s ht he hb hm hpair hd ho hr hf => ?_,
    fun o x s hb hs hn hc ht => deliverSample_waiting react x hb hs hn hc ht,
    fun o n s hl hx hp hslot hs => softReset_pending hl hx hp hslot hs⟩
  · intro f phase freed
    obtain ⟨t, u, hexec, h⟩ := exec_softReset_bound hl hx hp hslot
    obtain ⟨hstate, hmass, hmassf⟩ := h.kept hl hp
    refine ⟨t, hexec, hstate.trans (hl.slots.current o n hslot), hmass, hmassf, fun hs => ?_, fun hs => ?_, fun hs hw => ?_,
      fun hs hc => ?_, fun hs hc hopened htrims hd => ?_⟩
    · obtain ⟨hleader, hfollower, -, hresult, hcodes⟩ := h.rests hs
      exact ⟨hleader.atRest, hresult, hfollower.ofResetBehind.1, hcodes, fun hc =>
        have hshown := hfollower.ofResetBehind.2 hc
        ⟨hshown.stage.trans hp.stage_follower, (congrArg (fun c => c.phase) hshown.context).trans hc⟩⟩
    · exact h.isCut hp hs (hl.gates.openStage o hs).1
    · obtain ⟨hleader, hfollower, -⟩ := h.closes hs hw
      refine ⟨hleader.stage.trans hs, hleader.gate, (congrArg OrderState.mark hleader.order :), ?_, fun hc => ?_, fun hc => ?_⟩
      · rw [hleader.compartment]
        show ((s.compartment o).setCause (some .reset)).cause = _
        rw [Compartment.setCause_some]
      · have hshown := hfollower.ofResetBehind.2 hc
        exact ⟨hshown.stage.trans hp.stage_follower, hshown.gate⟩
      · exact hfollower.ofResetBehind.1 fun e => by obtain e' | e' := hc <;> cases e.symm.trans e'
    · obtain ⟨hleader, hfollower, -⟩ := h.waits hs hc
      exact ⟨hleader.stage, hleader.gate, (congrArg (fun c => c.noSettle) hleader.compartment :),
        (congrArg (fun c => c.integrating) hleader.channel :), hfollower.stage.trans hp.stage_follower, hfollower.gate,
        (congrArg OrderState.mark hleader.order :)⟩
    · obtain ⟨final, hleader, hfollower, -, hresult, hshows⟩ := h.ends hs hc
      exact ⟨hleader.atRest, hfollower.isFreed, (congrArg (fun c => c.integrating) hleader.channel :), hresult,
        hshows hopened htrims hd⟩
  · intro f closed frozen
    have hexec := exec_closeTaken hd ho hf
    have hclosed : s.closeEnded m = closed := closeEnded_held hr
    have hended := becomes_closeEnded m none s
    rw [hclosed] at hexec hended
    refine ⟨fun e hs => ?_, fun e hbf hphase => ?_⟩
    · subst e
      intro u
      have hfollower : closed.isBound f = s.isBound f :=
        congrArg (fun p : Spout => p.context.stage == .bound) (hended.others f (followerOf_ne he))
      rw [hexec, if_pos (hended.stage.trans hs), ownCloseTaken_reset (hended.isTwin.trans ht) he
        ((congrArg OrderState.mark hended.order).trans hm), hfollower]
      rfl
    · subst e
      intro u
      have hleader : closed.spout o = s.spout o := hended.others o (followerOf_ne he).symm
      have hstage : closed.stage f = .bound := hended.stage.trans (beq_iff_eq.1 hbf)
      rw [hexec, if_neg (by rw [hstage]; decide),
        if_pos ⟨hstage, (congrArg (fun c => c.phase) hended.context).trans hphase⟩,
        followerCloseTaken_reset ((congrArg (fun p => p.context.order.twin) hleader).trans ht) he
          ((congrArg (fun p => p.context.order.mark) hleader).trans hm),
        show closed.stage o = s.stage o from congrArg (fun p => p.context.stage) hleader]
      rfl

end Sys2Proof.Machine

/-! Events that forbid metering on a pair (R57, R62): the cut of both spouts, whichever of them the event is on. -/

namespace Sys2Proof.Machine

/-! ## A pair whose fields and positioners may have moved -/

/-- The spouts differ in their field and their positioner at most. -/
structure Spout.WorksAs (p p' : Spout) : Prop where
  context : p'.context = p.context
  channel : p'.channel = p.channel
  calibration : p'.calibration = p.calibration

namespace Spout.WorksAs

variable {p p' : Spout} (h : p.WorksAs p')
include h

theorem closeTime : p'.closeTime = p.closeTime := by
  unfold Spout.closeTime
  rw [h.calibration]

theorem cut (reason : Option Code) : (p.cut reason).WorksAs (p'.cut reason) where
  context := by
    show p'.context.cut p'.closeTime reason = p.context.cut p.closeTime reason
    rw [h.context, h.closeTime]
  channel := h.channel
  calibration := h.calibration

theorem cutBehind : p.cutBehind.WorksAs p'.cutBehind := by
  cases hg : p.context.gate.isOpen with
  | true =>
    have hg' : p'.context.gate.isOpen = true := by rw [h.context]; exact hg
    obtain ⟨-, hchannel, hcalibration⟩ := p.cutBehind_kept
    obtain ⟨-, hchannel', hcalibration'⟩ := p'.cutBehind_kept
    refine ⟨?_, hchannel'.trans (h.channel.trans hchannel.symm), hcalibration'.trans (h.calibration.trans hcalibration.symm)⟩
    rw [Spout.cutBehind_open hg, Spout.cutBehind_open hg', h.context, h.closeTime]
  | false =>
    rw [Spout.cutBehind_shut hg, Spout.cutBehind_shut (by rw [h.context]; exact hg)]
    exact h

end Spout.WorksAs

theorem Spout.field_cutBehind (r : Spout) : r.cutBehind.field = r.field := by
  unfold Spout.cutBehind; split <;> rfl

/-- In `t` the pair works as `p` and `r`; of all the rest of `s`, memory below the slots alone may be written. -/
def PairActs (o : SpoutId) (p r : Spout) (s t : State) : Prop :=
  ∃ p' r', BothBecome o (followerOf o) none p' r' s.port s t ∧ p.WorksAs p' ∧ r.WorksAs r'

namespace PairActs

variable {o i : SpoutId} {p r : Spout} {s t u : State}

theorem refl (hne : followerOf o ≠ o) (s : State) : PairActs o (s.spout o) (s.spout (followerOf o)) s s :=
  ⟨_, _, .refl hne none s, ⟨rfl, rfl, rfl⟩, ⟨rfl, rfl, rfl⟩⟩

/-- A field or a positioner of the pair moves. -/
theorem step (h : PairActs o p r s t) (hi : i = o ∨ i = followerOf o) {x : Spout} (hu : Becomes i none x t.port t u)
    (hx : (t.spout i).WorksAs x) : PairActs o p r s u := by
  obtain ⟨p', r', hboth, hp, hr⟩ := h
  rw [hboth.port] at hu
  obtain rfl | rfl := hi
  · rw [hboth.first] at hx
    exact ⟨x, r', hboth.onFirst hu, ⟨hx.context.trans hp.context, hx.channel.trans hp.channel,
      hx.calibration.trans hp.calibration⟩, hr⟩
  · rw [hboth.second] at hx
    exact ⟨p', x, hboth.onSecond hu, hp, hx.context.trans hr.context, hx.channel.trans hr.channel,
      hx.calibration.trans hr.calibration⟩

theorem context_first (h : PairActs o p r s t) : t.context o = p.context := by
  obtain ⟨p', r', hboth, hp, -⟩ := h
  exact hboth.atFirst.context.trans hp.context

theorem context_second (h : PairActs o p r s t) : t.context (followerOf o) = r.context := by
  obtain ⟨p', r', hboth, -, hr⟩ := h
  exact hboth.atSecond.context.trans hr.context

theorem cut (h : PairActs o p r s t) (ht : p.context.order.twin = true) (hb : r.context.stage = .bound) (reason : Option Code) :
    PairActs o (p.cut reason) r.cutBehind s (cut o reason t) := by
  obtain ⟨p', r', hboth, hp, hr⟩ := h
  exact ⟨_, _, hboth.cut (by rw [hp.context]; exact ht) (by rw [hr.context]; exact hb) reason, hp.cut reason, hr.cutBehind⟩

/-- R41, R43, R44: an interlock of an open stage other than LEVEL_HIGH. -/
theorem interlock (h : PairActs o p r s t) (ht : p.context.order.twin = true) (hb : r.context.stage = .bound)
    (ho : p.context.stage.isOpen = true) (code : Code) :
    PairActs o (p.cut (some code)) r.cutBehind s (interlock o code t) := by
  have hopen : (t.stage o).isOpen = true := (congrArg (fun c => c.stage.isOpen) h.context_first).trans ho
  unfold Machine.interlock
  rw [if_pos hopen]
  exact h.cut ht hb _

/-- R42: LEVEL_HIGH taken present in an open stage. -/
theorem levelInterlock (h : PairActs o p r s t) (ht : p.context.order.twin = true) (hb : r.context.stage = .bound)
    (ho : p.context.stage.isOpen = true) : PairActs o (p.cut (some .level)) r.cutBehind s (levelInterlock o t) := by
  have hopen : (t.stage o).isOpen = true := (congrArg (fun c => c.stage.isOpen) h.context_first).trans ho
  unfold Machine.levelInterlock
  rw [if_pos hopen]
  exact h.cut ht hb _

end PairActs

/-! ## The spout that the event is on -/

/-- R52: each spout of a pair works for its leader. -/
theorem State.pair.ownerOf_member {o m : SpoutId} {s : State} (h : s.pair o) (hm : m = o ∨ m = followerOf o) :
    s.ownerOf m = o := by
  unfold State.ownerOf
  obtain rfl | rfl := hm
  · rw [h.isBound_leader, if_neg Bool.false_ne_true]
  · rw [h.isBound, if_pos rfl]
    exact h.leaderOf_follower

theorem State.ownerOf_congr {i : SpoutId} {s t : State} (h : t.isBound i = s.isBound i) : t.ownerOf i = s.ownerOf i := by
  unfold State.ownerOf
  rw [h]

/-- What moves neither a context nor its slot moves no owner. -/
theorem Becomes.ownerOf_kept {i : SpoutId} {w : Option SlotId} {p : Spout} {q : Port} {s t : State} (h : Becomes i w p q s t)
    (hp : (s.spout i).WorksAs p) : t.ownerOf i = s.ownerOf i :=
  State.ownerOf_congr (h.isBound.trans (congrArg (fun c => c.stage == .bound) hp.context))

/-- R130, R131: the raise of a spout whose lower switch is absent moves its positioner alone, while the context it works for is not
in RELEASING. -/
theorem testRaised_moves_of {i : SpoutId} {t : State} (hl : t.present i .spoutLowered = false)
    (hr : t.stage (t.ownerOf i) ≠ .releasing) :
    ∃ f, Becomes i none ((t.spout i).onPositioner f) t.port t (testRaised react i t) := by
  have hrefl := Becomes.refl i none t
  unfold testRaised; dsimp only; split
  · have harrived := hrefl.updatePosition fun x => { x.arrive .released with engageWaiting := false }
    split
    · exact ⟨fun x => { x.arrive .released with
        engageWaiting := false, drive := .lower, travel := some (t.spout i).travelTime, position := .lowering },
        harrived.beginLower.testLowered_above react hl⟩
    · have hstage : ∀ j, (Machine.updatePosition i (fun x => { x.arrive .released with engageWaiting := false }) t).stage j
          = t.stage j := by
        intro j
        by_cases hj : j = i
        · subst hj; exact harrived.stage
        · exact congrArg (fun p => p.context.stage) (harrived.others j hj)
      rw [react_released, onReleased_of_stage_ne _ (by rw [harrived.ownerOf_kept ⟨rfl, rfl, rfl⟩, hstage]; exact hr)]
      exact ⟨_, harrived⟩
  · exact ⟨id, hrefl⟩

/-! ## The events -/

section Events

variable {o m : SpoutId} {s : State} (h : s.pair o) (hm : m = o ∨ m = followerOf o) (ho : (s.stage o).isOpen = true)
include h hm

include ho

theorem exec_pair_permitLost (hl : s.port.linesLive = true) (hi : (s.line m .permit).initiallyTaken = true)
    (hp : s.present m .permit = true) : ∃ t, exec (.inputChange m .permit false) s = .next t
      ∧ PairActs o ((s.spout o).cut (some .permitLost)) (s.spout (followerOf o)).cutBehind s t := by
  have hwired := (Becomes.refl m none s).updateLine .permit fun l => { l with wired := false }
  have htaken := hwired.taking .permit false
  have hacts := (PairActs.refl h.apart s).step hm htaken ⟨rfl, rfl, rfl⟩
  have howner := (htaken.ownerOf_kept ⟨rfl, rfl, rfl⟩).trans (h.ownerOf_member hm)
  refine ⟨_, exec_inputChange_atOnce hl hi hp rfl, ?_⟩
  unfold takeChange deliverChange; dsimp only
  rw [if_neg Bool.false_ne_true, howner]
  exact hacts.interlock h.isTwin h.stage_follower ho _

theorem exec_pair_levelHigh (hl : s.port.linesLive = true) (hi : (s.line m .levelHigh).initiallyTaken = true)
    (hp : s.present m .levelHigh = false) : ∃ t, exec (.inputChange m .levelHigh true) s = .next t
      ∧ PairActs o ((s.spout o).cut (some .level)) (s.spout (followerOf o)).cutBehind s t := by
  have hwired := (Becomes.refl m none s).updateLine .levelHigh fun l => { l with wired := true }
  have htaken := hwired.taking .levelHigh true
  have hacts := (PairActs.refl h.apart s).step hm htaken ⟨rfl, rfl, rfl⟩
  have howner := (htaken.ownerOf_kept ⟨rfl, rfl, rfl⟩).trans (h.ownerOf_member hm)
  refine ⟨_, exec_inputChange_atOnce hl hi hp rfl, ?_⟩
  unfold takeChange deliverChange; dsimp only
  rw [if_pos rfl, howner]
  exact hacts.levelInterlock h.isTwin h.stage_follower ho

/-- R44: INDEX_READY is the leader's. -/
theorem exec_pair_vehicleMoved (hd : s.changeDue m .indexReady false) (hb : s.isBound m = false) :
    ∃ t, exec (.debounceExpiry m .indexReady) s = .next t
      ∧ PairActs o ((s.spout o).cut (some .vehicleMoved)) (s.spout (followerOf o)).cutBehind s t := by
  obtain rfl : m = o := hm.resolve_right fun e => by rw [e, h.isBound] at hb; cases hb
  have hacts := (PairActs.refl h.apart s).step hm ((Becomes.refl m none s).taking .indexReady false) ⟨rfl, rfl, rfl⟩
  refine ⟨_, exec_debounceExpiry hd, ?_⟩
  unfold takeChange deliverChange; dsimp only
  have hlock := hacts.interlock h.isTwin h.stage_follower ho .vehicleMoved
  have hstage : ((updateLine m .indexReady (fun l => { l with taken := false, timer := none }) s).stage m).isOpen = true :=
    (congrArg (fun c => c.stage.isOpen) hacts.context_first).trans ho
  generalize updateLine m .indexReady (fun l => { l with taken := false, timer := none }) s = u at *
  unfold indexChange
  cases e : u.stage m with
  | opening | coarse | fine | trim | closing | settling => rw [if_neg Bool.false_ne_true]; exact hlock
  | _ => rw [e] at hstage; cases hstage

/-- R43, R62, R130: the pair is cut first, then the raise of the spout is tested. -/
theorem pairActs_loseSeat {x : Spout} {v : State} (hv : Becomes m none x s.port s v) (hx : (s.spout m).WorksAs x)
    (hl : x.field.spoutLowered.taken = false) :
    PairActs o ((s.spout o).cut (some .seatLost)) (s.spout (followerOf o)).cutBehind s (loseSeat m v) := by
  have hraise := hv.beginRaise
  have hacts := (PairActs.refl h.apart s).step hm hraise ⟨hx.context, hx.channel, hx.calibration⟩
  have howner := (hraise.ownerOf_kept ⟨hx.context, hx.channel, hx.calibration⟩).trans (h.ownerOf_member hm)
  have hlock := hacts.interlock h.isTwin h.stage_follower ho .seatLost
  have hlowered : (beginRaise m v).present m .spoutLowered = false := (hraise.present _).trans hl
  have hopen : ((beginRaise m v).stage o).isOpen = true := (congrArg (fun c => c.stage.isOpen) hacts.context_first).trans ho
  unfold loseSeat
  generalize beginRaise m v = u at *
  have hzero : u.stage o ≠ .zeroing := fun e => by rw [e] at hopen; cases hopen
  have hseat : seatLoss m u = interlock o .seatLost u := by
    unfold seatLoss; dsimp only
    rw [howner, if_neg hzero]
  have hafter : (interlock o .seatLost u).present m .spoutLowered = false := by
    have hcut := (BothBecome.refl h.apart none u).cut ((congrArg (fun c => c.order.twin) hacts.context_first).trans h.isTwin)
      ((congrArg (fun c => c.stage) hacts.context_second).trans h.stage_follower) (some .seatLost)
    unfold interlock
    rw [if_pos hopen]
    obtain rfl | rfl := hm
    · exact (hcut.atFirst.present _).trans hlowered
    · exact (hcut.atSecond.present _).trans ((congrArg (fun g => g.spoutLowered.taken) (u.spout (followerOf o)).field_cutBehind).trans
        hlowered)
  have hpair : (interlock o .seatLost u).stage o = .closing ∧ (interlock o .seatLost u).ownerOf m = o := by
    have hleader := congrArg (fun c => c.stage) hlock.context_first
    have hfollower := (congrArg (fun c => c.stage) hlock.context_second).trans
      ((s.spout (followerOf o)).cutBehind_kept.1.trans h.stage_follower)
    refine ⟨hleader, ?_⟩
    obtain rfl | rfl := hm
    · exact ownerOf_self fun e => by cases hleader.symm.trans e
    · exact (if_pos (beq_iff_eq.2 hfollower)).trans h.leaderOf_follower
  obtain ⟨f, hmoves⟩ := testRaised_moves_of hafter (by rw [hpair.2, hpair.1]; decide)
  rw [hseat]
  exact hlock.step hm hmoves ⟨rfl, rfl, rfl⟩

theorem exec_pair_seatLost (hd : s.changeDue m .spoutLowered false) (hp : (s.positioner m).position = .engaged) :
    ∃ t, exec (.debounceExpiry m .spoutLowered) s = .next t
      ∧ PairActs o ((s.spout o).cut (some .seatLost)) (s.spout (followerOf o)).cutBehind s t := by
  have htaken := (Becomes.refl m none s).taking .spoutLowered false
  have hposition : ((updateLine m .spoutLowered (fun l => { l with taken := false, timer := none }) s).positioner m).position
      = .engaged := (congrArg Positioner.position htaken.positioner).trans hp
  rw [exec_debounceExpiry hd]
  unfold takeChange deliverChange spoutLoweredChange; dsimp only
  rw [hposition]; dsimp only
  rw [if_neg Bool.false_ne_true]
  exact ⟨_, rfl, pairActs_loseSeat h hm ho htaken ⟨rfl, rfl, rfl⟩ rfl⟩

omit ho in
/-- R29, R32: the opening timer's expiry, and a second expiry of the starve timer. -/
theorem exec_pair_cutExpiry {c : Instr} {code : Code}
    (hc : (c = .openingTimerExpiry m ∧ code = .noOpen ∧ (s.gate m).opening.isSome = true)
      ∨ (c = .starveTimerExpiry m ∧ code = .noFlow ∧ (s.gate m).starve.isSome = true ∧ (s.compartment m).starveCount = 1)) :
    ∃ t, exec c s = .next t ∧ PairActs o ((s.spout o).cut (some code)) (s.spout (followerOf o)).cutBehind s t := by
  have howner := h.ownerOf_member hm
  have hcut (code : Code) := (PairActs.refl h.apart s).cut h.isTwin h.stage_follower (some code)
  obtain ⟨rfl, rfl, hopening⟩ | ⟨rfl, rfl, hstarve, hcount⟩ := hc
  · refine ⟨_, congrArg Host.Outcome.next (if_pos hopening), ?_⟩
    rw [howner]
    exact hcut _
  · refine ⟨_, congrArg Host.Outcome.next ((if_pos hstarve).trans (if_neg (by rw [hcount]; decide))), ?_⟩
    rw [howner]
    exact hcut _

include ho in
/-- Every event that cuts an open compartment, on either spout of the pair. -/
theorem exec_pair_cutEvent {c : Instr} {code : Code} (he : s.cutEvent c m code) :
    ∃ t, exec c s = .next t ∧ PairActs o ((s.spout o).cut (some code)) (s.spout (followerOf o)).cutBehind s t := by
  obtain ⟨rfl, rfl, hl, hi, hp⟩ | ⟨rfl, rfl, hl, hi, hp⟩ | ⟨rfl, rfl, hd, hp⟩ | ⟨rfl, rfl, hd, hb⟩ | hopening | hstarve := he
  · exact exec_pair_permitLost h hm ho hl hi hp
  · exact exec_pair_levelHigh h hm ho hl hi hp
  · exact exec_pair_seatLost h hm ho hd hp
  · exact exec_pair_vehicleMoved h hm ho hd hb
  · exact exec_pair_cutExpiry h hm (.inl hopening)
  · exact exec_pair_cutExpiry h hm (.inr hstarve)

end Events

/-! ## What the cut shows -/

section Shown

variable {o : SpoutId} {code : Code} {s t : State} (h : s.pair o) (hg : (s.gate o).isOpen = true)
  (hacts : PairActs o ((s.spout o).cut (some code)) (s.spout (followerOf o)).cutBehind s t)
include h hacts

theorem PairActs.stage_follower_cut : t.stage (followerOf o) = .bound :=
  (congrArg (fun c => c.stage) hacts.context_second).trans ((s.spout (followerOf o)).cutBehind_kept.1.trans h.stage_follower)

/-- R62: the follower's gate is closed if it is open. -/
theorem PairActs.follower_cut (hf : (s.gate (followerOf o)).isOpen = true) :
    t.gateIsCut (followerOf o) ∧ (t.context (followerOf o)).phase = .closing := by
  obtain ⟨p', r', hboth, -, hr⟩ := hacts
  have hcontext := hr.context
  rw [Spout.cutBehind_open hf] at hcontext
  have hprofile : r'.calibration = (s.spout (followerOf o)).calibration :=
    hr.calibration.trans (s.spout (followerOf o)).cutBehind_kept.2.2
  refine ⟨hboth.atSecond.gateIsCut (g := s.gate (followerOf o)) ?_ (by rw [hprofile]; exact h.hasProfile_follower), ?_⟩
  · unfold Spout.closeTime
    rw [hprofile, hcontext]; rfl
  · exact (congrArg (fun c => c.phase) (hboth.atSecond.context.trans hcontext) :)

include hg

/-- R57: the leader is cut with the cause. -/
theorem PairActs.leader_cut : t.stage o = .closing ∧ t.gateIsCut o
    ∧ (t.compartment o).cause = some ((s.compartment o).cause.getD code) := by
  obtain ⟨p', r', hboth, hp, -⟩ := hacts
  have hcontext : p'.context = (s.context o).cut (s.spout o).closeTime (some code) := hp.context
  rw [Context.cut_open hg, Compartment.setCause_some] at hcontext
  have hprofile : p'.calibration = (s.spout o).calibration := hp.calibration
  have ht := hboth.atFirst.context.trans hcontext
  refine ⟨(congrArg (fun c => c.stage) ht :), hboth.atFirst.gateIsCut (g := s.gate o) ?_ (by rw [hprofile]; exact h.hasProfile),
    (congrArg (fun c => c.compartment.cause) ht :)⟩
  unfold Spout.closeTime
  rw [hprofile, hcontext]; rfl

end Shown

/-- R57, R62: an event that cuts an open compartment, on either spout of a pair. -/
theorem interlocks_cut_pair {c : Instr} {o m : SpoutId} {code : Code} {s : State} (h : s.pair o)
    (hm : m = o ∨ m = followerOf o) (he : s.cutEvent c m code) (ho : (s.stage o).isOpen = true)
    (hg : (s.gate o).isOpen = true) : ∃ t, exec c s = .next t ∧ t.stage o = .closing ∧ t.stage (followerOf o) = .bound
      ∧ t.gateIsCut o ∧ (t.compartment o).cause = some ((s.compartment o).cause.getD code)
      ∧ ((s.gate (followerOf o)).isOpen = true → t.gateIsCut (followerOf o) ∧ (t.context (followerOf o)).phase = .closing)
      ∧ ((s.gate (followerOf o)).isOpen = false → t.context (followerOf o) = s.context (followerOf o))
      ∧ t.channel o = s.channel o ∧ t.channel (followerOf o) = s.channel (followerOf o) ∧ t.order o = s.order o
      ∧ (∀ j, j ≠ o → j ≠ followerOf o → t.spout j = s.spout j) ∧ t.port = s.port ∧ SameTables s t := by
  obtain ⟨t, hexec, hacts⟩ := exec_pair_cutEvent h hm ho he
  obtain ⟨hstage, hgate, hcause⟩ := hacts.leader_cut h hg
  have horder : t.order o = s.order o := by
    have hcontext := hacts.context_first
    have hcut : ((s.spout o).cut (some code)).context = (s.context o).cut (s.spout o).closeTime (some code) := rfl
    rw [hcut, Context.cut_open hg] at hcontext
    exact congrArg (fun c => c.order) hcontext
  refine ⟨t, hexec, hstage, hacts.stage_follower_cut h, hgate, hcause, hacts.follower_cut h, fun hf => ?_, ?_⟩
  · exact hacts.context_second.trans (congrArg Spout.context (Spout.cutBehind_shut (r := s.spout (followerOf o)) hf))
  · obtain ⟨p', r', hboth, hp, hr⟩ := hacts
    exact ⟨hboth.atFirst.channel.trans hp.channel, hboth.atSecond.channel.trans
      (hr.channel.trans (s.spout (followerOf o)).cutBehind_kept.2.1), horder, hboth.others, hboth.port, hboth.tables⟩

end Sys2Proof.Machine

/-! A sensor lost in a pair whose leader is in an open stage (R63): both spouts are cut, and the compartment waits for their closes. -/

namespace Sys2Proof.Machine

/-! ## The two spouts -/

namespace Spout

/-- R63: a compartment that is to end without settle. -/
def unsettled : Spout → Spout := Spout.onCompartment fun c => { c with noSettle := true }

/-- R63: the compartment waits for the spout's gate while it closes. -/
def awaits (p : Spout) : Spout :=
  if p.context.gate.isClosing then p.onCompartment fun c => { c with closeAwaited := true } else p

/-- R63: a follower that faults holds its phase by its gate. -/
def heldBehind (r : Spout) : Spout :=
  r.onContext fun c => { c with phase := if c.gate.isClosing then .closing else .settled }

theorem awaits_kept (p : Spout) : p.awaits.context = { p.context with
    compartment := { p.context.compartment with closeAwaited := p.context.compartment.closeAwaited || p.context.gate.isClosing } }
      ∧ p.awaits.channel = p.channel ∧ p.awaits.calibration = p.calibration := by
  unfold awaits
  cases h : p.context.gate.isClosing with
  | true => rw [if_pos rfl, Bool.or_true]; exact ⟨rfl, rfl, rfl⟩
  | false => rw [if_neg Bool.false_ne_true, Bool.or_false]; exact ⟨rfl, rfl, rfl⟩

/-- R33: the gate that a cut has found open is closing, where the spout has a profile. -/
theorem isClosing_cut {p : Spout} (hp : p.calibration.profileValid = true) (g : GateUnit) :
    (g.cut p.closeTime).isClosing = true := by
  have htime : p.closeTime = some p.calibration.profile.gateCloseTime := if_pos hp
  rw [htime]; rfl

end Spout

theorem Becomes.setCloseAwaited {i : SpoutId} {w : Option SlotId} {p : Spout} {q : Port} {s t : State} (h : Becomes i w p q s t) :
    Becomes i w p.awaits q s (if (t.gate i).isClosing then setCloseAwaited true i t else t) := by
  rw [h.gate]
  unfold Spout.awaits; split
  · exact h.updateCompartment fun c => { c with closeAwaited := true }
  · exact h

namespace BothBecome

variable {o m : SpoutId} {w : Option SlotId} {p r : Spout} {q : Port} {s t : State}

theorem awaitCloses (h : BothBecome o (followerOf o) w p r q s t) (ht : p.context.order.twin = true)
    (hb : r.context.stage = .bound) : BothBecome o (followerOf o) w p.awaits r.awaits q s (awaitCloses o t) := by
  have hleader := h.onFirst h.atFirst.setCloseAwaited
  unfold Machine.awaitCloses
  rw [h.forMembers ht hb]
  exact hleader.onSecond hleader.atSecond.setCloseAwaited

theorem holdFollower_leader (h : BothBecome o (followerOf o) w p r q s t) :
    BothBecome o (followerOf o) w p r q s (holdFollower o o t) := by
  unfold Machine.holdFollower Machine.setMemberPhase
  rw [if_pos rfl]; exact h

theorem holdFollower (h : BothBecome o (followerOf o) w p r q s t) :
    BothBecome o (followerOf o) w p r.heldBehind q s (holdFollower o (followerOf o) t) := by
  unfold Machine.holdFollower Machine.setMemberPhase
  rw [if_neg h.apart, h.atSecond.gate]
  exact h.onSecond (h.atSecond.setPhase _)

/-- R63: a compartment that waits for its leader's close goes on. -/
theorem closesEnded_waits (h : BothBecome o (followerOf o) w p r q s t) (ht : p.context.order.twin = true)
    (hb : r.context.stage = .bound) (hc : p.context.compartment.closeAwaited = true) (k : Reaction) :
    closesEnded k o t = t := by
  unfold closesEnded
  refine if_neg ?_
  rintro ⟨-, -, -, hall⟩
  rw [h.members ht hb] at hall
  have hleader := List.all_eq_true.1 hall o (by simp)
  rw [h.atFirst.compartment, hc] at hleader; cases hleader

/-- R63: a sensor loss in an open stage, once the channel is frozen. -/
theorem pairFaulted (h : BothBecome o (followerOf o) w p r q s (freezeChannel m .sensorLost t))
    (hm : m = o ∨ m = followerOf o) (ht : p.context.order.twin = true) (hb : r.context.stage = .bound)
    (ho : p.context.stage.isOpen = true) (hg : p.context.gate.isOpen = true) (k : Reaction) :
    BothBecome o (followerOf o) w (p.cut (some .sensorLost)).unsettled.awaits
      (if m = o then r.cutBehind.awaits else r.cutBehind.awaits.heldBehind) q s (faultInPair k o m .sensorLost t) := by
  have hopen : ((freezeChannel m .sensorLost t).stage o).isOpen = true := (congrArg Stage.isOpen h.atFirst.stage).trans ho
  have hcut := h.cut ht hb (some .sensorLost)
  have hbehind : r.cutBehind.context.stage = .bound := r.cutBehind_kept.1.trans hb
  have hcontext := Context.cut_open hg p.closeTime (some .sensorLost)
  have htwin : ((p.cut (some .sensorLost)).unsettled).context.order.twin = true := by
    show ((p.context.cut p.closeTime (some .sensorLost)).order).twin = true
    rw [hcontext]; exact ht
  have hawaited := (hcut.onFirst (hcut.atFirst.updateCompartment fun c => { c with noSettle := true })).awaitCloses htwin hbehind
  have hlate : (p.cut (some .sensorLost)).unsettled.awaits.context.compartment.closeAwaited = true := by
    rw [(Spout.awaits_kept _).1]
    show (((p.context.cut p.closeTime (some .sensorLost)).compartment.closeAwaited) || _) = true
    rw [hcontext, Compartment.setCause_some]; rfl
  have htwin' : (p.cut (some .sensorLost)).unsettled.awaits.context.order.twin = true := by
    rw [(Spout.awaits_kept _).1]; exact htwin
  have hbound : r.cutBehind.awaits.context.stage = .bound := by
    rw [(Spout.awaits_kept _).1]; exact hbehind
  have hlock : Machine.interlock o FaultCause.sensorLost.code (freezeChannel m .sensorLost t)
      = Machine.cut o (some .sensorLost) (freezeChannel m .sensorLost t) := if_pos hopen
  unfold faultInPair; dsimp only
  rw [hlock]
  obtain rfl | rfl := hm
  · have hheld := hawaited.holdFollower_leader
    rw [if_pos rfl, hheld.closesEnded_waits htwin' hbound hlate]
    exact hheld
  · have hheld := hawaited.holdFollower
    rw [if_neg h.apart, hheld.closesEnded_waits htwin' hbound hlate]
    exact hheld

end BothBecome

/-! ## The loss meets the pair -/

/-- R63: a fault meets the open stage of its context as one of the metering. -/
theorem contextFaulted_metering {i o : SpoutId} {s : State} (k : Reaction) (cause : FaultCause) (howner : s.ownerOf i = o)
    (ho : (s.stage o).isOpen = true) : contextFaulted k i cause s = faultMetering k o i cause s := by
  unfold contextFaulted; dsimp only
  rw [howner]
  cases e : s.stage o with
  | opening | coarse | fine | trim | closing | settling => rfl
  | _ => rw [e] at ho; cases ho

section Lost

variable {o m : SpoutId} {s : State} (h : s.pair o) (hm : m = o ∨ m = followerOf o) (hf : s.isFaulted m = false)
include hf

theorem faultedByLoss_others {j : SpoutId} (hj : j ≠ m) : (faultedByLoss m s).spout j = s.spout j :=
  ((sameButAnswers_enterFault .sensorLost ((isFaulted_linkDown m s).trans hf)).spout j).trans
    ((State.spout_updateSpout_ne _ hj _).trans (State.spout_updateSpout_ne s hj Spout.loseLink))

/-- R134: a loss leaves every context as it is, and every profile. -/
theorem faultedByLoss_works (j : SpoutId) : (faultedByLoss m s).context j = s.context j
    ∧ (faultedByLoss m s).hasProfile j = s.hasProfile j := by
  by_cases hj : j = m
  · subst hj
    have hspout := spout_enterFault_linkDown hf
    exact ⟨(congrArg Spout.context hspout :), (congrArg (fun p => p.calibration.profileValid) hspout :)⟩
  · have hspout := faultedByLoss_others hf hj
    exact ⟨congrArg Spout.context hspout, congrArg (fun p => p.calibration.profileValid) hspout⟩

include h hm

/-- R134: no claim of a bound pair is withdrawn. -/
theorem loseLink_pair (hc : (s.context o).claim = none) :
    loseLink m s = showLink m (contextFaulted react m .sensorLost (faultedByLoss m s)) := by
  obtain rfl | rfl := hm
  · exact loseLink_unclaimed hf hc
  have hbound : (faultedByLoss (followerOf o) s).isBound (followerOf o) = true :=
    (congrArg (fun c => c.stage == .bound) (faultedByLoss_works hf (followerOf o)).1).trans h.isBound
  have hwithdraw : withdrawClaimOn react (followerOf o) (faultedByLoss (followerOf o) s) = faultedByLoss (followerOf o) s := by
    unfold withdrawClaimOn
    rw [hbound]
    cases ((faultedByLoss (followerOf o) s).context (followerOf o)).claim <;> rfl
  rw [loseLink_eq, spoutFault]
  exact congrArg (fun u => showLink (followerOf o) (contextFaulted react (followerOf o) .sensorLost u)) hwithdraw

omit hm in
theorem pair_faultedByLoss : (faultedByLoss m s).pair o := by
  obtain ⟨hleader, hprofile⟩ := faultedByLoss_works hf o
  obtain ⟨hfollower, hprofile'⟩ := faultedByLoss_works hf (followerOf o)
  exact ⟨h.even, (congrArg (fun c => c.order.twin) hleader).trans h.isTwin,
    (congrArg (fun c => c.stage == .bound) hleader).trans h.isBound_leader,
    (congrArg (fun c => c.stage == .bound) hfollower).trans h.isBound, hprofile.trans h.hasProfile,
    hprofile'.trans h.hasProfile_follower⟩

end Lost

/-- R63: the leader whose pair loses a sensor in an open stage. -/
def Spout.lostFirst (p : Spout) : Spout := (p.cut (some .sensorLost)).unsettled.awaits

section Faulted

variable {o : SpoutId} {u : State} (h : u.pair o) (ho : (u.stage o).isOpen = true) (hmark : (u.order o).mark ≠ .reset)
include h hmark

/-- R63: the order of a pair is marked. -/
theorem faultMetering_pair (k : Reaction) (m : SpoutId) (cause : FaultCause) :
    faultMetering k o m cause u = faultInPair k o m cause (markOrder o .spoutFault u) := by
  have hmarked := (Becomes.refl o none u).markOrder .spoutFault
  have htwin : (markOrder o .spoutFault u).isTwin o = true := hmarked.isTwin.trans h.isTwin
  have hnot : ((markOrder o .spoutFault u).order o).mark ≠ .reset := by
    have horder : ((markOrder o .spoutFault u).order o).mark = (u.order o).mark.strongest .spoutFault :=
      congrArg OrderState.mark hmarked.order
    rw [horder, EndMark.strongest_spoutFault hmark]; decide
  unfold faultMetering; dsimp only
  rw [htwin, if_neg (fun c => c rfl), if_neg hnot]

include ho

/-- R63: the leader's sensor is lost in an open stage. -/
theorem contextFaulted_leader (hg : (u.gate o).isOpen = true) : BothBecome o (followerOf o) none
    ((u.spout o).marked .spoutFault).frozen.lostFirst (u.spout (followerOf o)).cutBehind.awaits u.port u
    (contextFaulted react o .sensorLost u) := by
  have hmarked := (BothBecome.refl h.apart none u).onFirst ((Becomes.refl o none u).markOrder .spoutFault)
  have hfrozen := hmarked.onFirst hmarked.atFirst.endIntegration
  have hfault := BothBecome.pairFaulted (m := o) hfrozen (.inl rfl) h.isTwin h.stage_follower ho hg react
  rw [if_pos rfl] at hfault
  rw [contextFaulted_metering react .sensorLost (h.ownerOf_member (.inl rfl)) ho, faultMetering_pair h hmark]
  exact hfault

/-- R63: the follower's sensor is lost while the leader is in an open stage. -/
theorem contextFaulted_follower (hg : (u.gate o).isOpen = true) : BothBecome o (followerOf o) none
    ((u.spout o).marked .spoutFault).lostFirst (u.spout (followerOf o)).frozen.cutBehind.awaits.heldBehind u.port u
    (contextFaulted react (followerOf o) .sensorLost u) := by
  have hmarked := (BothBecome.refl h.apart none u).onFirst ((Becomes.refl o none u).markOrder .spoutFault)
  have hfrozen := hmarked.onSecond hmarked.atSecond.endIntegration
  have hfault := BothBecome.pairFaulted (m := followerOf o) hfrozen (.inr rfl) h.isTwin h.stage_follower ho hg react
  rw [if_neg h.apart] at hfault
  rw [contextFaulted_metering react .sensorLost (h.ownerOf_member (.inr rfl)) ho, faultMetering_pair h hmark]
  exact hfault

end Faulted

/-! ## What the loss shows -/

/-- R63: the leader after a loss. -/
theorem Spout.context_lostFirst {p : Spout} (hg : p.context.gate.isOpen = true) : p.lostFirst.context = { p.context with
    gate := p.context.gate.cut p.closeTime, stage := .closing
    compartment := { p.context.compartment with
      closeAwaited := true, cause := some (p.context.compartment.cause.getD .sensorLost), noSettle := true } } := by
  have hcut : (p.cut (some .sensorLost)).unsettled.context = { p.context with
      gate := p.context.gate.cut p.closeTime, stage := .closing
      compartment := { p.context.compartment with
        closeAwaited := true, cause := some (p.context.compartment.cause.getD .sensorLost), noSettle := true } } := by
    show (let c := p.context.cut p.closeTime (some .sensorLost)
      { c with compartment := { c.compartment with noSettle := true } } : Context) = _
    rw [Context.cut_open hg, Compartment.setCause_some]
  unfold Spout.lostFirst
  rw [(Spout.awaits_kept _).1, hcut, Bool.true_or]

theorem Spout.kept_lostFirst (p : Spout) : p.lostFirst.channel = p.channel ∧ p.lostFirst.calibration = p.calibration := by
  obtain ⟨-, hchannel, hcalibration⟩ := (p.cut (some .sensorLost)).unsettled.awaits_kept
  exact ⟨hchannel, hcalibration⟩

/-- R63: the leader shows the loss. -/
theorem Becomes.lostFirst {o : SpoutId} {p : Spout} {q : Port} {s t : State} (h : Becomes o none p.lostFirst q s t)
    (hg : p.context.gate.isOpen = true) (hp : p.calibration.profileValid = true) : t.stage o = .closing ∧ t.gateIsCut o
      ∧ (t.compartment o).cause = some (p.context.compartment.cause.getD .sensorLost) ∧ (t.compartment o).noSettle = true
      ∧ (t.order o).mark = p.context.order.mark := by
  have hcontext := h.context.trans (p.context_lostFirst hg)
  have hclose : p.lostFirst.closeTime = p.closeTime := by
    unfold Spout.closeTime
    rw [p.kept_lostFirst.2]
  refine ⟨(congrArg (fun c => c.stage) hcontext :), h.gateIsCut (g := p.context.gate) ?_ (by rw [p.kept_lostFirst.2]; exact hp),
    (congrArg (fun c => c.compartment.cause) hcontext :), (congrArg (fun c => c.compartment.noSettle) hcontext :),
    (congrArg (fun c => c.order.mark) hcontext :)⟩
  rw [hclose, p.context_lostFirst hg]

/-- R63: a follower whose gate was open is closing. -/
theorem Spout.cutBehind_awaits {r : Spout} (hg : r.context.gate.isOpen = true) :
    r.cutBehind.awaits.context.gate = r.context.gate.cut r.cutBehind.awaits.closeTime
      ∧ r.cutBehind.awaits.context.phase = .closing ∧ r.cutBehind.awaits.calibration = r.calibration := by
  obtain ⟨hcontext, -, hcalibration⟩ := Spout.awaits_kept r.cutBehind
  rw [Spout.cutBehind_open hg] at hcontext
  have hkept : r.cutBehind.awaits.calibration = r.calibration := hcalibration.trans r.cutBehind_kept.2.2
  refine ⟨?_, (congrArg (fun c => c.phase) hcontext :), hkept⟩
  unfold Spout.closeTime
  rw [hkept, hcontext]; rfl

theorem Becomes.cutBehind_awaits {f : SpoutId} {r : Spout} {q : Port} {s t : State} (h : Becomes f none r.cutBehind.awaits q s t)
    (hp : r.calibration.profileValid = true) (hg : r.context.gate.isOpen = true) :
    t.gateIsCut f ∧ (t.context f).phase = .closing := by
  obtain ⟨hgate, hphase, hkept⟩ := Spout.cutBehind_awaits hg
  exact ⟨h.gateIsCut hgate (by rw [hkept]; exact hp), (congrArg (fun c => c.phase) h.context).trans hphase⟩

theorem Becomes.cutBehind_held {f : SpoutId} {r : Spout} {q : Port} {s t : State}
    (h : Becomes f none r.cutBehind.awaits.heldBehind q s t) (hp : r.calibration.profileValid = true)
    (hg : r.context.gate.isOpen = true) : t.gateIsCut f ∧ (t.context f).phase = .closing := by
  obtain ⟨hgate, -, hkept⟩ := Spout.cutBehind_awaits hg
  have hvalid : r.cutBehind.awaits.calibration.profileValid = true := by rw [hkept]; exact hp
  have hclosing : r.cutBehind.awaits.context.gate.isClosing = true := by
    rw [hgate]; exact Spout.isClosing_cut hvalid _
  exact ⟨h.gateIsCut hgate hvalid, (congrArg (fun c => c.phase) h.context).trans (if_pos hclosing)⟩

theorem Spout.channel_cutBehind_awaits (r : Spout) : r.cutBehind.awaits.channel = r.channel :=
  (Spout.awaits_kept _).2.1.trans r.cutBehind_kept.2.1

theorem Spout.stage_cutBehind_awaits (r : Spout) : r.cutBehind.awaits.context.stage = r.context.stage :=
  (congrArg (fun c => c.stage) (Spout.awaits_kept _).1).trans r.cutBehind_kept.1

theorem BothBecome.showLink {o f : SpoutId} {p r : Spout} {q : Port} {s t : State} (h : BothBecome o f none p r q s t)
    (i : SpoutId) : BothBecome o f none p r q s (showLink i t) :=
  h.onFirst (h.atFirst.of_memory ((sameButMemory_writeLinkState ..).trans (sameButMemory_refreshPanel ..))
    (fun m _ => (sameWork_showLink i m t).slot) fun hw => ((OrderFrame.showLink i 0 t).wf hw))

/-- R63: a sensor loss of either spout of a pair, by silence, in an open stage. -/
theorem silence_cuts_pair {o m : SpoutId} {s : State} (h : s.pair o) (hm : m = o ∨ m = followerOf o)
    (ho : (s.stage o).isOpen = true) (hg : (s.gate o).isOpen = true) (hmark : (s.order o).mark ≠ .reset)
    (hf : s.isFaulted m = false) (hp : (s.receiver m).link = .present) (hs : (s.receiver m).silence.isSome = true)
    (hc : (s.context o).claim = none) : ∃ t, exec (.silenceTimerExpiry m) s = .next t ∧ t.stage o = .closing
      ∧ t.stage (followerOf o) = .bound ∧ t.gateIsCut o
      ∧ (t.compartment o).cause = some ((s.compartment o).cause.getD .sensorLost) ∧ (t.compartment o).noSettle = true
      ∧ (t.order o).mark = .spoutFault ∧ t.isFaulted m = true ∧ (t.channel m).integrating = false
      ∧ (t.channel m).delivered = (s.channel m).delivered
      ∧ t.channel (if m = o then followerOf o else o) = s.channel (if m = o then followerOf o else o)
      ∧ ((s.gate (followerOf o)).isOpen = true → t.gateIsCut (followerOf o) ∧ (t.context (followerOf o)).phase = .closing) := by
  have hlost := linkLost_loseLink m s
  have hpair := pair_faultedByLoss h hf
  obtain ⟨hleader, -⟩ := faultedByLoss_works hf o
  obtain ⟨hfollower, -⟩ := faultedByLoss_works hf (followerOf o)
  have hmarks : ((faultedByLoss m s).order o).mark ≠ .reset := by rw [State.order, hleader]; exact hmark
  have ho' : ((faultedByLoss m s).stage o).isOpen = true := by rw [State.stage, hleader]; exact ho
  have hg' : ((faultedByLoss m s).gate o).isOpen = true := by rw [State.gate, hleader]; exact hg
  have hcause : ((faultedByLoss m s).compartment o).cause = (s.compartment o).cause :=
    congrArg (fun c => c.compartment.cause) hleader
  have hgate : (faultedByLoss m s).gate (followerOf o) = s.gate (followerOf o) :=
    congrArg Context.gate hfollower
  have hspouts {j : SpoutId} (hj : j ≠ m) := faultedByLoss_others hf hj
  rw [loseLink_pair h hm hf hc] at hlost
  refine ⟨_, (exec_silence hp hs).trans (congrArg Host.Outcome.next (loseLink_pair h hm hf hc)), ?_⟩
  generalize faultedByLoss m s = u at *
  have hmarked : ((u.order o).mark.strongest .spoutFault) = .spoutFault := EndMark.strongest_spoutFault hmarks
  obtain rfl | rfl := hm
  · have hshown := (contextFaulted_leader hpair ho' hmarks hg').showLink m
    generalize showLink m (contextFaulted react m .sensorLost u) = t at *
    obtain ⟨hstage, hcut, hcaused, hsettle, hmark'⟩ := hshown.atFirst.lostFirst hg' hpair.hasProfile
    have hfrozen := hshown.atFirst.channel.trans (Spout.kept_lostFirst _).1
    rw [if_pos rfl]
    refine ⟨hstage, hshown.atSecond.stage.trans ((Spout.stage_cutBehind_awaits _).trans hpair.stage_follower), hcut,
      hcause ▸ hcaused, hsettle, hmark'.trans hmarked, hlost.faulted, by rw [hfrozen]; rfl, hlost.delivered, ?_, fun hg => ?_⟩
    · exact hshown.atSecond.channel.trans ((Spout.channel_cutBehind_awaits _).trans (congrArg Spout.channel (hspouts h.apart)))
    · exact hshown.atSecond.cutBehind_awaits hpair.hasProfile_follower ((congrArg GateUnit.isOpen hgate).trans hg)
  · have hshown := (contextFaulted_follower hpair ho' hmarks hg').showLink (followerOf o)
    generalize showLink (followerOf o) (contextFaulted react (followerOf o) .sensorLost u) = t at *
    obtain ⟨hstage, hcut, hcaused, hsettle, hmark'⟩ := hshown.atFirst.lostFirst hg' hpair.hasProfile
    have hfrozen := hshown.atSecond.channel.trans (Spout.channel_cutBehind_awaits _)
    rw [if_neg h.apart]
    refine ⟨hstage, hshown.atSecond.stage.trans ((Spout.stage_cutBehind_awaits _).trans hpair.stage_follower), hcut,
      hcause ▸ hcaused, hsettle, hmark'.trans hmarked, hlost.faulted, by rw [hfrozen]; rfl, hlost.delivered, ?_, fun hg => ?_⟩
    · exact hshown.atFirst.channel.trans ((Spout.kept_lostFirst _).1.trans (congrArg (fun p => p.channel) (hspouts h.apart.symm) :))
    · exact hshown.atSecond.cutBehind_held hpair.hasProfile_follower ((congrArg GateUnit.isOpen hgate).trans hg)

end Sys2Proof.Machine

/-! The last close that a pair's compartment waits for (R24, R63). -/

namespace Sys2Proof.Machine

/-- R24: the spout whose close is taken, its hold running. -/
def Spout.closeHeld (p : Spout) : Spout := ((p.onField fun g => g.taking .gateClosed true).onGate fun g =>
  { g with close := none, hold := some 500 }).onCompartment fun x => { x with closeAwaited := false }

theorem Becomes.closeHeld (i : SpoutId) (s : State) : Becomes i none (s.spout i).closeHeld s.port s
    (((s.updateField i fun g => g.taking .gateClosed true).updateGate i fun g =>
      { g with close := none, hold := some 500 }).updateCompartment i fun x => { x with closeAwaited := false }) :=
  (((Becomes.refl i none s).updateField _).updateGate _).updateCompartment _

namespace BothBecome

variable {o : SpoutId} {w : Option SlotId} {p r : Spout} {q : Port} {s t : State}

/-- R63: a compartment without settle whose leader's close and follower's close are known. -/
theorem closesEnded (h : BothBecome o (followerOf o) w p r q s t) (ht : p.context.order.twin = true)
    (hb : r.context.stage = .bound) (hs : p.context.stage = .closing) (hn : p.context.compartment.noSettle = true)
    (hm : p.context.order.mark ≠ .reset) (k : Reaction) : Machine.closesEnded k o t
      = if p.context.compartment.closeAwaited || r.context.compartment.closeAwaited then t else finishCompartment k o false t := by
  have hall : (t.members o).all (fun m => !(t.compartment m).closeAwaited)
      = !(p.context.compartment.closeAwaited || r.context.compartment.closeAwaited) := by
    rw [h.members ht hb, ← h.atFirst.compartment, ← h.atSecond.compartment, Bool.not_or]
    exact congrArg _ (Bool.and_true _)
  have hclosed : (t.stage o).isClosed = true := by rw [h.atFirst.stage, hs]; rfl
  unfold Machine.closesEnded
  rw [hall]
  cases p.context.compartment.closeAwaited || r.context.compartment.closeAwaited with
  | true => exact (if_neg fun c => Bool.false_ne_true c.2.2.2).trans (if_pos rfl).symm
  | false =>
    exact (if_pos ⟨hclosed, by rw [h.atFirst.compartment]; exact hn, by rw [h.atFirst.order]; exact hm, rfl⟩).trans
      (if_neg Bool.false_ne_true).symm

end BothBecome

section LastClose

variable {o : SpoutId} {s : State} (h : s.pair o) (hs : s.stage o = .closing) (hn : (s.compartment o).noSettle = true)
  (hmark : (s.order o).mark ≠ .reset)
include h hs hn hmark

/-- R63: the leader's close is taken. -/
theorem leaderClose_taken (hd : s.changeDue o .gateClosed true) (ho : (s.gate o).output = .close)
    (hr : (s.gate o).retry = none) (hf : (s.gate o).failed = false) : exec (.debounceExpiry o .gateClosed) s
      = .next (if (s.compartment (followerOf o)).closeAwaited then s.closeEnded o
        else finishCompartment react o false (s.closeEnded o)) := by
  have hboth := (Becomes.closeHeld o s).both h.apart
  rw [← closeEnded_held hr] at hboth
  have hown : ownCloseTaken react o (s.closeEnded o) = closesEnded react o (s.closeEnded o) := by
    unfold ownCloseTaken
    rw [if_neg (by rw [hboth.atFirst.order]; exact hmark), if_pos (by rw [hboth.atFirst.compartment]; exact hn)]
  rw [exec_closeTaken hd ho hf, if_pos (hboth.atFirst.stage.trans hs), hown,
    hboth.closesEnded h.isTwin h.stage_follower hs hn hmark react]
  rfl

/-- R63: the close of a faulted follower is taken. -/
theorem followerClose_taken (hd : s.changeDue (followerOf o) .gateClosed true) (ho : (s.gate (followerOf o)).output = .close)
    (hr : (s.gate (followerOf o)).retry = none) (hf : (s.gate (followerOf o)).failed = false)
    (hphase : (s.context (followerOf o)).phase = .closing) (hfault : s.isFaulted (followerOf o) = true) :
    exec (.debounceExpiry (followerOf o) .gateClosed) s = .next (if (s.compartment o).closeAwaited
      then setPhase (followerOf o) .settled (s.closeEnded (followerOf o))
      else finishCompartment react o false (setPhase (followerOf o) .settled (s.closeEnded (followerOf o)))) := by
  have hboth := (BothBecome.refl h.apart none s).onSecond (Becomes.closeHeld (followerOf o) s)
  rw [← closeEnded_held hr] at hboth
  have hphased := hboth.onSecond (hboth.atSecond.setPhase .settled)
  have hreset : (s.closeEnded (followerOf o)).pairReset o = false := by
    unfold State.pairReset
    rw [hboth.atFirst.order, hboth.atFirst.stage]
    exact Bool.or_eq_false_iff.2 ⟨beq_eq_false_iff_ne.2 hmark, beq_eq_false_iff_ne.2 (by
      show s.stage o ≠ _
      rw [hs]; decide)⟩
  have hown : followerCloseTaken react (followerOf o) (s.closeEnded (followerOf o))
      = closesEnded react o (setPhase (followerOf o) .settled (s.closeEnded (followerOf o))) := by
    unfold followerCloseTaken; dsimp only
    rw [h.leaderOf_follower, hreset, if_neg Bool.false_ne_true, if_pos (.inl (hboth.atSecond.isFaulted.trans hfault))]
  have hstage : (s.closeEnded (followerOf o)).stage (followerOf o) = .bound := hboth.atSecond.stage.trans h.stage_follower
  have hphase' : ((s.closeEnded (followerOf o)).context (followerOf o)).phase = .closing :=
    (congrArg (fun c => c.phase) hboth.atSecond.context).trans hphase
  have hawaited : ((s.compartment o).closeAwaited || false) = (s.compartment o).closeAwaited := Bool.or_false _
  rw [exec_closeTaken hd ho hf, hstage, if_neg (by decide), if_pos ⟨rfl, hphase'⟩, hown,
    hphased.closesEnded h.isTwin h.stage_follower hs hn hmark react]
  exact congrArg (fun b : Bool => Host.Outcome.next (if b then setPhase (followerOf o) .settled (s.closeEnded (followerOf o))
    else finishCompartment react o false (setPhase (followerOf o) .settled (s.closeEnded (followerOf o))))) hawaited

end LastClose

/-- R63: which close ends the compartment. -/
theorem lastClose_ends {o m : SpoutId} {s : State} (h : s.pair o) (hm : m = o ∨ m = followerOf o) (hs : s.stage o = .closing)
    (hn : (s.compartment o).noSettle = true) (hmark : (s.order o).mark ≠ .reset) (hd : s.changeDue m .gateClosed true)
    (ho : (s.gate m).output = .close) (hr : (s.gate m).retry = none) (hf : (s.gate m).failed = false)
    (hfollower : m = followerOf o → (s.context m).phase = .closing ∧ s.isFaulted m = true) :
    let other := if m = o then followerOf o else o
    let closed := ((s.updateField m fun g => g.taking .gateClosed true).updateGate m fun g =>
      { g with close := none, hold := some 500 }).updateCompartment m fun x => { x with closeAwaited := false }
    let u := if m = o then closed else setPhase (followerOf o) .settled closed
    exec (.debounceExpiry m .gateClosed) s
      = .next (if (s.compartment other).closeAwaited then u else finishCompartment react o false u) := by
  intro other closed u
  have hclosed : s.closeEnded m = closed := closeEnded_held hr
  obtain rfl | rfl := hm
  · have hother : other = followerOf m := if_pos rfl
    have hu : u = s.closeEnded m := (if_pos rfl).trans hclosed.symm
    rw [hu, hother]
    exact leaderClose_taken h hs hn hmark hd ho hr hf
  · obtain ⟨hphase, hfault⟩ := hfollower rfl
    have hother : other = o := if_neg h.apart
    have hu : u = setPhase (followerOf o) .settled (s.closeEnded (followerOf o)) :=
      (if_neg h.apart).trans (congrArg _ hclosed.symm)
    rw [hu, hother]
    exact followerClose_taken h hs hn hmark hd ho hr hf hphase hfault

end Sys2Proof.Machine

/-! The end of a TWIN's order (R53, R65, R109), and a STOP of a pair by its leader's stage (R64, R113, R115). -/

namespace Sys2Proof.Machine

/-! ## The end of the order -/

/-- R53, R65: the follower that the end of its leader's TWIN sets free: its binding ended, or the claim on it withdrawn. -/
def Spout.setFree (r : Spout) : Spout := if r.context.stage = .bound then r.unclaimed.resting else r.unclaimed

namespace BothBecome

variable {o : SpoutId} {w : Option SlotId} {n : SlotId} {p r : Spout} {q : Port} {s t : State}

theorem freeFollower (h : BothBecome o (followerOf o) w p r q s t) :
    BothBecome o (followerOf o) w p r.setFree q s (freeFollower (followerOf o) t) := by
  have hunclaimed := h.onSecond (h.atSecond.updateContext fun c => { c with claim := none })
  unfold Machine.freeFollower Spout.setFree
  rw [h.atSecond.isBound]
  by_cases hb : r.context.stage = .bound
  · rw [if_pos (beq_iff_eq.2 hb), if_pos hb]
    exact hunclaimed.onSecond hunclaimed.atSecond.restContext
  · rw [if_neg fun e => hb (beq_iff_eq.1 e), if_neg hb]
    exact hunclaimed

/-- R53, R65, R109: the end action of a TWIN, but for what its two spouts serve then. -/
theorem endOrder (h : BothBecome o (followerOf o) (some n) p r q s t) (k : Reaction) (hm : s.memory.wf = true)
    (hslot : p.context.slot = some n) (ht : p.context.order.twin = true) (hc : p.context.order.count ≤ 12) : ∃ u,
      endOrder k o t = k (.idle (followerOf o)) (k (.idle o) u)
        ∧ BothBecome o (followerOf o) (some n) p.resting r.setFree q.oneDone s u
        ∧ t.SlotClosed n p.context.order.count p.context.order.total 4 (orderResult p.context.order.mark
          ((closeEntries n p.context.order.count p.context.order.total t).entryCodes n p.context.order.count)).value u := by
  have hcurrent : (t.context o).slot = some n := (congrArg (fun c => c.slot) h.atFirst.context).trans hslot
  have horder := h.atFirst.order
  have hclosed := h.onFirst (((h.atFirst.closeOrderSlot (h.wf hm) hc)).restContext)
  have hfreed := hclosed.freeFollower
  have hshown := slotClosed_orderClosed (i := o) (n := n) (h.wf hm) (by rw [horder]; exact hc)
  rw [horder] at hshown
  refine ⟨_, ?_, hfreed, ?_⟩
  · unfold Machine.endOrder; dsimp only
    rw [hcurrent, horder, ht, if_pos rfl]
  · have hsame := (hclosed.here.freeFollower).slots n (by simp)
    have heq : Machine.orderClosed o n t = Machine.restContext o (closeOrderSlot n p.context.order t) := by
      unfold Machine.orderClosed
      rw [horder]
    rw [heq] at hshown
    exact hshown.after hc hsame

end BothBecome


/-! ## A STOP by the leader's stage (R64, R113 to R115) -/

/-- R113: the leader whose order takes its first STOP. -/
def Spout.stopMarked (p : Spout) : Spout := (p.marked .stopped).onOrder fun x => { x with stopTaken := true }

/-- R115: the leader whose compartment is to end by the STOP. -/
def Spout.stopPending : Spout → Spout := Spout.onCompartment fun c => { c with stopPending := true }

/-- R113: the order is marked. -/
def stopMarked (o : SpoutId) (s : State) : State :=
  (markOrder o .stopped s).updateOrder o fun x => { x with stopTaken := true }

theorem BothBecome.stopMarked {o f : SpoutId} {w : Option SlotId} {p r : Spout} {q : Port} {s t : State}
    (h : BothBecome o f w p r q s t) : BothBecome o f w p.stopMarked r q s (stopMarked o t) :=
  h.onFirst ((h.atFirst.markOrder .stopped).updateOrder _)

theorem stopRunning_first {o : SpoutId} {s : State} (k : Reaction) (hz : s.stage o ≠ .zeroRun)
    (ht : (s.order o).stopTaken = false) : stopRunning k o s = match (stopMarked o s).stage o with
      | .waitIndex => endOrder k o (stopMarked o s)
      | .engaging | .zeroing => startRelease k o false (forMembers o dropCapture (stopMarked o s))
      | .opening | .coarse | .fine | .trim => cut o (some .partialStop) (stopMarked o s)
      | .closing | .settling => (stopMarked o s).updateCompartment o fun c => { c with stopPending := true }
      | _ => stopMarked o s := by
  unfold stopRunning stopOrder
  rw [if_neg hz, ht, if_neg Bool.false_ne_true]
  rfl

namespace BothBecome

variable {o : SpoutId} {w : Option SlotId} {p r : Spout} {q : Port} {s t : State}

/-- R65: both spouts of a pair are released, and RELEASING waits for them. -/
theorem startRelease (h : BothBecome o (followerOf o) w p r q s t) (k : Reaction) (ht : p.context.order.twin = true)
    (hb : r.context.stage = .bound)
    (hp : p.positioner.position = .engaged ∨ p.positioner.position = .lowering) (hpr : p.field.spoutRaised.taken = false)
    (hr : r.positioner.position = .engaged ∨ r.positioner.position = .lowering) (hrr : r.field.spoutRaised.taken = false) :
    BothBecome o (followerOf o) w (p.enterReleasing false).beginRaise (r.releasedBehind false).beginRaise q s
      (startRelease k o false t) := by
  have hentered := h.enterReleasing ht hb false
  have hsound {x : Spout} (hx : x.positioner.position = .engaged ∨ x.positioner.position = .lowering) :
      (x.positioner.position == .faulted) = false := by
    obtain e | e := hx <;> (rw [e]; rfl)
  have hasked : requestRelease k o o (Machine.enterReleasing o false t) = releaseRequest k o (Machine.enterReleasing o false t) := by
    unfold requestRelease
    refine if_pos ⟨hentered.atFirst.stage, ?_, ?_⟩
    · rw [hentered.atFirst.isFaulted]
      exact fun c => Bool.false_ne_true ((hsound hp).symm.trans c)
    · rw [hentered.atFirst.compartment]; exact Bool.false_ne_true
  have hraised := hentered.onFirst (hentered.atFirst.releaseRequest k hp hpr)
  rw [← hasked] at hraised
  have hasked' : requestRelease k o (followerOf o) (requestRelease k o o (Machine.enterReleasing o false t))
      = releaseRequest k (followerOf o) (requestRelease k o o (Machine.enterReleasing o false t)) := by
    rw [Machine.requestRelease]
    refine if_pos ⟨hraised.atFirst.stage, ?_, ?_⟩
    · rw [hraised.atSecond.isFaulted]
      exact fun c => Bool.false_ne_true ((hsound hr).symm.trans c)
    · rw [hraised.atSecond.compartment]; exact Bool.false_ne_true
  have hboth := hraised.onSecond (hraised.atSecond.releaseRequest k hr hrr)
  rw [← hasked'] at hboth
  have hwaits := hboth.releaseCheck_waits k ht hb (m := o) (.inl rfl) (by
    unfold State.releaseDone
    rw [hboth.atFirst.isFaulted, hboth.atFirst.compartment]; rfl)
  unfold Machine.startRelease
  rw [h.atFirst.isTwin, ht, Bool.not_true, Bool.and_false, if_neg Bool.false_ne_true, hentered.forMembers ht hb, hwaits]
  exact hboth

end BothBecome

section Stopped

variable {o : SpoutId} {s : State} (h : s.pair o) (ht : (s.order o).stopTaken = false)
include h ht

theorem stopRunning_open (hs : (s.stage o).isOpen = true) : BothBecome o (followerOf o) none
    ((s.spout o).stopMarked.cut (some .partialStop)) (s.spout (followerOf o)).cutBehind s.port s (stopRunning react o s) := by
  have hmarked := (BothBecome.refl h.apart none s).stopMarked
  have hcut := hmarked.cut h.isTwin h.stage_follower (some .partialStop)
  have hstage : (stopMarked o s).stage o = s.stage o := hmarked.atFirst.stage
  rw [stopRunning_first react (fun e => by rw [e] at hs; cases hs) ht, hstage]
  cases e : s.stage o with
  | opening | coarse | fine | trim => exact hcut
  | _ => rw [e] at hs; cases hs

theorem stopRunning_closed (hs : s.stage o = .closing ∨ s.stage o = .settling) : BothBecome o (followerOf o) none
    (s.spout o).stopMarked.stopPending (s.spout (followerOf o)) s.port s (stopRunning react o s) := by
  have hmarked := (BothBecome.refl h.apart none s).stopMarked
  have hstage : (stopMarked o s).stage o = s.stage o := hmarked.atFirst.stage
  rw [stopRunning_first react (by obtain e | e := hs <;> (rw [e]; decide)) ht, hstage]
  obtain e | e := hs <;> (rw [e]; exact hmarked.onFirst (hmarked.atFirst.updateCompartment _))

theorem stopRunning_released (hs : s.stage o = .engaging ∨ s.stage o = .zeroing) (ho : s.willRaise o)
    (hf : s.willRaise (followerOf o)) : BothBecome o (followerOf o) none
      ((s.spout o).stopMarked.dropCapture.enterReleasing false).beginRaise
      ((s.spout (followerOf o)).dropCapture.releasedBehind false).beginRaise s.port s (stopRunning react o s) := by
  have hmarked := (BothBecome.refl h.apart none s).stopMarked
  have hdropped := hmarked.onFirst hmarked.atFirst.dropCapture
  have hboth := hdropped.onSecond hdropped.atSecond.dropCapture
  have hreleased := hboth.startRelease react h.isTwin h.stage_follower ho.1 ho.2 hf.1 hf.2
  have hstage : (stopMarked o s).stage o = s.stage o := hmarked.atFirst.stage
  rw [stopRunning_first react (by obtain e | e := hs <;> (rw [e]; decide)) ht, hstage,
    hmarked.forMembers h.isTwin h.stage_follower]
  obtain e | e := hs <;> (rw [e]; exact hreleased)

/-- R65, R113: with no claim on the pair and nothing queued, the order and its binding end. -/
theorem stopRunning_waiting {n : SlotId} (hm : s.memory.wf = true) (hslot : (s.context o).slot = some n)
    (hs : s.stage o = .waitIndex) (hc : (s.order o).count ≤ 12) : ∃ u,
      stopRunning react o s = react (.idle (followerOf o)) (react (.idle o) u)
        ∧ BothBecome o (followerOf o) (some n) (s.spout o).stopMarked.resting (s.spout (followerOf o)).setFree s.port.oneDone s u
        ∧ s.SlotClosed n (s.order o).count (s.order o).total 4 (orderResult ((s.order o).mark.strongest .stopped)
          ((closeEntries n (s.order o).count (s.order o).total (stopMarked o s)).entryCodes n (s.order o).count)).value u := by
  have hmarked := (BothBecome.refl h.apart (some n) s).stopMarked
  have hstage : (stopMarked o s).stage o = .waitIndex := hmarked.atFirst.stage.trans hs
  obtain ⟨u, hended, hu, hclosed⟩ := hmarked.endOrder react hm hslot h.isTwin hc
  refine ⟨u, ?_, hu, hclosed.before hc fun _ _ => rfl⟩
  rw [stopRunning_first react (by rw [hs]; decide) ht, hstage]
  exact hended

theorem stopRunning_marks (hs : s.stage o = .idle ∨ s.stage o = .releasing) : BothBecome o (followerOf o) none
    (s.spout o).stopMarked (s.spout (followerOf o)) s.port s (stopRunning react o s) := by
  have hmarked := (BothBecome.refl h.apart none s).stopMarked
  have hstage : (stopMarked o s).stage o = s.stage o := hmarked.atFirst.stage
  rw [stopRunning_first react (by obtain e | e := hs <;> (rw [e]; decide)) ht, hstage]
  obtain e | e := hs <;> (rw [e]; exact hmarked)

end Stopped

end Sys2Proof.Machine

/-! A STOP or an ALL_STOP of a pair (R64, R113, R115, R116): what it shows, by the leader's stage. -/

namespace Sys2Proof.Machine

/-- What a first STOP leaves of a pair that runs the order of slot `n`. -/
structure State.PairStops (o : SpoutId) (n : SlotId) (s t : State) : Prop where
  cut : (s.stage o).isOpen = true → (s.gate o).isOpen = true → t.stage o = .closing ∧ t.gateIsCut o ∧ (t.order o).mark = .stopped
    ∧ (t.compartment o).cause = some ((s.compartment o).cause.getD .partialStop)
    ∧ ((s.gate (followerOf o)).isOpen = true → t.gateIsCut (followerOf o) ∧ (t.context (followerOf o)).phase = .closing)
  pending : s.stage o = .closing ∨ s.stage o = .settling → t.compartment o = { s.compartment o with stopPending := true }
    ∧ t.stage o = s.stage o ∧ (t.order o).mark = .stopped ∧ t.gate o = s.gate o ∧ t.spout (followerOf o) = s.spout (followerOf o)
  released : s.stage o = .engaging ∨ s.stage o = .zeroing → t.stage o = .releasing
    ∧ (t.context (followerOf o)).phase = .releasing ∧ (t.order o).mark = .stopped
    ∧ ∀ j, j = o ∨ j = followerOf o → t.isRaising j ∧ (t.calibration j).capture = .none ∧ t.gate j = s.gate j
  rested : s.stage o = .waitIndex → t.atRest o ∧ t.atRest (followerOf o) ∧ (t.context (followerOf o)).claim = none
    ∧ t.slotStateByte n = 4 ∧ t.slotU8 n 3 = 3
  follower : t.isBound (followerOf o) = true ∨ (t.context (followerOf o)).slot = none
  others : ∀ j, j ≠ o → j ≠ followerOf o → t.spout j = s.spout j
  tables : SameTables s t

/-- R33: the leader that a cut has found open. -/
theorem Becomes.shown_cut {o : SpoutId} {w : Option SlotId} {p : Spout} {q : Port} {s t : State} {code : Code}
    (h : Becomes o w (p.cut (some code)) q s t) (hg : p.context.gate.isOpen = true) (hp : p.calibration.profileValid = true) :
    t.stage o = .closing ∧ t.gateIsCut o ∧ (t.order o).mark = p.context.order.mark
      ∧ (t.compartment o).cause = some (p.context.compartment.cause.getD code) := by
  have hcontext : (p.cut (some code)).context = p.context.cut p.closeTime (some code) := rfl
  rw [Context.cut_open hg, Compartment.setCause_some] at hcontext
  have ht := h.context.trans hcontext
  exact ⟨(congrArg (fun c => c.stage) ht :), h.gateIsCut (g := p.context.gate) (by rw [hcontext]; rfl) hp,
    (congrArg (fun c => c.order.mark) ht :), (congrArg (fun c => c.compartment.cause) ht :)⟩

theorem Becomes.shown_cutBehind {f : SpoutId} {w : Option SlotId} {r : Spout} {q : Port} {s t : State}
    (h : Becomes f w r.cutBehind q s t) (hg : r.context.gate.isOpen = true) (hp : r.calibration.profileValid = true) :
    t.gateIsCut f ∧ (t.context f).phase = .closing := by
  have hcontext := Spout.cutBehind_open hg
  have hkept : r.cutBehind.calibration = r.calibration := r.cutBehind_kept.2.2
  refine ⟨h.gateIsCut (g := r.context.gate) ?_ (by rw [hkept]; exact hp), ?_⟩
  · unfold Spout.closeTime
    rw [hkept, hcontext]; rfl
  · exact (congrArg (fun c => c.phase) (h.context.trans hcontext) :)

section Stopped

variable {o : SpoutId} {n : SlotId} {s : State} (h : s.pair o) (ht : (s.order o).stopTaken = false)
  (hmark : (s.order o).mark = .none)
include hmark

theorem stopMarked_mark : (s.spout o).stopMarked.context.order.mark = .stopped := by
  show (s.order o).mark.strongest .stopped = .stopped
  rw [hmark]; rfl

include h ht

theorem pairStops_open (hs : (s.stage o).isOpen = true) : s.PairStops o n (stopRunning react o s) := by
  have hboth := stopRunning_open h ht hs
  generalize stopRunning react o s = t at *
  refine ⟨fun _ hg => ?_, fun e => ?_, fun e => ?_, fun e => ?_, .inl ?_, hboth.others, hboth.tables⟩
  · obtain ⟨hstage, hgate, hmarked, hcause⟩ := hboth.atFirst.shown_cut hg h.hasProfile
    exact ⟨hstage, hgate, hmarked.trans (stopMarked_mark hmark), hcause,
      fun hf => hboth.atSecond.shown_cutBehind hf h.hasProfile_follower⟩
  · obtain e | e := e <;> (rw [e] at hs; cases hs)
  · obtain e | e := e <;> (rw [e] at hs; cases hs)
  · rw [e] at hs; cases hs
  · exact hboth.atSecond.isBound.trans (by rw [(s.spout (followerOf o)).cutBehind_kept.1]; exact h.isBound)

theorem pairStops_closed (hs : s.stage o = .closing ∨ s.stage o = .settling) : s.PairStops o n (stopRunning react o s) := by
  have hboth := stopRunning_closed h ht hs
  generalize stopRunning react o s = t at *
  refine ⟨fun e => ?_, fun _ => ?_, fun e => ?_, fun e => ?_, .inl (hboth.atSecond.isBound.trans h.isBound), hboth.others,
    hboth.tables⟩
  · obtain e' | e' := hs <;> (rw [e'] at e; cases e)
  · exact ⟨hboth.atFirst.compartment, hboth.atFirst.stage, (congrArg OrderState.mark hboth.atFirst.order).trans
      (stopMarked_mark hmark), hboth.atFirst.gate, hboth.second⟩
  · obtain e' | e' := hs <;> (rw [e'] at e; obtain e | e := e <;> cases e)
  · obtain e' | e' := hs <;> (rw [e'] at e; cases e)

omit hmark in
theorem pairStops_marks (hs : s.stage o = .idle ∨ s.stage o = .releasing) : s.PairStops o n (stopRunning react o s) := by
  have hboth := stopRunning_marks h ht hs
  generalize stopRunning react o s = t at *
  refine ⟨fun e => ?_, fun e => ?_, fun e => ?_, fun e => ?_, .inl (hboth.atSecond.isBound.trans h.isBound), hboth.others,
    hboth.tables⟩
  · obtain e' | e' := hs <;> (rw [e'] at e; cases e)
  · obtain e' | e' := hs <;> (rw [e'] at e; obtain e | e := e <;> cases e)
  · obtain e' | e' := hs <;> (rw [e'] at e; obtain e | e := e <;> cases e)
  · obtain e' | e' := hs <;> (rw [e'] at e; cases e)

theorem pairStops_released (hs : s.stage o = .engaging ∨ s.stage o = .zeroing) (ho : s.willRaise o)
    (hf : s.willRaise (followerOf o)) : s.PairStops o n (stopRunning react o s) := by
  have hboth := stopRunning_released h ht hs ho hf
  have hsound : ((s.spout (followerOf o)).positioner.position == .faulted) = false := by
    obtain e | e := hf.1 <;> exact (congrArg (· == Position.faulted) e :)
  have hcontext := Spout.enterReleasing_context false (s.spout o).stopMarked.dropCapture
  have hbehind := Spout.releasedBehind_context false (s.spout (followerOf o)).dropCapture
  have hphase : (s.spout (followerOf o)).dropCapture.releasePhase = .releasing :=
    if_neg fun e => Bool.false_ne_true (hsound.symm.trans e)
  rw [hphase] at hbehind
  generalize stopRunning react o s = t at *
  have hfirst := hboth.atFirst.context.trans hcontext
  have hsecond := hboth.atSecond.context.trans hbehind
  refine ⟨fun e => ?_, fun e => ?_, fun _ => ⟨?_, ?_, ?_, ?_⟩, fun e => ?_, .inl ?_, hboth.others, hboth.tables⟩
  · obtain e' | e' := hs <;> (rw [e'] at e; cases e)
  · obtain e' | e' := hs <;> (rw [e'] at e; obtain e | e := e <;> cases e)
  · exact (congrArg (fun c => c.stage) hfirst :)
  · exact (congrArg (fun c => c.phase) hsecond :)
  · exact (congrArg (fun c => c.order.mark) hfirst).trans (stopMarked_mark hmark)
  · rintro j (rfl | rfl)
    · exact ⟨hboth.atFirst.isRaising rfl rfl rfl, (congrArg Calibration.capture hboth.atFirst.calibration :),
        (congrArg (fun c => c.gate) hfirst :)⟩
    · exact ⟨hboth.atSecond.isRaising rfl rfl rfl, (congrArg Calibration.capture hboth.atSecond.calibration :),
        (congrArg (fun c => c.gate) hsecond :)⟩
  · obtain e' | e' := hs <;> (rw [e'] at e; cases e)
  · exact (congrArg (fun c => c.stage == .bound) hsecond).trans h.isBound

/-- R65: the order in WAIT_INDEX ends with its binding, and nothing waits on either spout. -/
theorem pairStops_waiting (hm : s.memory.wf = true) (hslot : (s.context o).slot = some n) (hs : s.stage o = .waitIndex)
    (hc : (s.order o).count ≤ 12) (hq : s.queue o = []) (hqf : s.queue (followerOf o) = [])
    (hclaim : (s.context o).claim = none) : s.PairStops o n (stopRunning react o s) := by
  obtain ⟨u, hended, hboth, hclosed⟩ := stopRunning_waiting h ht hm hslot hs hc
  have hfree : (s.spout (followerOf o)).setFree = (s.spout (followerOf o)).unclaimed.resting := if_pos h.stage_follower
  rw [hmark] at hclosed
  rw [hfree] at hboth
  have hleader : react (.idle o) u = u := reactTo_idle_of_nothing _
    ((congrArg (fun c => c.claim) hboth.atFirst.context).trans hclaim) (hboth.atFirst.queue.trans hq)
  have hfollower : react (.idle (followerOf o)) u = u := reactTo_idle_of_nothing _
    (congrArg (fun c => c.claim) hboth.atSecond.context :) (hboth.atSecond.queue.trans hqf)
  rw [hleader, hfollower] at hended
  rw [hended]
  refine ⟨fun e => ?_, fun e => ?_, fun e => ?_, fun _ => ⟨?_, ?_, ?_, hclosed.slotState, hclosed.result⟩, .inr ?_,
    hboth.others, hboth.tables⟩
  · rw [hs] at e; cases e
  · rw [hs] at e; obtain e | e := e <;> cases e
  · rw [hs] at e; obtain e | e := e <;> cases e
  · exact ⟨hboth.atFirst.stage, (congrArg (fun c => c.slot) hboth.atFirst.context :), hboth.atFirst.order,
      hboth.atFirst.compartment⟩
  · exact ⟨hboth.atSecond.stage, (congrArg (fun c => c.slot) hboth.atSecond.context :), hboth.atSecond.order,
      hboth.atSecond.compartment⟩
  · exact (congrArg (fun c => c.claim) hboth.atSecond.context :)
  · exact (congrArg (fun c => c.slot) hboth.atSecond.context :)

/-- R113: a first STOP of a pair, by its leader's stage. -/
theorem pairStops_stopRunning (hm : s.memory.wf = true) (hslot : (s.context o).slot = some n) (hz : s.stage o ≠ .zeroRun)
    (hwill : s.stage o = .engaging ∨ s.stage o = .zeroing → s.willRaise o ∧ s.willRaise (followerOf o))
    (hwait : s.stage o = .waitIndex →
      (s.order o).count ≤ 12 ∧ s.queue o = [] ∧ s.queue (followerOf o) = [] ∧ (s.context o).claim = none) :
    s.PairStops o n (stopRunning react o s) := by
  have hb : s.stage o ≠ .bound := beq_eq_false_iff_ne.1 h.isBound_leader
  cases e : s.stage o with
  | idle => exact pairStops_marks h ht (.inl e)
  | releasing => exact pairStops_marks h ht (.inr e)
  | bound => exact absurd e hb
  | zeroRun => exact absurd e hz
  | waitIndex =>
    obtain ⟨hc, hq, hqf, hclaim⟩ := hwait e
    exact pairStops_waiting h ht hmark hm hslot e hc hq hqf hclaim
  | engaging =>
    obtain ⟨ho, hf⟩ := hwill (.inl e)
    exact pairStops_released h ht hmark (.inl e) ho hf
  | zeroing =>
    obtain ⟨ho, hf⟩ := hwill (.inr e)
    exact pairStops_released h ht hmark (.inr e) ho hf
  | opening => exact pairStops_open h ht hmark (by rw [e]; rfl)
  | coarse => exact pairStops_open h ht hmark (by rw [e]; rfl)
  | fine => exact pairStops_open h ht hmark (by rw [e]; rfl)
  | trim => exact pairStops_open h ht hmark (by rw [e]; rfl)
  | closing => exact pairStops_closed h ht hmark (.inl e)
  | settling => exact pairStops_closed h ht hmark (.inr e)

end Stopped

/-! ## The two commands (R112, R116) -/

/-- Only one spout of the part changes. -/
theorem forSpouts_single {g : SpoutId → State → State} {o : SpoutId} {s : State} (hbefore : ∀ j, j ≠ o → g j s = s)
    (hafter : ∀ j, j ≠ o → g j (g o s) = g o s) : forSpouts g s = g o s := by
  have hkept {t : State} (l : List SpoutId) (hl : ∀ j ∈ l, g j t = t) : l.foldl (fun t j => g j t) t = t := by
    induction l with
    | nil => rfl
    | cons j l ih =>
      rw [List.foldl_cons, hl j (by simp)]
      exact ih fun i hi => hl i (by simp [hi])
  obtain ⟨l, l', hsplit⟩ := List.append_of_mem (mem_allSpouts o)
  have hnodup : (l ++ o :: l').Nodup := hsplit ▸ (by decide : allSpouts.Nodup)
  have hl : ∀ j ∈ l, j ≠ o := by
    rintro j hj rfl
    exact List.disjoint_of_nodup_append hnodup hj (by simp)
  have hl' : ∀ j ∈ l', j ≠ o := by
    rintro j hj rfl
    exact (List.nodup_cons.1 (List.nodup_append.1 hnodup).2.1).1 hj
  unfold forSpouts
  rw [hsplit, List.foldl_append, hkept l fun j hj => hbefore j (hl j hj), List.foldl_cons,
    hkept l' fun j hj => hafter j (hl' j hj)]

/-- R116: with every queue empty, ALL_STOP withdraws nothing. -/
theorem forSpouts_withdrawQueue {s : State} (hq : ∀ j, s.queue j = []) : forSpouts withdrawQueue s = s := by
  have hkept (j : SpoutId) : withdrawQueue j s = s := by
    unfold withdrawQueue
    rw [hq j]
    have hself : ({ s.spout j with queue := [] } : Spout) = s.spout j := by rw [← hq j]; rfl
    exact State.updateSpout_id s j (fun p => { p with queue := [] }) hself
  have hone := forSpouts_single (g := withdrawQueue) (o := 0) (s := s) (fun j _ => hkept j) fun j _ => by
    rw [hkept 0]; exact hkept j
  rw [hone, hkept]

/-- R116: a context that runs an order of its own is stopped. -/
def stopOwn (i : SpoutId) (s : State) : State :=
  if (s.context i).slot.isSome && !s.isBound i then stopRunning react i s else s

theorem applyAllStop_eq (s : State) : applyAllStop react s = forSpouts stopOwn (forSpouts withdrawQueue s) := rfl

/-- R116: ALL_STOP while one context alone runs an order of its own. -/
theorem exec_allStop_single {o : SpoutId} {n : SlotId} {s : State} (hx : s.port.exchange = .running)
    (hslot : (s.context o).slot = some n) (hb : s.isBound o = false) (hq : ∀ j, s.queue j = [])
    (hothers : ∀ j, j ≠ o → (s.context j).slot = none ∨ s.isBound j = true)
    (hafter : ∀ j, j ≠ o → ((stopRunning react o s).context j).slot = none ∨ (stopRunning react o s).isBound j = true) :
    exec .allStop s = .next (stopRunning react o s) := by
  have hkept {t : State} {j : SpoutId} (hj : (t.context j).slot = none ∨ t.isBound j = true) : stopOwn j t = t := by
    refine if_neg ?_
    obtain e | e := hj
    · rw [e]; exact Bool.false_ne_true
    · rw [e, Bool.not_true, Bool.and_false]; exact Bool.false_ne_true
  have hself : stopOwn o s = stopRunning react o s := if_pos (by rw [hslot, hb]; rfl)
  have hfold : forSpouts stopOwn s = stopOwn o s :=
    forSpouts_single (fun j hj => hkept (hothers j hj)) fun j hj => hkept (by rw [hself]; exact hafter j hj)
  refine congrArg Host.Outcome.next ((if_pos hx).trans ?_)
  rw [applyAllStop_eq, forSpouts_withdrawQueue hq, hfold, hself]

/-- Nothing that a first STOP leaves of a pair is in the slot of the STOP. -/
theorem State.PairStops.answered {o : SpoutId} {n m : SlotId} {s t : State} (h : s.PairStops o n t) (hne : n ≠ m) (r : Result) :
    s.PairStops o n (markDone m r t) := by
  have hslot : SameSlot n t (markDone m r t) := sameSlot_answered hne t _ _ _
  obtain ⟨mem, done, hanswer⟩ := sameButAnswers_markDone m r t
  rw [hanswer] at hslot ⊢
  exact { h with
    rested := fun hs => by
      obtain ⟨ho, hf, hclaim, hstate, hresult⟩ := h.rested hs
      exact ⟨ho, hf, hclaim, hslot.slotStateByte.trans hstate, (hslot.slotU8 (by omega)).trans hresult⟩ }

/-- R113, R116: a STOP or an ALL_STOP of a pair. -/
theorem exec_stopsPair {c : Instr} {o : SpoutId} {n : SlotId} {s : State} (hm : s.memory.wf = true) (hstops : s.stopsOrder c o n)
    (h : s.pair o) (hmark : (s.order o).mark = .none) (ht : (s.order o).stopTaken = false) (hz : s.stage o ≠ .zeroRun)
    (hwill : s.stage o = .engaging ∨ s.stage o = .zeroing → s.willRaise o ∧ s.willRaise (followerOf o))
    (hwait : s.stage o = .waitIndex →
      (s.order o).count ≤ 12 ∧ s.queue o = [] ∧ s.queue (followerOf o) = [] ∧ (s.context o).claim = none) :
    ∃ t, exec c s = .next t ∧ s.PairStops o n t := by
  obtain ⟨hslot, hb, hstate, hx, ⟨m, rfl, hm0, htarget, hruns⟩ | ⟨rfl, hq, hothers⟩⟩ := hstops
  · obtain ⟨hne, hexec⟩ := exec_stop_running hx hm0 htarget hstate hruns
    have hstopped := pairStops_stopRunning (n := n) (s := s.posted m 10) h ht hmark (Memory.wf_writeBytes hm _ _) hslot hz hwill hwait
    exact ⟨_, hexec, (show s.PairStops o n _ from { hstopped with }).answered hne .stoppedRunning⟩
  · have hstopped := pairStops_stopRunning (n := n) h ht hmark hm hslot hz hwill hwait
    refine ⟨_, exec_allStop_single hx hslot hb hq hothers fun j hj => ?_, hstopped⟩
    by_cases hf : j = followerOf o
    · subst hf; exact hstopped.follower.symm
    · rw [State.context, State.isBound, State.stage, State.context, hstopped.others j hj hf]
      exact hothers j hj

end Sys2Proof.Machine

/-! What the reactions of one action leave alone (R52, R164): a bound on the spouts that they change and the bytes that they write,
kept by every handler. This layer: the bound, the memory, the blocks of a spout and the positioner. -/

namespace Sys2Proof.Machine

/-! ## The bound -/

/-- What an action may reach: the spouts it may change, those of them that may lead a TWIN, the slots it may write in, the entries it
may write there, and the bytes of the slots that it keeps. -/
structure Locality where
  spouts : SpoutId → Prop
  leaders : SpoutId → Prop
  slots : SlotId → Prop
  entries : Nat → Prop
  kept : SlotId → Nat → Prop

namespace Locality

/-- The bytes kept are none of those that the part writes in a slot, and a TWIN stays within its pair. -/
structure Sound (L : Locality) : Prop where
  first : L.entries 0
  partner : ∀ i, L.leaders i → L.spouts i ∧ L.spouts (followerOf i) ∧ L.spouts (leaderOf (followerOf i))
  kind : ∀ m, L.kept m 1
  header : ∀ m k, L.slots m → L.kept m k → ¬ (k = 0 ∨ (3 ≤ k ∧ k < 6) ∨ (0x10 ≤ k ∧ k < 0x20))
  entry : ∀ m q e j k, L.slots q → L.entries e → 5 ≤ j → j < 16 → L.kept m k → k < 256 →
    Config.slotBase m + k ≠ Config.slotBase q + entryOffset e + j

/-- The orders that spout `i` has, waits for or shows lie within the bound; the kinds are those of `s`. -/
structure Holds (L : Locality) (s : State) (i : SpoutId) (p : Spout) : Prop where
  queue : ∀ q ∈ p.queue, L.slots q ∧ (s.slotKind q = 2 → L.leaders i) ∧ ∀ e, L.entries e
  slot : ∀ q, p.context.slot = some q → L.slots q
  claim : ∀ c, p.context.claim = some c → L.leaders c.leader ∧ L.slots c.slot ∧ L.spouts (leaderOf i)
  bound : p.context.stage = .bound → L.spouts (leaderOf i)
  twin : p.context.order.twin = true → L.leaders i
  index : L.entries p.context.compartment.index
  count : ∀ e < p.context.order.count, L.entries e
  loaded : ∀ e < p.context.order.entries.length, L.entries e

/-- From `s` to `t` nothing outside the bound has changed, and what stands within it still reaches nothing else. -/
structure Within (L : Locality) (s t : State) : Prop where
  sound : L.Sound
  outside : ∀ j, ¬ L.spouts j → t.spout j = s.spout j
  bytes : ∀ m k, L.kept m k → k < 256 → t.memory.read (Config.slotBase m + k) = s.memory.read (Config.slotBase m + k)
  holds : ∀ j, L.spouts j → L.Holds s j (t.spout j)

end Locality

/-- The spout whose block acts on a report. -/
def Report.spout : Report → SpoutId
  | .idle i | .engaged i | .released i | .captureEnded i | .faultReport i => i

/-- The reactions passed to a handler keep within the bound. -/
def Locality.KeepsReaction (L : Locality) (s : State) (k : Reaction) : Prop :=
  ∀ r t, L.spouts r.spout → L.Within s t → L.Within s (k r t)

namespace Locality.Within

variable {L : Locality} {i o m : SpoutId} {n : SlotId} {s t u : State}

/-! ## Single updates -/

theorem update (h : L.Within s t) (hi : L.spouts i) (f : Spout → Spout) (hf : L.Holds s i (t.spout i) → L.Holds s i (f (t.spout i))) :
    L.Within s (t.updateSpout i f) where
  sound := h.sound
  outside j hj := (State.spout_updateSpout_ne t (fun e => hj (by rw [e]; exact hi)) f).trans (h.outside j hj)
  bytes := h.bytes
  holds j hj := by
    by_cases e : j = i
    · subst e
      rw [State.spout_updateSpout_self]
      exact hf (h.holds j hj)
    · rw [State.spout_updateSpout_ne t e]
      exact h.holds j hj

/-- A step that changes no spout and keeps the bytes. -/
theorem step (h : L.Within s t) (hspout : ∀ j, u.spout j = t.spout j)
    (hbytes : ∀ m k, L.kept m k → k < 256 → u.memory.read (Config.slotBase m + k) = t.memory.read (Config.slotBase m + k)) :
    L.Within s u where
  sound := h.sound
  outside j hj := (hspout j).trans (h.outside j hj)
  bytes m k hk h256 := (hbytes m k hk h256).trans (h.bytes m k hk h256)
  holds j hj := by rw [hspout]; exact h.holds j hj

theorem memory (h : L.Within s t) (hu : SameButMemory t u)
    (hbytes : ∀ m k, L.kept m k → k < 256 → u.memory.read (Config.slotBase m + k) = t.memory.read (Config.slotBase m + k)) :
    L.Within s u := h.step hu.spout hbytes

/-- A write below the slots. -/
theorem below (h : L.Within s t) (hu : SameButMemory t u) (hslots : ∀ m, SameSlot m t u) : L.Within s u :=
  h.memory hu fun m k _ hk => hslots m k hk

theorem updatePort (h : L.Within s t) (f : Port → Port) : L.Within s (t.updatePort f) := h.step (fun _ => rfl) fun _ _ _ _ => rfl

/-- The kind of a slot is the host's. -/
theorem slotKind (h : L.Within s t) (q : SlotId) : t.slotKind q = s.slotKind q :=
  congrArg BitVec.toNat (h.bytes q 1 (h.sound.kind q) (by omega))

/-! ## Writes of a slot -/

section Slots

variable (h : L.Within s t) (hn : L.slots n)
include h hn

/-- A write of the part's fields in the head of a slot. -/
theorem writeHeader (off : Nat) (bytes : List Byte) (hb : bytes ≠ [] →
    off + bytes.length ≤ 1 ∨ (3 ≤ off ∧ off + bytes.length ≤ 6) ∨ (0x10 ≤ off ∧ off + bytes.length ≤ 0x20)) :
    L.Within s (t.writeMemory (Config.slotBase n + off) bytes) := by
  refine h.memory (sameButMemory_writeMemory ..) fun m k hk h256 => Memory.read_writeBytes_other _ _ _ ?_
  cases bytes with
  | nil => simp only [List.length_nil]; omega
  | cons b l =>
    have hplace := hb (List.cons_ne_nil b l)
    simp only [List.length_cons] at hplace ⊢
    by_cases e : m = n
    · subst e
      have hkept := h.sound.header m k hn hk
      omega
    · have hapart := slotBase_apart e
      omega

/-- A write of the part's fields in an entry. -/
theorem writeEntryField (e off : Nat) (bytes : List Byte) (he : L.entries e) (ho : 5 ≤ off) (hb : off + bytes.length ≤ 16) :
    L.Within s (t.writeMemory (Config.slotBase n + entryOffset e + off) bytes) := by
  refine h.memory (sameButMemory_writeMemory ..) fun m k hk h256 => Memory.read_writeBytes_other _ _ _ ?_
  by_contra hin
  have hne := h.sound.entry m n e (Config.slotBase m + k - (Config.slotBase n + entryOffset e)) k hn he (by omega) (by omega) hk h256
  omega

theorem writeSlotState (x : SlotState) : L.Within s (writeSlotState n x t) :=
  h.writeHeader hn 0 _ fun _ => by rw [length_u8Bytes]; omega

theorem writeResult (r : Result) (why : Reason) (index : Nat) : L.Within s (writeResult n r why index t) :=
  h.writeHeader hn 3 _ fun _ => by simp only [List.length_append, length_u8Bytes]; omega

theorem finishSlot (r : Result) (why : Reason) (index : Nat) : L.Within s (finishSlot n r why index t) :=
  ((h.writeResult hn r why index).writeSlotState hn .done).updatePort fun p =>
    { p with doneCount := min (p.doneCount + 1) Config.maxDoneCount }

theorem markDone (r : Result) : L.Within s (markDone n r t) := h.finishSlot hn ..

theorem writeEntryCode {e : Nat} (he : L.entries e) (code : Code) : L.Within s (writeEntryCode n e code t) :=
  h.writeEntryField hn e 5 _ he (by omega) (by rw [length_u8Bytes]; omega)

theorem writeEffectiveTarget {e : Nat} (he : L.entries e) (eff : Nat) : L.Within s (writeEffectiveTarget n e eff t) :=
  h.writeEntryField hn e 8 _ he (by omega) (by rw [length_u32Bytes]; omega)

theorem writeEntry {e : Nat} (he : L.entries e) (code : Code) (secondary : Option Code) (trims final : Nat) :
    L.Within s (writeEntry n e code secondary trims final t) :=
  (h.writeEntryField hn e 5 _ he (by omega) (by simp only [List.length_append, length_u8Bytes]; decide)).writeEntryField hn e 12 _ he
    (by omega) (by rw [length_u32Bytes])

theorem writeProgress (count total : Nat) : L.Within s (writeProgress n count total t) :=
  (h.writeHeader hn 0x18 _ fun _ => by simp only [List.length_append, length_u8Bytes]; omega).writeHeader hn 0x1C _ fun _ => by
    rw [length_u32Bytes]; omega

theorem closeEntries {count : Nat} (hc : ∀ e < count, L.entries e) (total : Nat) : L.Within s (closeEntries n count total t) := by
  have hclosed (l : List Nat) (hl : ∀ e ∈ l, L.entries e) : L.Within s (l.foldl (closeEntry n) t) := by
    induction l generalizing t with
    | nil => exact h
    | cons e l ih =>
      refine ih ?_ fun e' he' => hl e' (List.mem_cons_of_mem _ he')
      unfold closeEntry; split
      · exact h.writeEntryCode hn (hl e List.mem_cons_self) _
      · exact h
  exact (hclosed _ fun e he => hc e (List.mem_range.1 he)).writeProgress hn _ _

theorem closeOrderSlot {x : OrderState} (hc : ∀ e < x.count, L.entries e) : L.Within s (closeOrderSlot n x t) :=
  (h.closeEntries hn hc _).markDone hn _

end Slots

/-! ## Writes below the slots, and what belongs to no spout -/

theorem refreshPanel (h : L.Within s t) (i : SpoutId) : L.Within s (refreshPanel i t) :=
  h.below (sameButMemory_refreshPanel ..) fun m => sameSlot_refreshPanel m i t

theorem writePreact (h : L.Within s t) (e : Fin 128) (v : PreactEntry) : L.Within s (writePreact e v t) := by
  have hset : L.Within s { t with preact := t.preact.set e v } := h.step (fun _ => rfl) fun _ _ _ _ => rfl
  exact hset.below (sameButMemory_writeStamped ..) fun m => sameSlot_writeStamped m _ (by
    rw [length_preactFields, Config.preactImageBase]; omega)

theorem learnRecord (h : L.Within s t) (r : CutRecord) : L.Within s (learnRecord r t) := by
  unfold Machine.learnRecord; split
  · exact h
  · split
    · exact h.writePreact _ _
    · exact h

/-! ## The blocks of a spout -/

section Blocks

variable (h : L.Within s t) (hi : L.spouts i)
include h hi

theorem updateChannel (f : Channel → Channel) : L.Within s (t.updateChannel i f) :=
  h.update hi (Spout.onChannel f) fun hp => { hp with }
theorem updateCalibration (f : Calibration → Calibration) : L.Within s (t.updateCalibration i f) :=
  h.update hi (Spout.onCalibration f) fun hp => { hp with }
theorem updatePositioner (f : Positioner → Positioner) : L.Within s (t.updatePositioner i f) :=
  h.update hi (Spout.onPositioner f) fun hp => { hp with }
theorem updateGate (f : GateUnit → GateUnit) : L.Within s (t.updateGate i f) :=
  h.update hi (Spout.onGate f) fun hp => { hp with }
theorem updateContext (f : Context → Context) (hf : L.Holds s i (t.spout i) → L.Holds s i ((t.spout i).onContext f)) :
    L.Within s (t.updateContext i f) := h.update hi (Spout.onContext f) hf

theorem updateCompartment (f : Compartment → Compartment) (hf : (f (t.compartment i)).index = (t.compartment i).index) :
    L.Within s (t.updateCompartment i f) :=
  h.update hi (Spout.onCompartment f) fun hp => { hp with
    index := by
      show L.entries (f (t.compartment i)).index
      rw [hf]; exact hp.index }

theorem updateOrder (f : OrderState → OrderState) (ht : (f (t.order i)).twin = (t.order i).twin)
    (hc : (f (t.order i)).count = (t.order i).count) (he : (f (t.order i)).entries = (t.order i).entries) :
    L.Within s (t.updateOrder i f) :=
  h.update hi (Spout.onOrder f) fun hp => { hp with
    twin := fun e => hp.twin (ht.symm.trans e)
    count := fun e he' => hp.count e (he'.trans_eq hc)
    loaded := fun e he' => hp.loaded e (he'.trans_eq (congrArg List.length he)) }

theorem applyProfile (v : Profile) : L.Within s (applyProfile i v t) := by
  have happlied : L.Within s (t.updateSpout i (Spout.applyProfile v)) := h.update hi _ fun hp => { hp with }
  exact happlied.below (sameButMemory_writeStamped ..) fun m => sameSlot_writeStamped m _ (by
    rw [length_profileFields, Config.profileImageBase]; omega)

theorem endIntegration : L.Within s (endIntegration i t) := h.updateChannel hi _
theorem startIntegration : L.Within s (startIntegration i t) := h.updateChannel hi _
theorem dropCapture : L.Within s (dropCapture i t) := h.updateCalibration hi _
theorem startCapture (kind : Capture) : L.Within s (startCapture i kind t) := h.updateCalibration hi _
theorem markOrder (x : EndMark) : L.Within s (markOrder i x t) := h.updateOrder hi _ rfl rfl rfl
theorem setCloseAwaited (b : Bool) : L.Within s (setCloseAwaited b i t) := h.updateCompartment hi _ rfl
theorem cutGate : L.Within s (cutGate i t) := (h.updateGate hi _).setCloseAwaited hi true
theorem openGate (x : GateOutput) : L.Within s (openGate i x t) := h.updateGate hi _

theorem setStage (x : Stage) (hx : x = .bound → L.spouts (leaderOf i)) : L.Within s (setStage i x t) := by
  have hset := h.updateContext hi (fun c => { c with stage := x }) fun hp => { hp with bound := hx }
  unfold Machine.setStage; dsimp only; split
  · exact hset
  · exact hset.refreshPanel i

theorem setPhase (x : Phase) : L.Within s (setPhase i x t) := by
  have hset := h.updateContext hi (fun c => { c with phase := x }) fun hp => { hp with }
  unfold Machine.setPhase; dsimp only; split
  · exact hset
  · exact hset.refreshPanel i

theorem setMemberPhase (o : SpoutId) (x : Phase) : L.Within s (setMemberPhase o i x t) := by
  unfold Machine.setMemberPhase; split
  · exact h
  · exact h.setPhase hi x

theorem restContext : L.Within s (restContext i t) := by
  refine (h.updateContext hi Context.rest fun hp => { hp with
    slot := fun q e => by cases e
    twin := fun e => by cases e
    index := h.sound.first
    count := fun e he => absurd he (Nat.not_lt_zero e)
    loaded := fun e he => absurd he (Nat.not_lt_zero e) }).setStage hi .idle fun e => by cases e

theorem withdrawClaimOf : L.Within s (t.updateContext i fun c => { c with claim := none }) :=
  h.updateContext hi _ fun hp => { hp with claim := fun c e => by cases e }

theorem leaveBound : L.Within s (leaveBound i t) := (h.withdrawClaimOf hi).restContext hi

theorem freeFollower : L.Within s (freeFollower i t) := by
  unfold Machine.freeFollower; split
  · exact h.leaveBound hi
  · exact h.withdrawClaimOf hi

theorem withdrawClaim : L.Within s (withdrawClaim i t) := by
  unfold Machine.withdrawClaim; split
  · exact h
  · exact h.withdrawClaimOf hi

/-- R52: the context that a spout works for. -/
theorem owner : L.spouts (t.ownerOf i) := by
  unfold State.ownerOf; split
  · next hb => exact (h.holds i hi).bound (beq_iff_eq.1 hb)
  · exact hi

/-- The spouts of a compartment. -/
theorem member (hm : m ∈ t.members i) : L.spouts m := by
  unfold State.members at hm; split at hm
  · next hb =>
    have htwin : (t.spout i).context.order.twin = true := (Bool.and_eq_true_iff.1 hb).1
    obtain rfl | hm := List.mem_cons.1 hm
    · exact hi
    · rw [List.mem_singleton.1 hm]
      exact (h.sound.partner i ((h.holds i hi).twin htwin)).2.1
  · rw [List.mem_singleton.1 hm]; exact hi

end Blocks

theorem foldl (h : L.Within s t) (l : List SpoutId) (f : SpoutId → State → State) (hl : ∀ m ∈ l, L.spouts m)
    (hf : ∀ m u, L.spouts m → L.Within s u → L.Within s (f m u)) : L.Within s (l.foldl (fun t m => f m t) t) := by
  induction l generalizing t with
  | nil => exact h
  | cons m l ih =>
    exact ih (hf m t (hl m List.mem_cons_self) h) fun j hj => hl j (List.mem_cons_of_mem _ hj)

theorem forMembers (h : L.Within s t) (ho : L.spouts o) {f : SpoutId → State → State}
    (hf : ∀ m u, L.spouts m → L.Within s u → L.Within s (f m u)) : L.Within s (forMembers o f t) :=
  h.foldl _ f (fun _ hm => h.member ho hm) hf

/-! ## The positioner -/

theorem updatePosition (h : L.Within s t) (hi : L.spouts i) (f : Positioner → Positioner) : L.Within s (updatePosition i f t) := by
  unfold Machine.updatePosition; dsimp only; split
  · exact h.updatePositioner hi f
  · exact (h.updatePositioner hi f).refreshPanel i

section Positioner

variable {k : Reaction} (h : L.Within s t) (hi : L.spouts i) (hk : L.KeepsReaction s k)
include h hi hk

theorem testLowered : L.Within s (testLowered k i t) := by
  unfold Machine.testLowered; split
  · exact hk (.engaged i) _ hi (h.updatePosition hi _)
  · exact h

theorem lowerSpout : L.Within s (lowerSpout k i t) := (h.updatePosition hi _).testLowered hi hk

theorem testRaised : L.Within s (testRaised k i t) := by
  have hraised := h.updatePosition hi fun p => { p.arrive .released with engageWaiting := false }
  unfold Machine.testRaised; dsimp only; split
  · split
    · exact hraised.lowerSpout hi hk
    · exact hk (.released i) _ hi hraised
  · exact h

theorem raiseSpout : L.Within s (raiseSpout k i t) := (h.updatePosition hi _).testRaised hi hk

theorem engageRequest : L.Within s (engageRequest k i t) := by
  unfold Machine.engageRequest; split
  · exact h.lowerSpout hi hk
  · exact h.updatePositioner hi _
  · exact h
  · exact hk (.engaged i) _ hi h
  · exact hk (.faultReport i) _ hi h
  · exact h.updatePositioner hi _

theorem releaseRequest : L.Within s (releaseRequest k i t) := by
  unfold Machine.releaseRequest; split
  · exact h.raiseSpout hi hk
  · exact h.raiseSpout hi hk
  · exact h.updatePositioner hi _
  · exact hk (.released i) _ hi h
  · exact hk (.faultReport i) _ hi h
  · exact h.updatePositioner hi _

theorem requestRelease (o : SpoutId) : L.Within s (requestRelease k o i t) := by
  unfold Machine.requestRelease; split
  · exact h.releaseRequest hi hk
  · exact h

end Positioner

end Locality.Within

end Sys2Proof.Machine

/-! The bound of one action (R52, R164), kept: load orders, and the end and the opening of a compartment. -/

namespace Sys2Proof.Machine.Locality.Within

variable {L : Locality} {i o m : SpoutId} {n : SlotId} {s t u : State} {k : Reaction}

/-! ## The end of an order -/

/-- R51: a TWIN's leader, its follower and the context that the follower works for stay within the bound. -/
theorem partner (h : L.Within s t) (hi : L.spouts i) (ht : (t.order i).twin = true) :
    L.spouts i ∧ L.spouts (followerOf i) ∧ L.spouts (leaderOf (followerOf i)) :=
  h.sound.partner i ((h.holds i hi).twin ht)

theorem endOrder (h : L.Within s t) (hi : L.spouts i) (hk : L.KeepsReaction s k) : L.Within s (endOrder k i t) := by
  have hidle {j : SpoutId} {u : State} (hj : L.spouts j) (hu : L.Within s u) : L.Within s (k (.idle j) u) := hk (.idle j) u hj hu
  have hrest {u : State} (hu : L.Within s u) : L.Within s (if (t.order i).twin then
      k (.idle (followerOf i)) (k (.idle i) (Machine.freeFollower (followerOf i) (Machine.restContext i u)))
      else k (.idle i) (Machine.restContext i u)) := by
    split
    · next ht =>
      obtain ⟨-, hf, -⟩ := h.partner hi ht
      exact hidle hf (hidle hi ((hu.restContext hi).freeFollower hf))
    · exact hidle hi (hu.restContext hi)
  unfold Machine.endOrder; dsimp only
  cases hslot : (t.context i).slot with
  | none => exact hrest h
  | some n => exact hrest (h.closeOrderSlot ((h.holds i hi).slot n hslot) (h.holds i hi).count)

theorem resetRest (h : L.Within s t) (hi : L.spouts i) : L.Within s (resetRest i t) := by
  have hrest {u : State} (hu : L.Within s u) : L.Within s (if (t.order i).twin then
      Machine.withdrawClaim (followerOf i) (Machine.restContext i u) else Machine.restContext i u) := by
    split
    · next ht => exact (hu.restContext hi).withdrawClaim (h.partner hi ht).2.1
    · exact hu.restContext hi
  unfold Machine.resetRest; dsimp only
  cases hslot : (t.context i).slot with
  | none => exact hrest h
  | some n =>
    have hn := (h.holds i hi).slot n hslot
    exact hrest ((h.closeEntries hn (h.holds i hi).count _).writeResult hn ..)

theorem concludeOrder (h : L.Within s t) (hi : L.spouts i) (hk : L.KeepsReaction s k) : L.Within s (concludeOrder k i t) := by
  unfold Machine.concludeOrder; split
  · exact h.resetRest hi
  · exact h.endOrder hi hk

/-! ## The index handshake -/

theorem testIndex (h : L.Within s t) (hi : L.spouts i) (hk : L.KeepsReaction s k) : L.Within s (testIndex k i t) := by
  have henter {u : State} (hu : L.Within s u) : L.Within s (enterEngaging i u) :=
    ((hu.updateOrder hi (fun x => { x with indexTimer := none }) rfl rfl rfl).dropCapture hi).setStage hi .engaging fun e => by cases e
  unfold Machine.testIndex; split
  · unfold beginEngaging; dsimp only; split
    · next ht =>
      obtain ⟨-, hf, -⟩ := h.partner hi ht
      have hboth := (henter ((h.dropCapture hf).setPhase hf .engaging)).engageRequest hi hk
      unfold engageFollower; dsimp only; split
      · exact hboth.engageRequest hf hk
      · exact hboth
    · exact (henter h).engageRequest hi hk
  · exact h

theorem startIndexTimer (h : L.Within s t) (hi : L.spouts i) : L.Within s (startIndexTimer i t) := h.updateOrder hi _ rfl rfl rfl

/-! ## Stepping -/

/-- R102: the entries passed over lie within the bound, and so does the one that is handed over. -/
theorem stepThrough (h : L.Within s t) (hn : L.slots n) (x : OrderState) (l : List OrderEntry) (e : Nat)
    (hl : ∀ j, e ≤ j → j < e + l.length → L.entries j) : L.Within s (stepThrough n x e l t).1
      ∧ ∀ j eff, (stepThrough n x e l t).2 = some (j, eff) → L.entries j := by
  induction l generalizing e t with
  | nil => exact ⟨h, fun _ _ c => by cases c⟩
  | cons y l ih =>
    have hlength : (y :: l).length = l.length + 1 := rfl
    rw [hlength] at hl
    have he : L.entries e := hl e le_rfl (by omega)
    unfold Machine.stepThrough; split
    · exact ih ((h.writeEntryCode hn he _).writeProgress hn _ _) (e + 1) fun j hj hj' => hl j (by omega) (by omega)
    · dsimp only; split
      · refine ⟨h, fun j eff c => ?_⟩
        obtain ⟨rfl, -⟩ := Prod.mk.inj (Option.some.inj c)
        exact he
      · refine ⟨?_, fun j eff c => by cases c⟩
        have hlater (r : List Nat) (hr : ∀ j ∈ r, L.entries j) {u : State} (hu : L.Within s u) :
            L.Within s (r.foldl (fun t j => Machine.writeEntryCode n j .skippedLimit t) u) := by
          induction r generalizing u with
          | nil => exact hu
          | cons j r ih =>
            exact ih (fun j' hj' => hr j' (List.mem_cons_of_mem _ hj')) (hu.writeEntryCode hn (hr j List.mem_cons_self) _)
        refine (hlater _ (fun j hj => ?_) h).writeProgress hn _ _
        obtain ⟨d, hd, rfl⟩ := List.mem_map.1 hj
        have := List.mem_range.1 hd
        exact hl (e + d) (by omega) (by omega)

theorem handOver (h : L.Within s t) (hi : L.spouts i) {e : Nat} (he : L.entries e) (eff : Nat) :
    L.Within s (handOver i e eff t) :=
  h.updateContext hi (fun c => { c with compartment := { index := e, effectiveTarget := eff } }) fun hp => { hp with index := he }

theorem placeClaim (h : L.Within s t) (hi : L.leaders i) (hn : L.slots n) (hk : L.KeepsReaction s k) :
    L.Within s (placeClaim k i n t) := by
  obtain ⟨hself, hf, hl⟩ := h.sound.partner i hi
  unfold Machine.placeClaim; dsimp only; split
  · exact (h.markOrder hself _).endOrder hself hk
  · refine hk (.idle (followerOf i)) _ hf (h.updateContext hf _ fun hp => { hp with
      claim := fun c e => ?_ })
    obtain rfl := Option.some.inj e
    exact ⟨hi, hn, hl⟩

theorem enterWaitIndex (h : L.Within s t) (hi : L.spouts i) (hk : L.KeepsReaction s k) : L.Within s (enterWaitIndex k i t) := by
  have htimer := h.startIndexTimer hi
  unfold Machine.enterWaitIndex; dsimp only; split
  · next ht =>
    obtain ⟨-, hf, -⟩ := htimer.partner hi ht
    have hshown := htimer.updateContext hf (fun c => { c with compartment := { index := ((Machine.startIndexTimer i t).compartment i).index } })
      fun hp => { hp with index := (htimer.holds i hi).index }
    exact ((hshown.setPhase hf .waiting).setStage hi .waitIndex fun e => by cases e).testIndex hi hk
  · exact (htimer.setStage hi .waitIndex fun e => by cases e).testIndex hi hk

theorem stepFrom (h : L.Within s t) (hi : L.spouts i) (hn : L.slots n) (hk : L.KeepsReaction s k) (e : Nat) (first : Bool) :
    L.Within s (stepFrom k i n e first t) := by
  have hloaded := (h.holds i hi).loaded
  obtain ⟨hstepped, hhanded⟩ := h.stepThrough hn (t.order i) ((t.order i).entries.drop e) e fun j hj hj' =>
    hloaded j (by rw [List.length_drop] at hj'; show j < (t.order i).entries.length; omega)
  have hleads : (t.order i).twin = true → L.leaders i := (h.holds i hi).twin
  unfold Machine.stepFrom; dsimp only; split
  · next v c => rw [c] at hstepped; exact hstepped.endOrder hi hk
  · next v e' eff c =>
    rw [c] at hstepped hhanded
    have hover := hstepped.handOver hi (hhanded e' eff rfl) eff
    split
    · next hfirst =>
      exact (hover.setStage hi .waitIndex fun e => by cases e).placeClaim (hleads (Bool.and_eq_true_iff.1 hfirst).1) hn hk
    · exact hover.enterWaitIndex hi hk

theorem becomeRunning (h : L.Within s t) (hi : L.spouts i) (hn : L.slots n) (hk : L.KeepsReaction s k) {twin : Bool}
    (ht : twin = true → L.leaders i) (he : ∀ e, L.entries e) : L.Within s (becomeRunning k i n twin t) := by
  have hcopied := (h.writeSlotState hn .running).updateContext hi (fun c => { c with
    slot := some n, compartment := {}, order := (Machine.writeSlotState n .running t).orderCopy n twin }) fun hp => { hp with
      slot := fun q e => by obtain rfl := Option.some.inj e; exact hn
      twin := ht
      index := he 0
      count := fun e _ => he e
      loaded := fun e _ => he e }
  exact hcopied.stepFrom hi hn hk 0 true

theorem grantClaim (h : L.Within s t) (hi : L.spouts i) (hk : L.KeepsReaction s k) {c : Claim} (hc : L.leaders c.leader)
    (hn : L.slots c.slot) (hl : L.spouts (leaderOf i)) : L.Within s (grantClaim k i c t) := by
  obtain ⟨hleader, -, -⟩ := h.sound.partner c.leader hc
  have hbound := h.updateContext hi (Context.bind (some c.slot) (t.compartment c.leader).index) fun hp => { hp with
    slot := fun q e => by obtain rfl := Option.some.inj e; exact hn
    index := (h.holds c.leader hleader).index }
  exact ((hbound.setStage hi .bound fun _ => hl).startIndexTimer hleader).testIndex hleader hk

/-! ## The end of a compartment -/

theorem leaveReleasing (h : L.Within s t) (ho : L.spouts o) (hk : L.KeepsReaction s k) : L.Within s (leaveReleasing k o t) := by
  unfold Machine.leaveReleasing; split
  · next hslot _ => exact h.stepFrom ho ((h.holds o ho).slot _ hslot) hk _ _
  · exact h.concludeOrder ho hk

theorem releaseCheck (h : L.Within s t) (ho : L.spouts o) (hk : L.KeepsReaction s k) : L.Within s (releaseCheck k o t) := by
  unfold Machine.releaseCheck; split
  · exact h.leaveReleasing ho hk
  · exact h

theorem enterReleasing (h : L.Within s t) (ho : L.spouts o) (settled : Bool) : L.Within s (enterReleasing o settled t) := by
  have hwatched := h.updateOrder ho (fun x => { x with watch := if t.present o .indexReady then .awaitDrop else .awaitRise }) rfl rfl rfl
  have hasked := hwatched.forMembers ho (f := fun m u => u.updateCompartment m fun c => { c with releasedAnswered := false })
    fun m u hm hu => hu.updateCompartment hm _ rfl
  have hphased := (hasked.setStage ho .releasing fun e => by cases e).forMembers ho (f := fun m u =>
    Machine.setMemberPhase o m (u.releasePhase m) u) fun m u hm hu => hu.setMemberPhase hm o _
  refine hphased.forMembers ho fun m u hm hu => ?_
  unfold startSettleCapture; split
  · exact hu.startCapture hm _
  · exact hu

theorem startRelease (h : L.Within s t) (ho : L.spouts o) (hk : L.KeepsReaction s k) (settled : Bool) :
    L.Within s (startRelease k o settled t) := by
  unfold Machine.startRelease; split
  · exact h.concludeOrder ho hk
  · exact ((h.enterReleasing ho settled).forMembers ho fun m u hm hu => hu.requestRelease hm hk o).releaseCheck ho hk

theorem onReleased (h : L.Within s t) (hi : L.spouts i) (hk : L.KeepsReaction s k) : L.Within s (onReleased k i t) := by
  unfold Machine.onReleased; dsimp only; split
  · exact (h.updateCompartment hi _ rfl).releaseCheck (h.owner hi) hk
  · exact h

theorem takeFinal (h : L.Within s t) : L.Within s (takeFinal o t).1 := by
  obtain ⟨c, hc⟩ := takeFinal_fst o t
  rw [hc]
  exact h.step (fun _ => rfl) fun _ _ _ _ => rfl

theorem recordEntry (h : L.Within s t) (ho : L.spouts o) (code : Code) (final : Nat) : L.Within s (recordEntry o code final t) := by
  have htotal := h.updateOrder ho (fun x => { x with total := x.total + final }) rfl rfl rfl
  unfold Machine.recordEntry; dsimp only; split
  · next hslot =>
    have hn := (htotal.holds o ho).slot _ hslot
    exact (htotal.writeEntry hn (h.holds o ho).index _ _ _ _).writeProgress hn _ _
  · exact htotal

theorem handRecord (h : L.Within s t) (code : Code) (final : Nat) (settled : Bool) : L.Within s (handRecord o code final settled t) := by
  unfold Machine.handRecord; split
  · split
    · exact h.learnRecord _
    · exact h
  · exact h

theorem finishCompartment (h : L.Within s t) (ho : L.spouts o) (hk : L.KeepsReaction s k) (settled : Bool) :
    L.Within s (finishCompartment k o settled t) := by
  have hfinal := (h.forMembers ho fun m u hm hu => hu.endIntegration hm).takeFinal (o := o)
  have hended (code : Code) (final : Nat) := ((hfinal.recordEntry ho code final).markOrder ho code.mark).handRecord (o := o) code final
    settled
  unfold Machine.finishCompartment; dsimp only; split
  · exact (hended _ _).resetRest ho
  · exact (hended _ _).startRelease ho hk settled

theorem endUnopened (h : L.Within s t) (ho : L.spouts o) (hk : L.KeepsReaction s k) (code : Code) :
    L.Within s (endUnopened k o code t) := by
  refine ((h.forMembers ho fun m u hm hu => hu.dropCapture hm).updateCompartment ho _ ?_).finishCompartment ho hk false
  unfold Compartment.setCause; split <;> rfl

/-! ## Cuts -/

theorem setCause (h : L.Within s t) (ho : L.spouts o) (reason : Option Code) :
    L.Within s (t.updateCompartment o (Compartment.setCause reason)) := h.updateCompartment ho _ (by
  unfold Compartment.setCause; split <;> rfl)

theorem recordCause (h : L.Within s t) (ho : L.spouts o) (code : Code) :
    L.Within s (t.updateCompartment o (Compartment.record code)) := h.updateCompartment ho _ (by
  unfold Compartment.record; split_ifs <;> rfl)

theorem cutMember (h : L.Within s t) (hm : L.spouts m) (o : SpoutId) : L.Within s (cutMember o m t) := by
  unfold Machine.cutMember; split
  · exact (h.cutGate hm).setMemberPhase hm o _
  · exact h

theorem cut (h : L.Within s t) (ho : L.spouts o) (reason : Option Code) : L.Within s (cut o reason t) :=
  ((h.forMembers ho fun m u hm hu => hu.cutMember hm o).setCause ho reason).setStage ho .closing fun e => by cases e

theorem interlock (h : L.Within s t) (ho : L.spouts o) (code : Code) : L.Within s (interlock o code t) := by
  unfold Machine.interlock; split_ifs
  · exact h.cut ho _
  · exact (h.recordCause ho code).forMembers ho fun m u hm hu => hu.cutMember hm o
  · exact h

/-! ## The opening -/

theorem verifyOpening (h : L.Within s t) (hi : L.spouts i) : L.Within s (verifyOpening i t) := by
  have hverified := ((h.updateGate hi (GateUnit.verify (t.profile i).starveWindow)).updateCompartment hi (fun c =>
    { c with starveCount := 0 }) rfl).setMemberPhase hi (t.ownerOf i) .feeding
  unfold Machine.verifyOpening; dsimp only; split
  · refine hverified.setStage (h.owner hi) _ fun e => ?_
    split at e <;> cases e
  · exact hverified

theorem openCompartment (h : L.Within s t) (ho : L.spouts o) : L.Within s (openCompartment o t) := by
  have hopened := h.updateCompartment ho (fun c => { c with opened := true }) rfl
  have hgates (x : GateOutput) := hopened.forMembers ho (f := fun m u =>
    Machine.setMemberPhase o m .opening (Machine.openGate m x (Machine.startIntegration m u)))
    fun m u hm hu => ((hu.startIntegration hm).openGate hm x).setMemberPhase hm o .opening
  refine ((hgates _).setStage ho .opening fun e => by cases e).forMembers ho fun m u hm hu => ?_
  split
  · exact hu.verifyOpening hm
  · exact hu

theorem closeUnopened (h : L.Within s t) (ho : L.spouts o) : L.Within s (closeUnopened o t) := by
  refine ((h.forMembers ho fun m u hm hu => ?_).updateCompartment ho (fun c => { c.setCause (some .noOpen) with noSettle := true })
    (by dsimp only; unfold Compartment.setCause; split <;> rfl)).setStage ho .closing fun e => by cases e
  split
  · exact hu
  · exact (hu.cutGate hm).setMemberPhase hm o .closing

theorem checkOpening (h : L.Within s t) (ho : L.spouts o) (hk : L.KeepsReaction s k) : L.Within s (checkOpening k o t) := by
  have hended (code : Code) := h.endUnopened ho hk code
  unfold Machine.checkOpening; dsimp only
  split
  · exact hended _
  split
  · exact hended _
  split
  · exact hended _
  split
  · exact hended _
  split
  · exact h.closeUnopened ho
  · exact h.openCompartment ho

theorem clearCompartment (h : L.Within s t) (ho : L.spouts o) : L.Within s (clearCompartment o t) := by
  have hindex := (h.holds o ho).index
  have htarget : L.Within s (match (t.context o).slot with
      | some n => Machine.writeEffectiveTarget n (t.compartment o).index (t.compartment o).effectiveTarget t
      | none => t) := by
    split
    · next hslot => exact h.writeEffectiveTarget ((h.holds o ho).slot _ hslot) hindex _
    · exact h
  exact htarget.forMembers ho fun m u hm hu => hu.updateContext hm _ fun hp => { hp with index := hindex }

theorem startCompartment (h : L.Within s t) (ho : L.spouts o) (hk : L.KeepsReaction s k) :
    L.Within s (startCompartment k o t) := by
  have hclear := h.clearCompartment ho
  unfold Machine.startCompartment; dsimp only; split
  · exact hclear.checkOpening ho hk
  · exact (hclear.setStage ho .zeroing fun e => by cases e).foldl _
      (fun m u => Machine.setMemberPhase o m .zeroing (Machine.startCapture m .longBlocking u))
      (fun m hm => hclear.member ho (List.mem_filter.1 hm).1) fun m u hm hu => (hu.startCapture hm _).setMemberPhase hm o .zeroing

theorem onEngaged (h : L.Within s t) (hi : L.spouts i) (hk : L.KeepsReaction s k) : L.Within s (onEngaged k i t) := by
  have hreported := h.updateCompartment hi (fun c => { c with engagedReported := true }) rfl
  unfold Machine.onEngaged; dsimp only; split
  · split
    · exact hreported.startCompartment (h.owner hi) hk
    · exact hreported
  · exact h

end Sys2Proof.Machine.Locality.Within

/-! The bound of one action (R52, R164), kept: the service of a queue head, faults, a STOP, and so every reaction. -/

namespace Sys2Proof.Machine

namespace Locality.Within

variable {L : Locality} {i o m : SpoutId} {n : SlotId} {s t u : State} {k : Reaction}

/-! ## Service at a queue head -/

section Service

variable (h : L.Within s t) (hi : L.spouts i) (hn : L.slots n) (hk : L.KeepsReaction s k)
include h hi hk

theorem endZeroRun (r : Result) (before : Int) : L.Within s (endZeroRun k i r before t) := by
  have hdropped := h.dropCapture hi
  unfold Machine.endZeroRun; dsimp only; split
  · next hslot =>
    have hn := (hdropped.holds i hi).slot _ hslot
    exact hk (.idle i) _ hi (((hdropped.writeHeader hn 0x10 _ fun _ => by
      simp only [List.length_append, length_u8Bytes, length_s16Bytes]; omega).markDone hn _).restContext hi)
  · exact hk (.idle i) _ hi (hdropped.restContext hi)

include hn

theorem serveZero : L.Within s (serveZero k i n t) := by
  unfold Machine.serveZero; split
  · have hrun := (h.writeSlotState hn .running).updateContext hi (fun c => { c with slot := some n }) fun hp => { hp with
      slot := fun q e => by obtain rfl := Option.some.inj e; exact hn }
    exact ((hrun.dropCapture hi).setStage hi .zeroRun fun e => by cases e).startCapture hi _
  · exact hk (.idle i) _ hi (h.finishSlot hn ..)

theorem serveReconcile : L.Within s (serveReconcile k i n t) := by
  have hspan := h.updateCalibration hi fun c => { c with
    span := ((t.calibration i).reconcile (reconcileRatio (t.slotU32 n 0x10) (t.slotU32 n 0x14))).1 }
  exact hk (.idle i) _ hi ((hspan.writeHeader hn 0x18 _ fun _ => by
    simp only [List.length_append, length_u32Bytes, length_u16Bytes]; omega).markDone hn _)

/-- R164: the head of a queue, by its kind. -/
theorem serveHead (ht : s.slotKind n = 2 → L.leaders i) (he : ∀ e, L.entries e) : L.Within s (serveHead k i n t) := by
  have htwin : Kind.ofValue (t.slotKind n) = some .twin → L.leaders i := fun e => by
    have hvalue : (Kind.twin.value == t.slotKind n) = true :=
      List.find?_some (p := fun k : Kind => k.value == t.slotKind n) e
    exact ht ((h.slotKind n).symm.trans (beq_iff_eq.1 hvalue).symm)
  unfold Machine.serveHead; split
  · exact h.becomeRunning hi hn hk (fun e => by cases e) he
  · next hkind => exact h.becomeRunning hi hn hk (fun _ => htwin hkind) he
  · exact h.serveZero hi hn hk
  · exact h.serveReconcile hi hn hk
  · exact hk (.idle i) _ hi ((h.applyProfile hi _).markDone hn _)
  · exact hk (.idle i) _ hi ((h.writePreact _ _).markDone hn _)
  · exact h

end Service

theorem setQueue (h : L.Within s t) (hi : L.spouts i) {q : List SlotId} (hq : ∀ m ∈ q, m ∈ t.queue i) :
    L.Within s (t.setQueue i q) :=
  h.update hi (fun p => { p with queue := q }) fun hp => { hp with queue := fun m hm => hp.queue m (hq m hm) }

theorem onIdle (h : L.Within s t) (hi : L.spouts i) (hk : L.KeepsReaction s k) : L.Within s (onIdle k i t) := by
  have hp := h.holds i hi
  unfold Machine.onIdle; split
  · split
    · next c hclaim =>
      obtain ⟨hleader, hn, hl⟩ := hp.claim c hclaim
      exact h.grantClaim hi hk hleader hn hl
    · next m rest hclaim hqueue =>
      obtain ⟨hn, ht, he⟩ := hp.queue m (by rw [show (t.spout i).queue = _ from hqueue]; exact List.mem_cons_self)
      refine (h.setQueue hi (q := rest) fun j hj => ?_).serveHead hi hn hk ht he
      rw [hqueue]; exact List.mem_cons_of_mem _ hj
    · exact h
  · exact h

/-! ## Faults -/

theorem freezeChannel (h : L.Within s t) (hi : L.spouts i) (cause : FaultCause) : L.Within s (freezeChannel i cause t) := by
  unfold Machine.freezeChannel; split
  · exact h
  · exact h.endIntegration hi

theorem awaitCloses (h : L.Within s t) (ho : L.spouts o) : L.Within s (awaitCloses o t) := by
  refine h.forMembers ho fun m u hm hu => ?_
  split
  · exact hu.setCloseAwaited hm true
  · exact hu

section Faults

variable (h : L.Within s t) (ho : L.spouts o) (hk : L.KeepsReaction s k)
include h ho hk

theorem closesEnded : L.Within s (closesEnded k o t) := by
  unfold Machine.closesEnded; split
  · exact h.finishCompartment ho hk false
  · exact h

theorem resetCheck : L.Within s (resetCheck k o t) := by
  unfold Machine.resetCheck; split
  · exact h.finishCompartment ho hk false
  · exact h

theorem faultAlone (cause : FaultCause) : L.Within s (faultAlone k o cause t) := by
  have hfrozen := h.freezeChannel ho cause
  have hcaused := hfrozen.recordCause ho cause.code
  unfold Machine.faultAlone; dsimp only; split
  · split_ifs
    · exact hcaused.finishCompartment ho hk false
    · exact hcaused
    · exact hcaused.updateCompartment ho _ rfl
  · split_ifs
    · exact hcaused
    · exact hcaused.finishCompartment ho hk false
  · exact (hfrozen.cut ho _).updateCompartment ho _ rfl

variable (hi : L.spouts i)
include hi

theorem faultInPair (cause : FaultCause) : L.Within s (faultInPair k o i cause t) := by
  have hlocked := ((h.freezeChannel hi cause).interlock ho cause.code).updateCompartment ho (fun c => { c with noSettle := true }) rfl
  exact ((hlocked.awaitCloses ho).setMemberPhase hi o _).closesEnded ho hk

theorem faultInReset (cause : FaultCause) : L.Within s (faultInReset k o i cause t) := by
  have hcaused := (h.freezeChannel hi cause).recordCause ho cause.code
  unfold Machine.faultInReset; dsimp only; split
  · refine Locality.Within.resetCheck ?_ ho hk
    split
    · exact ((hcaused.endIntegration ho).updateCompartment ho (fun c => { c with noSettle := true }) rfl).setStage ho .settling
        fun e => by cases e
    · exact (hcaused.endIntegration hi).leaveBound hi
  · exact hcaused

theorem faultMetering (cause : FaultCause) : L.Within s (faultMetering k o i cause t) := by
  have hmarked := h.markOrder ho .spoutFault
  unfold Machine.faultMetering; dsimp only
  split
  · exact hmarked.faultAlone ho hk cause
  split
  · exact hmarked.faultInReset ho hk hi cause
  · exact hmarked.faultInPair ho hk hi cause

end Faults

theorem contextFaulted (h : L.Within s t) (hi : L.spouts i) (hk : L.KeepsReaction s k) (cause : FaultCause) :
    L.Within s (contextFaulted k i cause t) := by
  have ho := h.owner hi
  have hmarked := h.markOrder ho .spoutFault
  unfold Machine.contextFaulted; dsimp only; split
  · split
    · exact h.leaveBound hi
    · exact h
  · exact h
  · exact hmarked.endOrder ho hk
  · exact hmarked.endUnopened ho hk _
  · exact hmarked.endUnopened ho hk _
  · split
    · exact (hmarked.setMemberPhase hi _ _).releaseCheck ho hk
    · exact hmarked.concludeOrder ho hk
  · exact h.endZeroRun ho hk _ _
  all_goals exact h.faultMetering ho hk hi cause

/-! ## A STOP -/

theorem stopOrder (h : L.Within s t) (ho : L.spouts o) (hk : L.KeepsReaction s k) : L.Within s (stopOrder k o t) := by
  have hmarked := (h.markOrder ho .stopped).updateOrder ho (fun x => { x with stopTaken := true }) rfl rfl rfl
  unfold Machine.stopOrder; split
  · exact h
  dsimp only
  split
  · exact hmarked.endOrder ho hk
  · exact (hmarked.forMembers ho fun m u hm hu => hu.dropCapture hm).startRelease ho hk false
  · exact (hmarked.forMembers ho fun m u hm hu => hu.dropCapture hm).startRelease ho hk false
  · exact hmarked.cut ho _
  · exact hmarked.cut ho _
  · exact hmarked.cut ho _
  · exact hmarked.cut ho _
  · exact hmarked.updateCompartment ho _ rfl
  · exact hmarked.updateCompartment ho _ rfl
  · exact hmarked

theorem stopRunning (h : L.Within s t) (hi : L.spouts i) (hk : L.KeepsReaction s k) : L.Within s (stopRunning k i t) := by
  unfold Machine.stopRunning; split
  · exact h.endZeroRun hi hk _ _
  · exact h.stopOrder hi hk

end Locality.Within

/-! ## Every reaction -/

/-- R52, R164: the reactions of one action keep within a bound. -/
theorem Locality.keepsReaction_reactTo (L : Locality) (s : State) (d : Nat) : L.KeepsReaction s (reactTo d) := by
  induction d with
  | zero => exact fun _ _ _ ht => ht
  | succ d ih =>
    intro r t hr ht
    cases r with
    | idle i => exact ht.onIdle hr ih
    | engaged i => exact ht.onEngaged hr ih
    | released i => exact ht.onReleased hr ih
    | captureEnded i => exact ht.releaseCheck (ht.owner hr) ih
    | faultReport i => exact ht.contextFaulted hr ih _

theorem Locality.keepsReaction_react (L : Locality) (s : State) : L.KeepsReaction s react := L.keepsReaction_reactTo s _

end Sys2Proof.Machine

/-! The service of a queue head (R52, R164), by its kind: a LOAD waits for its hatch, a ZERO runs or is refused, a SEED is done. -/

namespace Sys2Proof.Machine

/-! ## A LOAD -/

/-- R106: a spout that works by itself waits for its hatch, where the index condition does not hold. -/
theorem Becomes.enterWaitIndex {i : SpoutId} {w : Option SlotId} {p : Spout} {q : Port} {s t : State} (h : Becomes i w p q s t)
    (k : Reaction) (ht : p.context.order.twin = false) (hi : indexCondition p.context.order.watch p.field.indexReady.taken = false) :
    Becomes i w (p.timesIndex.onStage .waitIndex) q s (enterWaitIndex k i t)
      ∧ ∀ n, SameSlot n t (Machine.enterWaitIndex k i t) := by
  have htimer := h.updateOrder fun o => { o with indexTimer := some (p.calibration.profile.indexTimeout * 1000) }
  have htimed : Becomes i w p.timesIndex q s (startIndexTimer i t) := by
    unfold startIndexTimer
    rw [h.profile]
    exact htimer
  have hstaged := htimed.setStage .waitIndex
  have hunmet : testIndex k i (Machine.setStage i .waitIndex (startIndexTimer i t))
      = Machine.setStage i .waitIndex (startIndexTimer i t) :=
    testIndex_unmet k (by rw [hstaged.order, hstaged.present]; exact hi)
  have hsingle : (startIndexTimer i t).isTwin i = false := htimed.isTwin.trans ht
  have hwait : Machine.enterWaitIndex k i t = Machine.setStage i .waitIndex (startIndexTimer i t) := by
    unfold Machine.enterWaitIndex; dsimp only
    rw [hsingle, if_neg Bool.false_ne_true, hunmet]
  rw [hwait]
  exact ⟨hstaged, fun n => sameSlot_setStage n i .waitIndex (startIndexTimer i t)⟩

/-- R100, R101: the spout whose LOAD has become RUNNING at entry 0. -/
def Spout.loads (n : SlotId) (o : OrderState) (eff : Nat) : Spout → Spout := Spout.onContext fun c =>
  { c with slot := some n, compartment := { index := 0, effectiveTarget := eff }, order := o }

/-- R100, R101, R106: a LOAD whose first entry is to be loaded waits for INDEX_READY. -/
theorem becomeRunning_load (k : Reaction) {i : SpoutId} {n : SlotId} {s : State} (hm : s.memory.wf = true)
    (hc : 1 ≤ s.loadCount n) (hskip : s.slotU8 n 0x44 = 0) (htarget : 1 ≤ s.slotU32 n 0x40) (hlimit : 1 ≤ s.loadLimit n)
    (hr : s.present i .indexReady = false) :
    Becomes i (some n) (((s.spout i).loads n ((writeSlotState n .running s).orderCopy n false)
      (min (s.slotU32 n 0x40) (s.loadLimit n))).timesIndex.onStage .waitIndex) s.port s (becomeRunning k i n false s)
      ∧ (becomeRunning k i n false s).slotStateByte n = 3 := by
  have hbegins : becomeRunning k i n false s = stepFrom k i n 0 true ((writeSlotState n .running s).updateContext i fun c =>
      { c with slot := some n, compartment := {}, order := (writeSlotState n .running s).orderCopy n false }) := rfl
  have hstep := stepThrough_first (n := n) hc hskip htarget hlimit false
  have hrunning := (Becomes.refl i (some n) s).writeSlotState .running
  have hstate := slotStateByte_running hm n
  have htwin : ((writeSlotState n .running s).orderCopy n false).twin = false := rfl
  have hwatch : ((writeSlotState n .running s).orderCopy n false).watch = .first := rfl
  rw [hbegins]
  generalize (writeSlotState n .running s).orderCopy n false = x at *
  generalize min (s.slotU32 n 0x40) (s.loadLimit n) = eff at *
  generalize writeSlotState n .running s = v at *
  have hw := hrunning.updateContext fun c => { c with slot := some n, compartment := {}, order := x }
  have hover : Becomes i (some n) ((s.spout i).loads n x eff) s.port s (handOver i 0 eff (v.updateContext i fun c =>
      { c with slot := some n, compartment := {}, order := x })) :=
    hw.updateCompartment fun _ => { index := 0, effectiveTarget := eff }
  have hstepped : stepFrom k i n 0 true (v.updateContext i fun c => { c with slot := some n, compartment := {}, order := x })
      = enterWaitIndex k i (handOver i 0 eff (v.updateContext i fun c =>
        { c with slot := some n, compartment := {}, order := x })) := by
    unfold stepFrom; dsimp only
    rw [show (v.updateContext i fun c => { c with slot := some n, compartment := {}, order := x }).order i = x from hw.order, hstep]
    dsimp only
    rw [if_neg (by rw [htwin]; exact Bool.false_ne_true)]
  obtain ⟨hwait, hslots⟩ := hover.enterWaitIndex k htwin (by
    show indexCondition x.watch (s.present i .indexReady) = false
    rw [hwatch, hr]; rfl)
  rw [hstepped]
  exact ⟨hwait, (hslots n).slotStateByte.trans hstate⟩

/-! ## The head of a queue -/

/-- R195: the refusal reason of a slot that is DONE. -/
theorem reason_answered {s : State} (hm : s.memory.wf = true) (n : SlotId) (result reason index : Nat) :
    (s.answered n result reason index).slotU8 n 4 = reason % 256 := by
  have h := ((State.holds_writeMemory hm (Config.slotBase n + 3)
    [BitVec.ofNat 8 result, BitVec.ofNat 8 reason, BitVec.ofNat 8 index]).writeMemory_other (b := Config.slotBase n)
    (other := [4]) (.inr (by simp))).u8 (k := 1) rfl
  rw [BitVec.toNat_ofNat] at h
  exact h

/-- R75: a SEED in the preact table. -/
theorem seedEntry_seeds (i : SpoutId) (p : ProductId) (lag : Nat) {s : State} (hm : s.memory.wf = true) :
    (seedEntry i p lag s).memory.wf = true ∧ (∀ j, (seedEntry i p lag s).spout j = s.spout j)
      ∧ (seedEntry i p lag s).preact[preactIndex i p] = { s.preact[preactIndex i p] with lag := lag, origin := .seeded } := by
  refine ⟨Memory.wf_writeBytes (Memory.wf_writeBytes (Memory.wf_writeBytes hm _ _) _ _) _ _, fun j => rfl, ?_⟩
  show (s.preact.set (preactIndex i p) _)[preactIndex i p] = _
  simp

section Head

variable {i : SpoutId} {m : SlotId} {rest : List SlotId} {s : State} (hm : s.memory.wf = true)
include hm

/-- R92: a ZERO at its queue head, on a gate that is shut. -/
theorem serveZero_runs (k : Reaction) (hg : s.present i .gateClosed = true) :
    Becomes i (some m) ((((s.spout i).onContext fun c => { c with slot := some m }).dropCapture.onStage .zeroRun).startCapture
      .longOrder) s.port s (serveZero k i m s) ∧ (serveZero k i m s).slotStateByte m = 3 := by
  have hrunning := (Becomes.refl i (some m) s).writeSlotState .running
  have hzero := (((hrunning.updateContext fun c => { c with slot := some m }).dropCapture).setStage .zeroRun).startCapture .longOrder
  unfold serveZero
  rw [if_pos hg]
  refine ⟨hzero, ?_⟩
  have hstate : (setStage i .zeroRun (dropCapture i ((writeSlotState m .running s).updateContext i fun c =>
      { c with slot := some m }))).slotStateByte m = (writeSlotState m .running s).slotStateByte m :=
    (sameSlot_setStage m i .zeroRun _).slotStateByte
  exact hstate.trans (slotStateByte_running hm m)

variable (hx : s.port.exchange = .running) (hr : s.atRest i) (hc : (s.context i).claim = none) (hq : s.queue i = m :: rest)
include hr hc

omit hm in
/-- R52, R164: a spout at rest that has served its only order serves nothing more. -/
theorem reactTo_idle_served {u : State} (hrest : rest = []) (hu : u.spout i = { s.spout i with queue := rest }) (d : Nat) :
    reactTo d (.idle i) u = u ∧ u.atRest i ∧ u.queue i = [] := by
  obtain ⟨hstage, hslot, horder, hcompartment⟩ := hr
  have hcontext : u.context i = s.context i := (congrArg (fun p => p.context) hu :)
  have hqueue : u.queue i = [] := (congrArg (fun p => p.queue) hu).trans hrest
  refine ⟨reactTo_idle_of_nothing d (by rw [hcontext]; exact hc) hqueue, ⟨?_, ?_, ?_, ?_⟩, hqueue⟩
  · exact (congrArg Context.stage hcontext).trans hstage
  · rw [hcontext]; exact hslot
  · exact (congrArg Context.order hcontext).trans horder
  · exact (congrArg Context.compartment hcontext).trans hcompartment

include hx hq

omit hm in
theorem react_idle_head : react (.idle i) s = serveHead (reactTo 63) i m (s.setQueue i rest) := by
  rw [react_idle, onIdle_head _ hx hr.1 hc hq]

/-- R52, R164: the head of the queue of a spout at rest, no TWIN. -/
theorem serves_head (hk : s.slotKind m ≠ 2) : s.serves (react (.idle i) s) i m rest := by
  have hout := (Becomes.refl i (some m) s).setQueue rest
  have hself : Becomes i (some m) { s.spout i with queue := rest } s.port (s.setQueue i rest) (s.setQueue i rest) := by
    have hrefl := Becomes.refl i (some m) (s.setQueue i rest)
    rw [hout.spout] at hrefl
    exact hrefl
  rw [react_idle_head hx hr hc hq]
  refine ⟨fun hkind hcount hskip htarget hlimit hready => ?_, fun e => absurd e hk, fun hkind hg => ?_, fun hkind hg he => ?_,
    fun hkind he => ?_⟩
  · have hhead : serveHead (reactTo 63) i m (s.setQueue i rest) = becomeRunning (reactTo 63) i m false (s.setQueue i rest) := by
      unfold serveHead
      rw [slotKind_setQueue, hkind]; rfl
    obtain ⟨hrun, hstate⟩ := becomeRunning_load (reactTo 63) (s := s.setQueue i rest) hm hcount hskip htarget hlimit
      ((hout.present .indexReady).trans hready)
    rw [hhead]
    rw [hout.spout] at hrun
    exact ⟨hstate, hrun.stage, (congrArg (fun c => c.slot) hrun.context :), hrun.queue, hrun.compartment,
      (congrArg (fun o => o.indexTimer) hrun.order :), (congrArg (fun o => o.mark) hrun.order :),
      (congrArg (fun o => o.total) hrun.order :)⟩
  · have hhead : serveHead (reactTo 63) i m (s.setQueue i rest) = serveZero (reactTo 63) i m (s.setQueue i rest) := by
      unfold serveHead
      rw [slotKind_setQueue, hkind]; rfl
    obtain ⟨hrun, hstate⟩ := serveZero_runs (m := m) (s := s.setQueue i rest) hm (reactTo 63) ((hout.present .gateClosed).trans hg)
    rw [hhead]
    rw [hout.spout] at hrun
    exact ⟨hstate, hrun.stage, (congrArg (fun c => c.slot) hrun.context :), hrun.queue,
      (congrArg (fun c => c.capture) hrun.calibration :), (congrArg (fun c => c.captureCount) hrun.calibration :),
      (congrArg (fun c => c.zeroTimeout) hrun.calibration :)⟩
  · have hshut : (s.setQueue i rest).present i .gateClosed = false := (hout.present .gateClosed).trans hg
    have hhead : serveHead (reactTo 63) i m (s.setQueue i rest)
        = reactTo 63 (.idle i) ((s.setQueue i rest).answered m 8 9 0xFF) := by
      unfold serveHead
      rw [slotKind_setQueue, hkind]
      show serveZero (reactTo 63) i m (s.setQueue i rest) = _
      unfold serveZero
      rw [hshut, if_neg Bool.false_ne_true]; rfl
    obtain ⟨hnothing, hrests, hqueue⟩ := reactTo_idle_served (u := (s.setQueue i rest).answered m 8 9 0xFF) hr hc he hout.spout 63
    rw [hhead, hnothing]
    exact ⟨slotStateByte_answered (s := s.setQueue i rest) hm m 8 9 0xFF, result_answered (s := s.setQueue i rest) hm m 8 9 0xFF,
      reason_answered (s := s.setQueue i rest) hm m 8 9 0xFF, hrests, hqueue⟩
  · have hhead : serveHead (reactTo 63) i m (s.setQueue i rest) = reactTo 63 (.idle i)
        (markDone m .ok (seedEntry i (Fin.ofNat 16 (s.slotU8 m 0x10)) (s.slotU16 m 0x12) (s.setQueue i rest))) := by
      unfold serveHead
      rw [slotKind_setQueue, hkind]; rfl
    have hseeded := seedEntry_seeds i (Fin.ofNat 16 (s.slotU8 m 0x10)) (s.slotU16 m 0x12) (s := s.setQueue i rest) hm
    generalize seedEntry i (Fin.ofNat 16 (s.slotU8 m 0x10)) (s.slotU16 m 0x12) (s.setQueue i rest) = v at *
    obtain ⟨hwf, hspout, hpreact⟩ := hseeded
    obtain ⟨hnothing, hrests, hqueue⟩ := reactTo_idle_served (u := markDone m .ok v) hr hc he ((hspout i).trans hout.spout) 63
    rw [hhead, hnothing]
    exact ⟨slotStateByte_answered hwf m 1 0 0xFF, result_answered hwf m 1 0 0xFF, hrests, hqueue, hpreact⟩

end Head

end Sys2Proof.Machine

/-! A STOP of a TWIN in WAIT_INDEX whose pair has a queue (R52, R65): the binding ends, and each spout serves what waits for it. -/

namespace Sys2Proof.Machine

/-! ## The bound of what the two queues do -/

namespace Locality

/-- What is served on the spouts of `S`, with TWINs led by those of `T` alone, leaves the header of slot `n` as it is. -/
def besides (S T : SpoutId → Prop) (n : SlotId) : Locality where
  spouts := S
  leaders := T
  slots := (· ≠ n)
  entries := fun _ => True
  kept := fun m k => k = 1 ∨ (m = n ∧ k < 5)

theorem sound_besides {S T : SpoutId → Prop} (n : SlotId)
    (hT : ∀ i, T i → S i ∧ S (followerOf i) ∧ S (leaderOf (followerOf i))) : (besides S T n).Sound where
  first := trivial
  partner := hT
  kind _ := .inl rfl
  header m k hm hk := by
    obtain rfl | ⟨rfl, -⟩ := hk
    · omega
    · exact absurd rfl hm
  entry m q e j k _ _ h5 h16 hk _ := by
    have hk5 : k < 5 := by
      obtain rfl | ⟨-, h⟩ := hk
      · omega
      · exact h
    rw [slotBase_eq, slotBase_eq, entryOffset]
    omega

theorem Within.refl {L : Locality} (hL : L.Sound) {s : State} (hs : ∀ j, L.spouts j → L.Holds s j (s.spout j)) : L.Within s s :=
  ⟨hL, fun _ _ => rfl, fun _ _ _ _ => rfl, hs⟩

/-- A spout at rest reaches what its queue does. -/
theorem Holds.of_rest {L : Locality} {s : State} {i : SpoutId} (hL : L.Sound) (hr : s.atRest i) (hc : (s.context i).claim = none)
    (hq : ∀ q ∈ s.queue i, L.slots q ∧ (s.slotKind q = 2 → L.leaders i) ∧ ∀ e, L.entries e) : L.Holds s i (s.spout i) := by
  obtain ⟨hstage, hslot, horder, hcompartment⟩ := hr
  have hempty : (s.spout i).context.order = {} := horder
  exact {
    queue := hq
    slot := fun q e => by cases hslot.symm.trans e
    claim := fun c e => by cases hc.symm.trans e
    bound := fun e => by cases hstage.symm.trans e
    twin := fun e => by rw [hempty] at e; cases e
    index := by
      rw [show (s.spout i).context.compartment = {} from hcompartment]
      exact hL.first
    count := fun e he => by rw [hempty] at he; exact absurd he (Nat.not_lt_zero e)
    loaded := fun e he => by rw [hempty] at he; exact absurd he (Nat.not_lt_zero e) }

end Locality


/-! ## The pair that a STOP has set free -/

/-- The TWIN of slot `n` has ended STOPPED, and both spouts are at rest with their queues; slot `p` holds the STOP. -/
structure State.PairFreed (o : SpoutId) (n p : SlotId) (s u : State) : Prop where
  wf : u.memory.wf = true
  running : u.port.exchange = .running
  ended : u.slotStateByte n = 4 ∧ u.slotU8 n 3 = 3
  rests : ∀ j, j = o ∨ j = followerOf o → u.atRest j ∧ (u.context j).claim = none
  queue : ∀ j, u.queue j = s.queue j
  field : ∀ j, u.field j = s.field j
  calibration : ∀ j, u.calibration j = s.calibration j
  positioner : ∀ j, u.positioner j = s.positioner j
  others : ∀ j, j ≠ o → j ≠ followerOf o → u.spout j = s.spout j
  preact : u.preact = s.preact
  slots : ∀ m, m ≠ n → m ≠ p → SameSlot m s u
  kinds : ∀ q, q ≠ n → s.slotKind q ≠ 2 → u.slotKind q ≠ 2

/-- R65, R112, R113: a STOP of a TWIN in WAIT_INDEX, but for what the two queues do then. -/
theorem exec_stop_freesPair {c : Instr} {o : SpoutId} {n : SlotId} {s : State} (hm : s.memory.wf = true) (hc : c ≠ .allStop)
    (hstops : s.stopsOrder c o n) (h : s.pair o) (hmark : (s.order o).mark = .none) (ht : (s.order o).stopTaken = false)
    (hs : s.stage o = .waitIndex) (hcount : (s.order o).count ≤ 12) (hclaim : (s.context o).claim = none) :
    ∃ p u, n ≠ p ∧ s.slotStateByte p = 0
      ∧ exec c s = .next (markDone p .stoppedRunning (react (.idle (followerOf o)) (react (.idle o) u))) ∧ s.PairFreed o n p u := by
  obtain ⟨hslot, -, hstate, hx, ⟨p, rfl, hp, htarget, hruns⟩ | ⟨e, -⟩⟩ := hstops
  · obtain ⟨hne, hexec⟩ := exec_stop_running hx hp htarget hstate hruns
    have hpair : (s.posted p 10).pair o := h
    obtain ⟨u, hended, hboth, hclosed⟩ := stopRunning_waiting (n := n) (s := s.posted p 10) hpair ht (Memory.wf_writeBytes hm _ _)
      hslot hs hcount
    have hmark' : ((s.posted p 10).order o).mark = .none := hmark
    have hfree : ((s.posted p 10).spout (followerOf o)).setFree = (s.spout (followerOf o)).unclaimed.resting :=
      if_pos h.stage_follower
    rw [hmark'] at hclosed
    rw [hfree] at hboth
    have hposted {m : SlotId} (hmp : m ≠ p) : SameSlot m s (s.posted p 10) := fun off ho =>
      Memory.read_writeBytes_other _ _ _ (by
        have := slotBase_apart hmp
        simp only [List.length_cons, List.length_nil]; omega)
    have hother {α : Type} (g : Spout → α) (ho : g (s.spout o).stopMarked.resting = g (s.spout o))
        (hf : g (s.spout (followerOf o)).unclaimed.resting = g (s.spout (followerOf o))) (j : SpoutId) : g (u.spout j) = g (s.spout j) := by
      by_cases hjo : j = o
      · rw [hjo, hboth.first]; exact ho
      by_cases hjf : j = followerOf o
      · rw [hjf, hboth.second]; exact hf
      · rw [hboth.others j hjo hjf]; rfl
    refine ⟨p, u, hne, hp, hexec.trans (congrArg (fun v => Host.Outcome.next (markDone p .stoppedRunning v)) hended), {
      wf := hboth.wf (Memory.wf_writeBytes hm _ _)
      running := (congrArg (fun q => q.exchange) hboth.port).trans hx
      ended := ⟨hclosed.slotState, hclosed.result⟩
      rests := ?_
      queue := hother (fun x => x.queue) rfl rfl
      field := hother (fun x => x.field) rfl rfl
      calibration := hother (fun x => x.calibration) rfl rfl
      positioner := hother (fun x => x.positioner) rfl rfl
      others := hboth.others
      preact := hboth.tables.2.1
      slots := fun m hmn hmp => (hposted hmp).trans (hboth.slots m fun e => hmn (Option.some.inj e))
      kinds := fun q hq hk => ?_ }⟩
    · rintro j (rfl | rfl)
      · exact ⟨⟨hboth.atFirst.stage, (congrArg (fun c => c.slot) hboth.atFirst.context :), hboth.atFirst.order,
          hboth.atFirst.compartment⟩, (congrArg (fun c => c.claim) hboth.atFirst.context).trans hclaim⟩
      · exact ⟨⟨hboth.atSecond.stage, (congrArg (fun c => c.slot) hboth.atSecond.context :), hboth.atSecond.order,
          hboth.atSecond.compartment⟩, (congrArg (fun c => c.claim) hboth.atSecond.context :)⟩
    · rw [(hboth.slots q fun e => hq (Option.some.inj e)).slotKind]
      by_cases hqp : q = p
      · rw [hqp, slotKind_posted hm p (by omega)]; omega
      · rw [(hposted hqp).slotKind]; exact hk
  · exact absurd e hc

/-! ## What the two queues do then -/

section Freed

variable {o : SpoutId} {n p : SlotId} {s u : State} (he : o.val % 2 = 0) (h : s.PairFreed o n p u)
  (hq : ∀ q ∈ s.queue o ++ s.queue (followerOf o), q ≠ n) (hqf : ∀ q ∈ s.queue (followerOf o), s.slotKind q ≠ 2)
include h hq

/-- Each spout of the pair reaches what its queue does. -/
theorem State.PairFreed.within {S T : SpoutId → Prop} (hS : ∀ j, S j → j = o ∨ j = followerOf o)
    (hT : ∀ i, T i → S i ∧ S (followerOf i) ∧ S (leaderOf (followerOf i)))
    (hkinds : ∀ j, S j → ∀ q ∈ s.queue j, s.slotKind q = 2 → T j) : (Locality.besides S T n).Within u u := by
  have hL := Locality.sound_besides n hT
  refine .refl hL fun j hj => ?_
  obtain ⟨hr, hc⟩ := h.rests j (hS j hj)
  refine .of_rest hL hr hc fun q hmem => ?_
  rw [h.queue] at hmem
  have hne : q ≠ n := hq q (List.mem_append.2 (by obtain rfl | rfl := hS j hj; exacts [.inl hmem, .inr hmem]))
  exact ⟨hne, fun hk => hkinds j hj q hmem (by_contra fun e => h.kinds q hne e hk), fun _ => trivial⟩

include he hqf

/-- R52: nothing outside the pair is served, and the slot of the TWIN stays as it ended. -/
theorem State.PairFreed.keeps : (react (.idle (followerOf o)) (react (.idle o) u)).slotStateByte n = 4
    ∧ (react (.idle (followerOf o)) (react (.idle o) u)).slotU8 n 3 = 3
    ∧ ∀ j, j ≠ o → j ≠ followerOf o → (react (.idle (followerOf o)) (react (.idle o) u)).spout j = s.spout j := by
  have hleader : leaderOf (followerOf o) = o := leaderOf_followerOf he
  have hwithin := h.within hq (S := fun j => j = o ∨ j = followerOf o) (T := fun j => j = o) (fun _ => id)
    (fun i hi => by rw [hi, hleader]; exact ⟨.inl rfl, .inr rfl, .inl rfl⟩) fun j hj q hmem hk => by
      obtain rfl | rfl := hj
      · rfl
      · exact absurd hk (hqf q hmem)
  have hreact := (Locality.besides (fun j => j = o ∨ j = followerOf o) (fun j => j = o) n).keepsReaction_react u
  have hserved := hreact (.idle (followerOf o)) _ (.inr rfl) (hreact (.idle o) u (.inl rfl) hwithin)
  have hbyte (k : Nat) (hk : k < 5) := congrArg BitVec.toNat (hserved.bytes n k (.inr ⟨rfl, hk⟩) (by omega))
  exact ⟨(hbyte 0 (by omega)).trans h.ended.1, (hbyte 3 (by omega)).trans h.ended.2,
    fun j ho hf => (hserved.outside j fun e => e.elim ho hf).trans (h.others j ho hf)⟩

omit he in
/-- R51: without a TWIN in the queues no claim is placed on the follower. -/
theorem State.PairFreed.unclaimed (hqo : ∀ q ∈ s.queue o, s.slotKind q ≠ 2) :
    ((react (.idle (followerOf o)) (react (.idle o) u)).context (followerOf o)).claim = none := by
  have hwithin := h.within hq (S := fun j => j = o ∨ j = followerOf o) (T := fun _ => False) (fun _ => id) (fun _ => False.elim)
    fun j hj q hmem hk => by
      obtain rfl | rfl := hj
      · exact hqo q hmem hk
      · exact hqf q hmem hk
  have hreact := (Locality.besides (fun j => j = o ∨ j = followerOf o) (fun _ => False) n).keepsReaction_react u
  have hserved := hreact (.idle (followerOf o)) _ (.inr rfl) (hreact (.idle o) u (.inl rfl) hwithin)
  cases hclaim : ((react (.idle (followerOf o)) (react (.idle o) u)).context (followerOf o)).claim with
  | none => rfl
  | some c => exact ((hserved.holds (followerOf o) (.inr rfl)).claim c hclaim).1.elim

omit he hqf in
/-- R52: without a TWIN in its queue, what a spout of the pair serves leaves every other spout alone. -/
theorem State.PairFreed.alone {i : SpoutId} (hi : i = o ∨ i = followerOf o) (hqi : ∀ q ∈ s.queue i, s.slotKind q ≠ 2)
    {j : SpoutId} (hj : j ≠ i) : (react (.idle i) u).spout j = u.spout j := by
  have hwithin := h.within hq (S := fun j => j = i) (T := fun _ => False) (fun j e => e ▸ hi) (fun _ => False.elim)
    fun j hj q hmem hk => hqi q (hj ▸ hmem) hk
  exact ((Locality.besides (fun j => j = i) (fun _ => False) n).keepsReaction_react u (.idle i) u rfl hwithin).outside j hj

end Freed

end Sys2Proof.Machine

/-! A STOP of a TWIN in WAIT_INDEX whose pair has a queue (R52, R65): what its head's service shows. -/

namespace Sys2Proof.Machine

/-! ## The service seen from before and after -/

/-- The service of a queue head, no TWIN, read from a state that shows the same of the spout, its slot and the preact table. -/
theorem State.serves.before {s u t : State} {i : SpoutId} {m : SlotId} {rest : List SlotId} (h : u.serves t i m rest)
    (hk : s.slotKind m ≠ 2) (hslot : SameSlot m s u) (hf : u.field i = s.field i) (hc : u.calibration i = s.calibration i)
    (hp : u.preact = s.preact) : s.serves t i m rest := by
  have hpresent (x : InputName) : u.present i x = s.present i x := congrArg (fun g : FieldGroup => (g.line x).taken) hf
  have hprofile : u.profile i = s.profile i := congrArg Calibration.profile hc
  have hhead := SameHead.of_sameSlot hslot
  obtain ⟨hload, -, hzero, hbusy, hseed⟩ := h
  rw [hslot.slotKind] at hload hzero hbusy hseed
  rw [hhead.loadCount, hhead.loadLimit, hhead.target, hhead.skip, hpresent, hprofile] at hload
  rw [hpresent, hprofile] at hzero
  rw [hpresent] at hbusy
  simp only [hslot.slotU8 (off := 0x10) (by omega), hslot.slotU16 (off := 0x12) (by omega), hp] at hseed
  exact ⟨hload, fun e => absurd e hk, hzero, hbusy, hseed⟩

/-- An answer in another slot changes nothing of a service. -/
theorem State.serves.answered {s t : State} {i : SpoutId} {m p : SlotId} {rest : List SlotId} (h : s.serves t i m rest)
    (hne : m ≠ p) (r : Result) : s.serves (markDone p r t) i m rest := by
  have hslot : SameSlot m t (markDone p r t) := sameSlot_answered hne t _ _ _
  have hstate := hslot.slotStateByte
  have hresult := hslot.slotU8 (off := 3) (by omega)
  have hreason := hslot.slotU8 (off := 4) (by omega)
  obtain ⟨mem, done, hanswer⟩ := sameButAnswers_markDone p r t
  rw [hanswer] at hstate hresult hreason ⊢
  obtain ⟨hload, htwin, hzero, hbusy, hseed⟩ := h
  unfold State.serves
  rw [hstate, hresult, hreason]
  exact ⟨hload, htwin, hzero, hbusy, hseed⟩

/-! ## The head that is served -/

section Freed

variable {o : SpoutId} {n p m : SlotId} {s u : State} (he : o.val % 2 = 0) (h : s.PairFreed o n p u)
  (hq : ∀ q ∈ s.queue o ++ s.queue (followerOf o), q ≠ n) (hp : s.slotStateByte p = 0) (hm : s.slotStateByte m = 2)
include h hq hp hm

omit hq in
/-- A QUEUED slot does not hold the STOP. -/
theorem State.PairFreed.sameHead (hmn : m ≠ n) : m ≠ p ∧ SameSlot m s u := by
  have hmp : m ≠ p := by rintro rfl; rw [hp] at hm; cases hm
  exact ⟨hmp, h.slots m hmn hmp⟩

/-- R52, R65: the head of the only queue of the pair, no TWIN. -/
theorem State.PairFreed.serves {i j : SpoutId} (hi : i = o ∨ i = followerOf o) (hj : j = o ∨ j = followerOf o) (hij : j ≠ i)
    (hqi : ∀ q ∈ s.queue i, s.slotKind q ≠ 2) (hqj : s.queue j = []) (hhead : (s.queue i).head? = some m) :
    (react (.idle i) u).atRest j ∧ react (.idle j) u = u ∧ react (.idle j) (react (.idle i) u) = react (.idle i) u
      ∧ s.serves (react (.idle i) u) i m (s.queue i).tail := by
  obtain ⟨rest, hqueue⟩ : ∃ rest, s.queue i = m :: rest := by
    cases e : s.queue i with
    | nil => rw [e] at hhead; cases hhead
    | cons x rest => rw [e] at hhead; exact ⟨rest, by rw [Option.some.inj hhead]⟩
  have hmem : m ∈ s.queue i := by rw [hqueue]; exact List.mem_cons_self
  have hmn : m ≠ n := hq m (List.mem_append.2 (by obtain rfl | rfl := hi; exacts [.inl hmem, .inr hmem]))
  obtain ⟨-, hslot⟩ := h.sameHead hp hm hmn
  obtain ⟨hri, hci⟩ := h.rests i hi
  obtain ⟨hrj, hcj⟩ := h.rests j hj
  have hserved := serves_head h.wf h.running hri hci ((h.queue i).trans hqueue) (h.kinds m hmn (hqi m hmem))
  have hsame := h.alone hq hi hqi hij
  have hclaim : ((react (.idle i) u).context j).claim = none := (congrArg (fun x => x.context.claim) hsame).trans hcj
  have hempty : (react (.idle i) u).queue j = [] := (congrArg (fun x => x.queue) hsame).trans ((h.queue j).trans hqj)
  have hrest : (react (.idle i) u).atRest j := by
    obtain ⟨hstage, hslot, horder, hcompartment⟩ := hrj
    exact ⟨(congrArg (fun x => x.context.stage) hsame).trans hstage, (congrArg (fun x => x.context.slot) hsame).trans hslot,
      (congrArg (fun x => x.context.order) hsame).trans horder, (congrArg (fun x => x.context.compartment) hsame).trans hcompartment⟩
  refine ⟨hrest, reactTo_idle_of_nothing _ hcj ((h.queue j).trans hqj), reactTo_idle_of_nothing _ hclaim hempty, ?_⟩
  rw [hqueue]
  exact hserved.before (hqi m hmem) hslot (h.field i) (h.calibration i) h.preact

include he

/-- R52, R65: a TWIN at the head of the leader's queue binds the follower again. -/
theorem State.PairFreed.bindsAgain (hk : s.slotKind m = 2) (hhead : (s.queue o).head? = some m)
    (hc : 1 ≤ s.loadCount m) (hskip : s.slotU8 m 0x44 = 0) (htarget : 1 ≤ s.slotU32 m 0x40) (hlimit : 1 ≤ s.loadLimit m)
    (hf : s.isFaulted (followerOf o) = false) (hready : s.present o .indexReady = false) :
    m ≠ p ∧ ∃ t, react (.idle (followerOf o)) (react (.idle o) u) = t ∧ t.slotStateByte m = 3 ∧ t.stage o = .waitIndex
      ∧ (t.context o).slot = some m ∧ t.stage (followerOf o) = .bound ∧ (t.context (followerOf o)).slot = some m
      ∧ t.queue o = (s.queue o).tail := by
  obtain ⟨rest, hqueue⟩ : ∃ rest, s.queue o = m :: rest := by
    cases e : s.queue o with
    | nil => rw [e] at hhead; cases hhead
    | cons x rest => rw [e] at hhead; exact ⟨rest, by rw [Option.some.inj hhead]⟩
  have hmn : m ≠ n := hq m (List.mem_append.2 (.inl (by rw [hqueue]; exact List.mem_cons_self)))
  obtain ⟨hmp, hslot⟩ := h.sameHead hp hm hmn
  have hsame := SameHead.of_sameSlot hslot
  obtain ⟨hri, hci⟩ := h.rests o (.inl rfl)
  obtain ⟨hrj, hcj⟩ := h.rests (followerOf o) (.inr rfl)
  have hne := followerOf_ne he
  have hout := (Becomes.refl o none u).setQueue rest
  have hserve : serveHead (reactTo 63) o m (u.setQueue o rest) = becomeRunning (reactTo 63) o m true (u.setQueue o rest) :=
    serveHead_twin _ ((slotKind_setQueue ..).trans (hslot.slotKind.trans hk))
  have hfollower := hout.others _ hne
  obtain ⟨hw, hstate⟩ := becomeRunning_granted 62 (s := u.setQueue o rest) h.wf he (hc.trans_eq hsame.loadCount.symm)
    (hsame.skip.trans hskip) (htarget.trans_eq hsame.target.symm) (hlimit.trans_eq hsame.loadLimit.symm)
    ((congrArg (fun x => x.positioner.position == .faulted) hfollower).trans
      ((congrArg (fun x => x.position == .faulted) (h.positioner (followerOf o))).trans hf))
    h.running ((congrArg (fun x => x.context.stage) hfollower).trans hrj.1)
    ((hout.present .indexReady).trans ((congrArg (fun g => g.indexReady.taken) (h.field o)).trans hready))
  have hfirst : react (.idle o) u = becomeRunning (reactTo 63) o m true (u.setQueue o rest) :=
    (react_idle_head h.running hri hci ((h.queue o).trans hqueue)).trans hserve
  rw [hout.spout] at hw
  have hbound : react (.idle (followerOf o)) (react (.idle o) u) = becomeRunning (reactTo 63) o m true (u.setQueue o rest) := by
    rw [hfirst]
    exact reactTo_idle_of_stage_ne _ fun e => Stage.noConfusion (hw.atSecond.stage.symm.trans e)
  refine ⟨hmp, _, hbound, hstate, hw.atFirst.stage, (congrArg (fun c => c.slot) hw.atFirst.context :), hw.atSecond.stage,
    (congrArg (fun c => c.slot) hw.atSecond.context :), ?_⟩
  rw [hqueue]; exact hw.atFirst.queue

end Freed

/-! ## The STOP -/

/-- R65, R112, R52: a STOP of a TWIN in WAIT_INDEX ends it with its binding, and the head of the pair's queues is served. -/
theorem exec_stop_serves {c : Instr} {o : SpoutId} {n m : SlotId} {s : State} (hm : s.memory.wf = true) (hc : c ≠ .allStop)
    (hstops : s.stopsOrder c o n) (h : s.pair o) (hmark : (s.order o).mark = .none) (ht : (s.order o).stopTaken = false)
    (hs : s.stage o = .waitIndex) (hcount : (s.order o).count ≤ 12) (hclaim : (s.context o).claim = none)
    (hqueued : s.slotStateByte m = 2) (hq : ∀ q ∈ s.queue o ++ s.queue (followerOf o), q ≠ n)
    (hqf : ∀ q ∈ s.queue (followerOf o), s.slotKind q ≠ 2) :
    let f := followerOf o
    let noTwin := ∀ q ∈ s.queue o, s.slotKind q ≠ 2
    ∃ t, exec c s = .next t ∧ t.slotStateByte n = 4 ∧ t.slotU8 n 3 = 3
      ∧ (noTwin → (t.context f).claim = none
        ∧ (s.queue o = [] → (s.queue f).head? = some m → t.atRest o ∧ s.serves t f m (s.queue f).tail)
        ∧ (s.queue f = [] → (s.queue o).head? = some m → t.atRest f ∧ s.serves t o m (s.queue o).tail))
      ∧ (s.slotKind m = 2 → s.queue f = [] → (s.queue o).head? = some m → 1 ≤ s.loadCount m → s.slotU8 m 0x44 = 0 →
          1 ≤ s.slotU32 m 0x40 → 1 ≤ s.loadLimit m → s.isFaulted f = false → s.present o .indexReady = false →
          t.slotStateByte m = 3 ∧ t.stage o = .waitIndex ∧ (t.context o).slot = some m ∧ t.stage f = .bound
            ∧ (t.context f).slot = some m ∧ t.queue o = (s.queue o).tail)
      ∧ (∀ j, j ≠ o → j ≠ f → t.spout j = s.spout j) := by
  intro f noTwin
  obtain ⟨p, u, hnp, hp, hexec, hfreed⟩ := exec_stop_freesPair hm hc hstops h hmark ht hs hcount hclaim
  obtain ⟨hstate, hresult, hothers⟩ := hfreed.keeps h.even hq hqf
  have hne : f ≠ o := followerOf_ne h.even
  have hmp : m ≠ p := by rintro rfl; rw [hp] at hqueued; cases hqueued
  have hspout (t : State) (j : SpoutId) : (markDone p .stoppedRunning t).spout j = t.spout j := by
    obtain ⟨mem, done, e⟩ := sameButAnswers_markDone p .stoppedRunning t
    rw [e]; rfl
  have hcontext (t : State) (j : SpoutId) : (markDone p .stoppedRunning t).context j = t.context j :=
    congrArg Spout.context (hspout t j)
  have hrest {t : State} {j : SpoutId} (hr : t.atRest j) : (markDone p .stoppedRunning t).atRest j := by
    unfold State.atRest State.stage State.order State.compartment
    rw [hcontext]; exact hr
  have hshown (q : SlotId) (hqp : q ≠ p) (t : State) : SameSlot q t (markDone p .stoppedRunning t) := sameSlot_answered hqp t _ _ _
  refine ⟨_, hexec, (hshown n hnp _).slotStateByte.trans hstate, ((hshown n hnp _).slotU8 (by omega)).trans hresult,
    fun hqo => ⟨?_, fun hempty hhead => ?_, fun hempty hhead => ?_⟩, ?_, fun j ho hf => (hspout _ j).trans (hothers j ho hf)⟩
  · rw [hcontext]
    exact hfreed.unclaimed hq hqf hqo
  · obtain ⟨hr, hidle, -, hserves⟩ := hfreed.serves hq hp hqueued (.inr rfl) (.inl rfl) hne.symm hqf hempty hhead
    rw [hidle]
    exact ⟨hrest hr, hserves.answered hmp _⟩
  · obtain ⟨hr, -, hidle, hserves⟩ := hfreed.serves hq hp hqueued (.inl rfl) (.inr rfl) hne hqo hempty hhead
    rw [hidle]
    exact ⟨hrest hr, hserves.answered hmp _⟩
  · intro hk _ hhead hload hskip htarget hlimit hsound hready
    obtain ⟨-, t, e, hserved, hstage, hslot, hbound, hslotf, hqueue⟩ :=
      hfreed.bindsAgain h.even hq hp hqueued hk hhead hload hskip htarget hlimit hsound hready
    rw [e]
    refine ⟨(hshown m hmp t).slotStateByte.trans hserved, ?_, ?_, ?_, ?_, ?_⟩
    · rw [State.stage, hcontext]; exact hstage
    · rw [hcontext]; exact hslot
    · rw [State.stage, hcontext]; exact hbound
    · rw [hcontext]; exact hslotf
    · rw [State.queue, hspout]; exact hqueue

end Sys2Proof.Machine

/-! A TWIN in WAIT_INDEX whose claim still waits on its follower (R51, R53): what ends it, and the end with its claim withdrawn. -/

namespace Sys2Proof.Machine

/-! ## The wait -/

/-- R53: spout `o` waits in WAIT_INDEX with the TWIN of slot `n`, its claim on a follower that runs an order of its own. -/
structure State.ClaimWaits (o : SpoutId) (n : SlotId) (s : State) : Prop where
  wf : s.memory.wf = true
  even : o.val % 2 = 0
  slot : (s.context o).slot = some n
  twin : s.isTwin o = true
  stage : s.stage o = .waitIndex
  mark : (s.order o).mark = .none
  count : (s.order o).count ≤ 12
  queue : s.queue o = []
  claim : (s.context o).claim = none
  claimed : (s.context (followerOf o)).claim = some { leader := o, slot := n }
  busy : s.stage (followerOf o) ≠ .idle
  unbound : s.stage (followerOf o) ≠ .bound

/-- R53, R109: the TWIN of slot `n` has ended with a result, its claim withdrawn, its PENDING entries not reached. -/
structure State.ClaimEnded (o : SpoutId) (n : SlotId) (result : Nat) (s t : State) : Prop where
  rests : t.atRest o
  unclaimed : (t.context (followerOf o)).claim = none
  slotState : t.slotStateByte n = 4
  result : t.slotU8 n 3 = result
  codes : ∀ e < (s.order o).count, t.entryCode n e = closedCode (s.entryCode n e)
  gate : t.gate o = s.gate o
  delivered : (t.channel (followerOf o)).delivered = (s.channel (followerOf o)).delivered

section Ended

variable {o : SpoutId} {n : SlotId} {result : Nat} {s t u : State}

/-- What follows leaves the leader and its slot as they are. -/
theorem State.ClaimEnded.after (h : s.ClaimEnded o n result t) (hc : (s.order o).count ≤ 12) (ho : u.context o = t.context o)
    (hslot : SameSlot n t u) (hclaim : (u.context (followerOf o)).claim = none)
    (hd : (u.channel (followerOf o)).delivered = (t.channel (followerOf o)).delivered) : s.ClaimEnded o n result u where
  rests := by
    unfold State.atRest State.stage State.order State.compartment
    rw [ho]; exact h.rests
  unclaimed := hclaim
  slotState := hslot.slotStateByte.trans h.slotState
  result := (hslot.slotU8 (by omega)).trans h.result
  codes e he := (hslot.entryCode (by omega)).trans (h.codes e he)
  gate := (congrArg Context.gate ho).trans h.gate
  delivered := hd.trans h.delivered

/-- What came before leaves the leader's context and its slot as they were. -/
theorem State.ClaimEnded.before (h : t.ClaimEnded o n result u) (hc : (s.order o).count ≤ 12) (ho : t.context o = s.context o)
    (hslot : SameSlot n s t) (hd : (t.channel (followerOf o)).delivered = (s.channel (followerOf o)).delivered) :
    s.ClaimEnded o n result u where
  rests := h.rests
  unclaimed := h.unclaimed
  slotState := h.slotState
  result := h.result
  codes e he := by
    have hcount : (t.order o).count = (s.order o).count := congrArg (fun c => c.order.count) ho
    rw [h.codes e (he.trans_eq hcount.symm), hslot.entryCode (by omega)]
  gate := h.gate.trans (congrArg Context.gate ho)
  delivered := h.delivered.trans hd

/-- The leader's order with its end mark set. -/
def Spout.endMarked (x : EndMark) (b : Bool) : Spout → Spout := Spout.onOrder fun y => { y with mark := x, stopTaken := b }

/-- R53, R109: the end action while the claim waits. The follower keeps its own order, and nothing is served. -/
theorem State.ClaimWaits.ends (h : s.ClaimWaits o n) {x : EndMark} {b : Bool}
    (hb : BothBecome o (followerOf o) (some n) ((s.spout o).endMarked x b) (s.spout (followerOf o)) s.port s t)
    (hslot : SameSlot n s t) (hx : ∀ codes, (orderResult x codes).value = result) : ∃ u, endOrder react o t = u
      ∧ BothBecome o (followerOf o) (some n) (s.spout o).resting (s.spout (followerOf o)).unclaimed s.port.oneDone s u
      ∧ s.ClaimEnded o n result u := by
  obtain ⟨u, hended, hu, hclosed⟩ := hb.endOrder react h.wf h.slot h.twin h.count
  have hfree : (s.spout (followerOf o)).setFree = (s.spout (followerOf o)).unclaimed := if_neg h.unbound
  rw [hfree] at hu
  have hleader : react (.idle o) u = u := reactTo_idle_of_nothing _
    ((congrArg (fun c => c.claim) hu.atFirst.context).trans h.claim) (hu.atFirst.queue.trans h.queue)
  have hfollower : react (.idle (followerOf o)) u = u :=
    reactTo_idle_of_stage_ne _ fun e => h.busy (hu.atSecond.stage.symm.trans e)
  rw [hleader, hfollower] at hended
  exact ⟨u, hended, hu, {
    rests := ⟨hu.atFirst.stage, (congrArg (fun c => c.slot) hu.atFirst.context :), hu.atFirst.order, hu.atFirst.compartment⟩
    unclaimed := (congrArg (fun c => c.claim) hu.atSecond.context :)
    slotState := hclosed.slotState
    result := hclosed.result.trans (hx _)
    codes := (hclosed.before h.count hslot).codes
    gate := hu.atFirst.gate
    delivered := congrArg Channel.delivered hu.atSecond.channel }⟩

/-- R53, R134: a fault of either spout of the pair. -/
theorem State.ClaimWaits.endsFaulted (h : s.ClaimWaits o n) : ∃ u, endOrder react o (markOrder o .spoutFault s) = u
    ∧ BothBecome o (followerOf o) (some n) (s.spout o).resting (s.spout (followerOf o)).unclaimed s.port.oneDone s u
    ∧ s.ClaimEnded o n 6 u := by
  have hmarked := (BothBecome.refl (followerOf_ne h.even) (some n) s).onFirst
    ((Becomes.refl o (some n) s).markOrder .spoutFault)
  refine h.ends (x := (s.order o).mark.strongest .spoutFault) (b := (s.order o).stopTaken) hmarked (fun _ _ => rfl) ?_
  rw [h.mark]; exact fun _ => rfl

/-- R53, R113: a first STOP of the TWIN. -/
theorem State.ClaimWaits.endsStopped (h : s.ClaimWaits o n) (ht : (s.order o).stopTaken = false) : ∃ u, stopRunning react o s = u
    ∧ BothBecome o (followerOf o) (some n) (s.spout o).resting (s.spout (followerOf o)).unclaimed s.port.oneDone s u
    ∧ s.ClaimEnded o n 3 u := by
  have hmarked := (BothBecome.refl (followerOf_ne h.even) (some n) s).stopMarked
  obtain ⟨u, hended, hu⟩ := h.ends (x := (s.order o).mark.strongest .stopped) (b := true) (result := 3) hmarked (fun _ _ => rfl)
    (by rw [h.mark]; exact fun _ => rfl)
  have hstage : (stopMarked o s).stage o = .waitIndex := hmarked.atFirst.stage.trans h.stage
  refine ⟨u, ?_, hu⟩
  rw [stopRunning_first react (by rw [h.stage]; decide) ht, hstage]
  exact hended

/-- R53: what leaves both contexts as they are, and nothing in the leader's queue, leaves the claim to wait. -/
theorem State.ClaimWaits.kept (h : s.ClaimWaits o n) (hm : t.memory.wf = true) (ho : t.context o = s.context o)
    (hf : t.context (followerOf o) = s.context (followerOf o)) (hq : t.queue o = []) : t.ClaimWaits o n where
  wf := hm
  even := h.even
  slot := (congrArg Context.slot ho).trans h.slot
  twin := (congrArg (fun c => c.order.twin) ho).trans h.twin
  stage := (congrArg Context.stage ho).trans h.stage
  mark := (congrArg (fun c => c.order.mark) ho).trans h.mark
  count := (congrArg (fun c => c.order.count) ho).trans_le h.count
  queue := hq
  claim := (congrArg Context.claim ho).trans h.claim
  claimed := (congrArg Context.claim hf).trans h.claimed
  busy := fun e => h.busy ((congrArg Context.stage hf).symm.trans e)
  unbound := fun e => h.unbound ((congrArg Context.stage hf).symm.trans e)

end Ended

/-! ## What the lawful part says of it -/

section Lawful

variable {o : SpoutId} {n : SlotId} {s : State} (h : s.WorkLawful)
include h

/-- R101, R110, R159: an order in a queue has at most twelve entries. -/
theorem State.WorkLawful.queuedCount {i : SpoutId} {q : SlotId} (hq : q ∈ s.queue i) (hk : s.slotKind q = 1 ∨ s.slotKind q = 2) :
    s.loadCount q ≤ 12 := by
  have haccepted := h.slots.accepted i q hq
  have hchecks (hall : (s.loadChecks q).all (·.2) = true) : s.loadCount q ≤ 12 :=
    (head_of_loadChecks fun c hc => List.all_eq_true.1 hall c hc).2.1
  unfold State.acceptedBody at haccepted
  obtain ⟨-, hbody⟩ := Bool.and_eq_true_iff.1 haccepted
  obtain hk | hk := hk
  · have hload : Kind.ofValue (s.slotKind q) = some .load := by rw [hk]; rfl
    rw [hload] at hbody
    exact hchecks hbody
  · have htwin : Kind.ofValue (s.slotKind q) = some .twin := by rw [hk]; rfl
    rw [htwin] at hbody
    exact hchecks (Bool.and_eq_true_iff.1 hbody).2

/-- R157: the slot of a running order stands in no queue. -/
theorem State.WorkLawful.not_queued {i j : SpoutId} (hn : (s.context i).slot = some n) : n ∉ s.queue j := fun hq => by
  have hqueued := (h.slots.queued n).2 ⟨j, hq⟩
  rw [h.slots.current i n hn] at hqueued
  cases hqueued

/-- R51, R53: a claim that is pending. -/
theorem State.WorkLawful.claimWaits (hp : s.claimPending o = true) (hn : (s.context o).slot = some n) (hs : s.stage o = .waitIndex)
    (hq : s.queue o = []) (hmark : (s.order o).mark = .none) (hf : s.stage (followerOf o) ≠ .idle) : s.ClaimWaits o n := by
  obtain ⟨htwin, hfree⟩ := Bool.and_eq_true_iff.1 hp
  have heven := h.contexts.twin o htwin
  exact {
    wf := h.memory
    even := heven
    slot := hn
    twin := htwin
    stage := hs
    mark := hmark
    count := (h.contexts.count o).1
    queue := hq
    claim := by
      cases hc : (s.context o).claim with
      | none => rfl
      | some c =>
        have hodd := (h.contexts.claimed o c hc).1
        omega
    claimed := (h.contexts.claims o n htwin hn).resolve_right fun e => by rw [hmark] at e; cases e
    busy := hf
    unbound := fun e => by
      rw [State.isBound, e] at hfree; cases hfree }

end Lawful

end Sys2Proof.Machine

/-! A sensor lost while the claim of a TWIN waits on its follower (R53, R134): the TWIN ends, whichever spout of the pair faults. -/

namespace Sys2Proof.Machine

/-! ## What the other spouts do with their own orders -/

namespace Locality

/-- What the spouts of `S` do with orders of their own, without slot `n`: nothing of that slot is written. -/
def sparing (S T : SpoutId → Prop) (n : SlotId) : Locality where
  spouts := S
  leaders := T
  slots := (· ≠ n)
  entries := (· < 12)
  kept := fun m k => k = 1 ∨ m = n

theorem sound_sparing {S T : SpoutId → Prop} (n : SlotId)
    (hT : ∀ i, T i → S i ∧ S (followerOf i) ∧ S (leaderOf (followerOf i))) : (sparing S T n).Sound where
  first := Nat.zero_lt_succ _
  partner := hT
  kind _ := .inl rfl
  header m k hm hk := by
    obtain rfl | rfl := hk
    · omega
    · exact absurd rfl hm
  entry m q e j k hq he h5 h16 hk h256 := by
    have he12 : e < 12 := he
    unfold entryOffset
    obtain rfl | rfl := hk
    · rw [slotBase_eq, slotBase_eq]; omega
    · have hapart := slotBase_apart (Ne.symm hq)
      omega

/-- The slot that is spared. -/
theorem Within.spared {S T : SpoutId → Prop} {n : SlotId} {s t : State} (h : (sparing S T n).Within s t) : SameSlot n s t :=
  fun k hk => h.bytes n k (.inr rfl) hk

end Locality

/-! ## The follower's own order -/

theorem followerOf_odd (o : SpoutId) : (followerOf o).val % 2 = 1 := by revert o; decide

section Follower

variable {o : SpoutId} {n : SlotId} {s u t : State} (h : s.WorkLawful) (hw : s.ClaimWaits o n)
include h hw

/-- R100: the order that the follower runs is in a slot of its own. -/
theorem State.WorkLawful.follower_slot : ∃ m, m ≠ n ∧ (s.context (followerOf o)).slot = some m := by
  cases hslot : (s.context (followerOf o)).slot with
  | none => exact absurd ((h.contexts.slot _).1 hslot) hw.busy
  | some m =>
    refine ⟨m, ?_, rfl⟩
    rintro rfl
    have hruns {i : SpoutId} (hs : (s.context i).slot = some m) (hb : s.stage i ≠ .bound) : s.runs i m = true := by
      unfold State.runs State.isBound
      rw [hs, beq_eq_false_iff_ne.2 hb, beq_self_eq_true]; rfl
    have hleader : s.stage o ≠ .bound := by rw [hw.stage]; decide
    exact followerOf_ne hw.even (h.slots.alone _ _ m (hruns hslot hw.unbound) (hruns hw.slot hleader))

omit hw in
/-- R50: a follower runs no TWIN. -/
theorem State.WorkLawful.follower_single (o : SpoutId) : s.isTwin (followerOf o) = false := by
  by_contra htwin
  have heven := h.contexts.twin _ (Bool.not_eq_false _ ▸ htwin)
  have hodd := followerOf_odd o
  omega

/-- The follower, its claim withdrawn and its queue empty, reaches its own slot alone. -/
theorem State.WorkLawful.follower_within (hf : u.context (followerOf o) = { s.context (followerOf o) with claim := none })
    (hq : u.queue (followerOf o) = []) : (Locality.sparing (· = followerOf o) (fun _ => False) n).Within u u := by
  obtain ⟨m, hne, hslot⟩ := h.follower_slot hw
  obtain ⟨hcount, hloaded⟩ := h.contexts.count (followerOf o)
  have hcontext : (u.spout (followerOf o)).context = { s.context (followerOf o) with claim := none } := hf
  refine .refl (Locality.sound_sparing n fun _ => False.elim) fun j hj => ?_
  obtain rfl : j = followerOf o := hj
  exact {
    queue := fun q hmem => by rw [show (u.spout (followerOf o)).queue = [] from hq] at hmem; cases hmem
    slot := fun q e => by
      rw [hcontext] at e
      obtain rfl := Option.some.inj (hslot.symm.trans e)
      exact hne
    claim := fun c e => by rw [hcontext] at e; cases e
    bound := fun e => by rw [hcontext] at e; exact absurd e hw.unbound
    twin := fun e => by
      rw [hcontext] at e
      cases (h.follower_single o).symm.trans e
    index := by rw [hcontext]; exact h.contexts.index _
    count := fun e he => by rw [hcontext] at he; exact lt_of_lt_of_le he hcount
    loaded := fun e he => by
      rw [hcontext] at he
      exact lt_of_lt_of_le he (hloaded.trans_le hcount) }

omit h in
/-- What the follower does by itself leaves the end of the TWIN as it was. -/
theorem State.ClaimEnded.afterFollower {result : Nat} (hended : s.ClaimEnded o n result u)
    (ht : (Locality.sparing (· = followerOf o) (fun _ => False) n).Within u t)
    (hd : (t.channel (followerOf o)).delivered = (u.channel (followerOf o)).delivered) : s.ClaimEnded o n result t := by
  refine hended.after hw.count (congrArg Spout.context (ht.outside o (followerOf_ne hw.even).symm)) ht.spared ?_ hd
  cases hclaim : (t.context (followerOf o)).claim with
  | none => rfl
  | some c => exact ((ht.holds _ rfl).claim c hclaim).1.elim

end Follower

/-! ## The loss -/

section Lost

variable {o m : SpoutId} {n : SlotId} {s : State} (h : s.WorkLawful) (hw : s.ClaimWaits o n) (hx : s.port.exchange = .running)

/-- The panel and the link state that follow a loss show nothing of the TWIN. -/
theorem State.ClaimEnded.showLink {result : Nat} {t : State} (hended : s.ClaimEnded o n result t) (hc : (s.order o).count ≤ 12)
    (m : SpoutId) : s.ClaimEnded o n result (showLink m t) := by
  have hshown := (sameButMemory_writeLinkState m t).trans (sameButMemory_refreshPanel m _)
  have hcontext (j : SpoutId) : (Machine.showLink m t).context j = t.context j := congrArg Spout.context (hshown.spout j)
  exact hended.after hc (hcontext o) (sameWork_showLink m n t).slot
    ((congrArg Context.claim (hcontext (followerOf o))).trans hended.unclaimed)
    (congrArg (fun p => p.channel.delivered) (hshown.spout (followerOf o)))

variable (hf : s.isFaulted m = false)
include h hw hx hf

/-- R134: the entry into FAULTED leaves the claim to wait, and returns the queue of the spout alone. -/
theorem State.ClaimWaits.faultedByLoss : s.EntersFault m (faultedByLoss m s) ∧ (faultedByLoss m s).ClaimWaits o n
    ∧ SameSlot n s (faultedByLoss m s) := by
  have hentry := entersFault_faultedByLoss h.memory hf (by rw [hx]; decide) fun q hq => h.queuedCount hq
  have hcontext (j : SpoutId) := (faultedByLoss_works hf j).1
  refine ⟨hentry, hw.kept hentry.wf (hcontext o) (hcontext (followerOf o)) ?_, hentry.slots n (h.not_queued hw.slot)⟩
  by_cases hj : o = m
  · subst hj
    refine (congrArg Spout.queue hentry.spout).trans ?_
    show queueLeft s.port.exchange (s.queue o) = []
    rw [hw.queue]; exact ite_self _
  · exact (congrArg Spout.queue (hentry.others o hj)).trans hw.queue

omit h hw hx in
theorem delivered_faultedByLoss (j : SpoutId) : ((faultedByLoss m s).channel j).delivered = (s.channel j).delivered := by
  by_cases hj : j = m
  · subst hj
    exact (congrArg (fun p => p.channel.delivered) (spout_enterFault_linkDown hf) :)
  · exact congrArg (fun p => p.channel.delivered) (faultedByLoss_others hf hj)

variable (hp : (s.receiver m).link = .present) (hs : (s.receiver m).silence.isSome = true)
include hp hs

/-- R53, R46: the leader's sensor is lost. -/
theorem silence_ends_claim_leader (hm : m = o) : ∃ t, exec (.silenceTimerExpiry o) s = .next t ∧ s.ClaimEnded o n 6 t := by
  subst hm
  obtain ⟨-, hwaits, hslot⟩ := hw.faultedByLoss h hx hf
  obtain ⟨u, hended, -, hshown⟩ := hwaits.endsFaulted
  have hfault : contextFaulted react m .sensorLost (Machine.faultedByLoss m s) = u := by
    unfold contextFaulted; dsimp only
    rw [ownerOf_self (by rw [hwaits.stage]; decide), hwaits.stage]
    exact hended
  refine ⟨_, exec_silence hp hs, ?_⟩
  rw [loseLink_unclaimed hf hw.claim, hfault]
  exact (hshown.before hw.count (faultedByLoss_works hf m).1 hslot (delivered_faultedByLoss hf _)).showLink hw.count m

/-- R53: the follower's sensor is lost: its leader's TWIN ends, then its own order meets the fault. -/
theorem silence_ends_claim_follower (hm : m = followerOf o) :
    ∃ t, exec (.silenceTimerExpiry (followerOf o)) s = .next t ∧ s.ClaimEnded o n 6 t := by
  subst hm
  obtain ⟨hentry, hwaits, hslot⟩ := hw.faultedByLoss h hx hf
  have hcontext := (faultedByLoss_works hf (followerOf o)).1
  have hdelivered := delivered_faultedByLoss hf (followerOf o)
  have hleader := (faultedByLoss_works hf o).1
  obtain ⟨q, -, hown⟩ := h.follower_slot hw
  obtain ⟨v, hended, hv, hshown⟩ := hwaits.endsFaulted
  have hwithdraw : withdrawClaimOn react (followerOf o) (Machine.faultedByLoss (followerOf o) s) = v := by
    unfold withdrawClaimOn State.isBound
    rw [hwaits.claimed, beq_eq_false_iff_ne.2 hwaits.unbound]
    exact (if_neg Bool.false_ne_true).trans hended
  have hspout : v.context (followerOf o) = { s.context (followerOf o) with claim := none } := by
    rw [← hcontext]; exact hv.atSecond.context
  have hqueue : v.queue (followerOf o) = [] := by
    refine hv.atSecond.queue.trans ((congrArg Spout.queue hentry.spout).trans ?_)
    exact if_neg (by rw [hx]; decide)
  have hworks : (v.spout (followerOf o)).WorksAlone q := {
    slot := (congrArg Context.slot hspout).trans hown
    claim := congrArg Context.claim hspout
    twin := (congrArg (fun c => c.order.twin) hspout).trans (h.follower_single o)
    bound := fun e => hw.unbound ((congrArg Context.stage hspout).symm.trans e)
    count := (congrArg (fun c => c.order.count) hspout).trans_le (h.contexts.count _).1
    queue := hqueue
    faulted := (congrArg (fun p => p.positioner.position) (hv.second.trans (congrArg Spout.unclaimed hentry.spout)) :) }
  have hmark : (v.order (followerOf o)).mark ≠ .reset := fun e => by
    have hreset := h.contexts.mark _ (.inl ((congrArg (fun c => c.order.mark) hspout).symm.trans e))
    rw [hx] at hreset; cases hreset
  have hindex : (v.compartment (followerOf o)).index < 12 :=
    (congrArg (fun c => c.compartment.index) hspout).trans_lt (h.contexts.index _)
  have hframe := orderFrame_contextFaulted (hv.wf hwaits.wf) hworks hmark (.inl hindex)
  have hwithin := (h.follower_within hw hspout hqueue).contextFaulted rfl (Locality.keepsReaction_react _ v) .sensorLost
  refine ⟨_, exec_silence hp hs, ?_⟩
  rw [loseLink_eq, spoutFault]
  have hfinal : withdrawClaimOn react (followerOf o) (enterFault (followerOf o) .sensorLost (linkDown (followerOf o) s)) = v :=
    hwithdraw
  rw [hfinal]
  exact ((hshown.before hw.count hleader hslot hdelivered).afterFollower hw hwithin hframe.delivered).showLink hw.count _

end Lost

end Sys2Proof.Machine

/-! A spout that works by itself, with nothing to serve, is stopped (R109, R113): its order ends without an opening, so that its
delivered mass stays. -/

namespace Sys2Proof.Machine

/-! ## The spout -/

/-- R109: no TWIN leads the spout, and nothing is served when its order ends; `d` is its delivered mass. -/
structure Spout.Unserved (d : Nat) (p : Spout) : Prop where
  delivered : p.channel.delivered = d
  queue : p.queue = []
  claim : p.context.claim = none
  single : p.context.order.twin = false

/-- R40, R104: it is at rest, or its release ends its order. -/
structure Spout.Ending (d : Nat) (p : Spout) : Prop extends p.Unserved d where
  stage : p.context.stage = .idle ∨ (p.context.stage = .releasing ∧ p.context.order.mark ≠ .none)

/-- The reactions passed to a handler keep the spout so. -/
def KeepsEnding (i : SpoutId) (d : Nat) (k : Reaction) : Prop :=
  ∀ r t, r.spout = i → (t.spout i).Ending d → ((k r t).spout i).Ending d

variable {i : SpoutId} {d : Nat} {k : Reaction} {t : State}

namespace Spout.Ending

theorem ownerOf (h : (t.spout i).Ending d) : t.ownerOf i = i :=
  ownerOf_self fun e => by
    have hstage : (t.spout i).context.stage = .bound := e
    obtain hs | ⟨hs, -⟩ := h.stage <;> cases hs.symm.trans hstage

theorem isTwin (h : (t.spout i).Ending d) : t.isTwin i = false := h.single

theorem onPositioner {p : Spout} (h : p.Ending d) (f : Positioner → Positioner) : (p.onPositioner f).Ending d := { h with }

theorem updatePosition (h : (t.spout i).Ending d) (f : Positioner → Positioner) : ((updatePosition i f t).spout i).Ending d := by
  rw [((Becomes.refl i none t).updatePosition f).spout]
  exact h.onPositioner f

end Spout.Ending

/-! ## The end of its order -/

namespace Spout.Unserved

theorem marked {p : Spout} (h : p.Unserved d) (m : EndMark) : (p.marked m).Unserved d := { h with }

theorem stopMarked (h : (t.spout i).Unserved d) : ((Machine.stopMarked i t).spout i).Unserved d := by
  have hmarked := ((Becomes.refl i none t).markOrder .stopped).updateOrder fun x => { x with stopTaken := true }
  have hspout : (Machine.stopMarked i t).spout i = (t.spout i).stopMarked := hmarked.spout
  rw [hspout]
  exact { h with }

theorem restContext (h : (t.spout i).Unserved d) : ((restContext i t).spout i).Ending d := by
  rw [spout_restContext]
  exact { delivered := h.delivered, queue := h.queue, claim := h.claim, single := rfl, stage := .inl rfl }

theorem endOrder (h : (t.spout i).Unserved d) (hk : KeepsEnding i d k) : ((endOrder k i t).spout i).Ending d := by
  have htwin : (t.order i).twin = false := h.single
  unfold Machine.endOrder; dsimp only
  rw [htwin, if_neg Bool.false_ne_true]
  split
  · exact hk (.idle i) _ rfl (restContext (by rw [spout_closeOrderSlot]; exact h))
  · exact hk (.idle i) _ rfl h.restContext

theorem resetRest (h : (t.spout i).Unserved d) : ((resetRest i t).spout i).Ending d := by
  have htwin : (t.order i).twin = false := h.single
  unfold Machine.resetRest; dsimp only
  rw [htwin, if_neg Bool.false_ne_true]
  split
  · refine restContext ?_
    unfold writeResult
    rw [(sameButMemory_writeMemory ..).spout, (sameButMemory_closeEntries ..).spout]
    exact h
  · exact h.restContext

theorem concludeOrder (h : (t.spout i).Unserved d) (hk : KeepsEnding i d k) : ((concludeOrder k i t).spout i).Ending d := by
  unfold Machine.concludeOrder; split
  · exact h.resetRest
  · exact h.endOrder hk

end Spout.Unserved

/-! ## The release -/

namespace Spout.Ending

section Handlers

variable (h : (t.spout i).Ending d) (hk : KeepsEnding i d k)
include h hk

/-- R104: the mark of its order ends it. -/
theorem releaseCheck : ((releaseCheck k i t).spout i).Ending d := by
  unfold Machine.releaseCheck; split
  · next hleft =>
    have hreleasing : (t.spout i).context.stage = .releasing := hleft.1
    have hmark : (t.order i).mark ≠ .none := by
      obtain hs | ⟨-, hm⟩ := h.stage
      · cases hs.symm.trans hreleasing
      · exact hm
    unfold leaveReleasing
    split
    · next hm => exact absurd hm hmark
    · exact h.concludeOrder hk
  · exact h

theorem onReleased : ((onReleased k i t).spout i).Ending d := by
  unfold Machine.onReleased; dsimp only
  rw [h.ownerOf]
  split
  · refine Ending.releaseCheck ?_ hk
    rw [((Becomes.refl i none t).updateCompartment fun c => { c with releasedAnswered := true }).spout]
    exact { h with }
  · exact h

omit hk in
theorem onEngaged : ((onEngaged k i t).spout i).Ending d := by
  unfold Machine.onEngaged; dsimp only
  rw [h.ownerOf]
  have hstage : t.stage i ≠ .engaging := fun e => by
    have hengaging : (t.spout i).context.stage = .engaging := e
    obtain hs | ⟨hs, -⟩ := h.stage <;> cases hs.symm.trans hengaging
  rw [if_neg fun c => hstage c.1]
  exact h

theorem contextFaulted (cause : FaultCause) : ((contextFaulted k i cause t).spout i).Ending d := by
  have htwin : (markOrder i .spoutFault t).isTwin i = false := ((Becomes.refl i none t).markOrder .spoutFault).isTwin.trans h.single
  have hmarked : ((markOrder i .spoutFault t).spout i).Unserved d := by
    rw [((Becomes.refl i none t).markOrder .spoutFault).spout]
    exact h.marked _
  unfold Machine.contextFaulted; dsimp only
  rw [h.ownerOf]
  obtain e | ⟨e, -⟩ := h.stage
  · have hidle : t.stage i = .idle := e
    have hfree : ¬ (t.isBound i = true ∧ cause = .gateFault) := fun c => by
      unfold State.isBound at c
      rw [hidle] at c; cases c.1
    rw [hidle]; dsimp only
    rw [if_neg hfree]; exact h
  · have hreleasing : t.stage i = .releasing := e
    rw [hreleasing]; dsimp only
    rw [htwin, if_neg Bool.false_ne_true]
    exact hmarked.concludeOrder hk

/-! ## The positioner -/

theorem testLowered : ((testLowered k i t).spout i).Ending d := by
  unfold Machine.testLowered; split
  · exact hk (.engaged i) _ rfl (h.updatePosition _)
  · exact h

theorem testRaised : ((testRaised k i t).spout i).Ending d := by
  have harrived := h.updatePosition fun p => { p.arrive .released with engageWaiting := false }
  unfold Machine.testRaised; dsimp only; split
  · split
    · exact (harrived.updatePosition _).testLowered hk
    · exact hk (.released i) _ rfl harrived
  · exact h

theorem releaseRequest : ((releaseRequest k i t).spout i).Ending d := by
  have hraised : ((raiseSpout k i t).spout i).Ending d := (h.updatePosition _).testRaised hk
  have hpositioner (f : Positioner → Positioner) : ((t.updatePositioner i f).spout i).Ending d := by
    rw [((Becomes.refl i none t).updatePositioner f).spout]
    exact h.onPositioner f
  unfold Machine.releaseRequest; split
  · exact hraised
  · exact hraised
  · exact hpositioner _
  · exact hk (.released i) _ rfl h
  · exact hk (.faultReport i) _ rfl h
  · exact hpositioner _

end Handlers

end Spout.Ending

/-- R39 step 5: the release of a spout whose order has a mark. -/
theorem Spout.Unserved.startRelease (h : (t.spout i).Unserved d) (hk : KeepsEnding i d k) (hmark : (t.order i).mark ≠ .none)
    (settled : Bool) : ((Machine.startRelease k i settled t).spout i).Ending d := by
  have htwin : t.isTwin i = false := h.single
  have hentered := ((Becomes.refl i none t).enterReleasing htwin settled)
  have hending : ((Machine.enterReleasing i settled t).spout i).Ending d := by
    have hcontext := Spout.enterReleasing_context settled (t.spout i)
    rw [hentered.spout]
    exact {
      delivered := (congrArg Channel.delivered (Spout.settleCapture_channel ..)).trans h.delivered
      queue := by
        unfold Spout.enterReleasing Spout.settleCapture
        split <;> exact h.queue
      claim := (congrArg Context.claim hcontext).trans h.claim
      single := (congrArg (fun c => c.order.twin) hcontext).trans h.single
      stage := .inr ⟨congrArg Context.stage hcontext, fun e => hmark ((congrArg (fun c => c.order.mark) hcontext).symm.trans e)⟩ }
  have htwin' : (Machine.enterReleasing i settled t).isTwin i = false := hending.isTwin
  have hasked : ((requestRelease k i i (Machine.enterReleasing i settled t)).spout i).Ending d := by
    unfold requestRelease; split
    · exact hending.releaseRequest hk
    · exact hending
  unfold Machine.startRelease
  split
  · exact h.concludeOrder hk
  · rw [forMembers_single htwin']
    exact hasked.releaseCheck hk

/-! ## Every reaction -/

theorem keepsEnding_reactTo (i : SpoutId) (d depth : Nat) : KeepsEnding i d (reactTo depth) := by
  induction depth with
  | zero => exact fun _ _ _ ht => ht
  | succ depth ih =>
    rintro r t rfl ht
    cases r with
    | idle i =>
      rw [reactTo_idle_of_nothing (i := i) (depth + 1) ht.claim ht.queue]
      exact ht
    | engaged i => exact ht.onEngaged
    | released i => exact ht.onReleased ih
    | captureEnded i =>
      have howner : t.ownerOf i = i := ht.ownerOf
      show ((releaseCheck (reactTo depth) (t.ownerOf i) t).spout i).Ending d
      rw [howner]
      exact ht.releaseCheck ih
    | faultReport i => exact ht.contextFaulted ih _

theorem keepsEnding_react (i : SpoutId) (d : Nat) : KeepsEnding i d react := keepsEnding_reactTo i d _

/-! ## The STOP -/

/-- R93: a ZERO that is stopped. -/
theorem Spout.Unserved.endZeroUnchanged (h : (t.spout i).Unserved d) (hk : KeepsEnding i d k) (r : Result) :
    ((Machine.endZeroUnchanged k i r t).spout i).Ending d := by
  have hdropped : ((Machine.dropCapture i t).spout i).Unserved d := by
    rw [((Becomes.refl i none t).dropCapture).spout]
    exact { h with }
  unfold Machine.endZeroUnchanged endZeroRun; dsimp only
  refine hk (.idle i) _ rfl (restContext ?_)
  split
  · rw [(sameButAnswers_markDone ..).spout]
    unfold writeZeroFields
    rw [(sameButMemory_writeMemory ..).spout]
    exact hdropped
  · exact hdropped

/-- R93, R113: a STOP of a spout with nothing to serve leaves its delivered mass as it is. -/
theorem delivered_stopRunning (h : (t.spout i).Unserved (t.channel i).delivered) :
    ((stopRunning react i t).channel i).delivered = (t.channel i).delivered := by
  have hk := keepsEnding_react i (t.channel i).delivered
  by_cases hzero : t.stage i = .zeroRun
  · unfold stopRunning
    rw [if_pos hzero]
    exact (h.endZeroUnchanged hk .stopped).delivered
  by_cases htaken : (t.order i).stopTaken = true
  · unfold stopRunning stopOrder
    rw [if_neg hzero, if_pos htaken]
  have hmarked := h.stopMarked
  have hmark : ((stopMarked i t).order i).mark ≠ .none := by
    have horder : ((stopMarked i t).order i).mark = (t.order i).mark.strongest .stopped :=
      congrArg OrderState.mark (((Becomes.refl i none t).markOrder .stopped).updateOrder fun x => { x with stopTaken := true }).order
    rw [horder]
    cases (t.order i).mark <;> decide
  have htwin : (stopMarked i t).isTwin i = false := hmarked.single
  have hbecomes := Becomes.refl i none (stopMarked i t)
  have hreleased : ((startRelease react i false (forMembers i dropCapture (stopMarked i t))).channel i).delivered
      = (t.channel i).delivered := by
    rw [forMembers_single htwin]
    refine (Spout.Unserved.startRelease (d := (t.channel i).delivered) ?_ hk ?_ false).delivered
    · rw [hbecomes.dropCapture.spout]
      exact { hmarked with }
    · rw [hbecomes.dropCapture.order]
      exact hmark
  have hcut (reason : Option Code) : ((cut i reason (stopMarked i t)).channel i).delivered = (t.channel i).delivered :=
    (orderFrame_cut 0 htwin reason).delivered.trans hmarked.delivered
  rw [stopRunning_first react hzero (Bool.eq_false_iff.2 htaken)]
  split
  · exact (hmarked.endOrder hk).delivered
  · exact hreleased
  · exact hreleased
  · exact hcut _
  · exact hcut _
  · exact hcut _
  · exact hcut _
  · exact (congrArg Channel.delivered (hbecomes.updateCompartment _).channel).trans hmarked.delivered
  · exact (congrArg Channel.delivered (hbecomes.updateCompartment _).channel).trans hmarked.delivered
  · exact hmarked.delivered

end Sys2Proof.Machine

/-! A STOP and an ALL_STOP while the claim of a TWIN waits on its follower (R53, R112, R113, R116). -/

namespace Sys2Proof.Machine

/-! ## The STOP (R112) -/

section Stop

variable {o : SpoutId} {n : SlotId} {s : State} (hw : s.ClaimWaits o n) (ht : (s.order o).stopTaken = false)
include hw ht

/-- R53, R113: a STOP that names the slot of the TWIN. -/
theorem stop_ends_claim {c : Instr} (hc : c ≠ .allStop) (hstops : s.stopsOrder c o n) :
    ∃ t, exec c s = .next t ∧ s.ClaimEnded o n 3 t := by
  obtain ⟨-, -, hstate, hx, ⟨p, rfl, hp, htarget, hruns⟩ | ⟨e, -⟩⟩ := hstops
  · obtain ⟨hne, hexec⟩ := exec_stop_running hx hp htarget hstate hruns
    have hposted : SameSlot n s (s.posted p 10) := fun off ho => Memory.read_writeBytes_other _ _ _ (by
      have := slotBase_apart hne
      simp only [List.length_cons, List.length_nil]; omega)
    have hwaits : (s.posted p 10).ClaimWaits o n := hw.kept (Memory.wf_writeBytes hw.wf _ _) rfl rfl hw.queue
    obtain ⟨u, hended, -, hshown⟩ := hwaits.endsStopped ht
    have hanswer := sameButAnswers_markDone p .stoppedRunning u
    have hcontext (j : SpoutId) : (markDone p .stoppedRunning u).context j = u.context j := congrArg Spout.context (hanswer.spout j)
    rw [hended] at hexec
    exact ⟨_, hexec, (hshown.before hw.count rfl hposted rfl).after hw.count (hcontext o) (sameSlot_answered hne u _ _ _)
      ((congrArg Context.claim (hcontext _)).trans hshown.unclaimed) (congrArg (fun p => p.channel.delivered) (hanswer.spout _))⟩
  · exact absurd e hc

end Stop

/-! ## The queues withdrawn (R116) -/

/-- R116: the queues of the spouts in `l` are withdrawn; every context and channel, and the slots in none of those queues, stay. -/
structure State.Withdrawn (l : List SpoutId) (s t : State) : Prop where
  wf : t.memory.wf = true
  context : ∀ j, t.context j = s.context j
  channel : ∀ j, t.channel j = s.channel j
  emptied : ∀ j ∈ l, t.queue j = []
  queue : ∀ j, j ∉ l → t.queue j = s.queue j
  slots : ∀ m, (∀ j ∈ l, m ∉ s.queue j) → SameSlot m s t

namespace State.Withdrawn

variable {l : List SpoutId} {s t : State} (hs : s.WorkLawful) (h : s.Withdrawn l t)
include hs h

/-- What a further spout still has in its queue is what it had. -/
theorem queued {i : SpoutId} {q : SlotId} (hq : q ∈ t.queue i) : q ∈ s.queue i ∧ SameSlot q s t := by
  have hi : i ∉ l := fun hmem => by rw [h.emptied i hmem] at hq; cases hq
  rw [h.queue i hi] at hq
  exact ⟨hq, h.slots q fun j hj hqj => hi (hs.slots.apart i j q hq hqj ▸ hj)⟩

theorem withdrawQueue (i : SpoutId) : s.Withdrawn (i :: l) (withdrawQueue i t) := by
  have hcount (q : SlotId) (hq : q ∈ t.queue i) (hk : t.slotKind q = 1 ∨ t.slotKind q = 2) : t.loadCount q ≤ 12 := by
    obtain ⟨hmem, hslot⟩ := h.queued hs hq
    rw [hslot.slotKind] at hk
    exact (hslot.slotU8 (by omega)).trans_le (hs.queuedCount hmem hk)
  obtain ⟨hw, hslots, -⟩ := returned_slots .withdrawn (t.queue i) (s := t.setQueue i []) h.wf hcount
  have hspout (j : SpoutId) : (Machine.withdrawQueue i t).spout j = (t.setQueue i []).spout j :=
    (sameButAnswers_returned .withdrawn (t.queue i) (t.setQueue i [])).spout j
  have hqueue (j : SpoutId) : (Machine.withdrawQueue i t).queue j = (t.setQueue i []).queue j := congrArg Spout.queue (hspout j)
  have hkept (j : SpoutId) : (t.setQueue i []).context j = t.context j ∧ (t.setQueue i []).channel j = t.channel j := by
    by_cases hj : j = i
    · subst hj
      have hself : (t.setQueue j []).spout j = { t.spout j with queue := [] } := State.spout_updateSpout_self ..
      exact ⟨(congrArg Spout.context hself :), (congrArg Spout.channel hself :)⟩
    · have hother : (t.setQueue i []).spout j = t.spout j := State.spout_updateSpout_ne t hj _
      exact ⟨congrArg Spout.context hother, congrArg Spout.channel hother⟩
  exact {
    wf := hw
    context := fun j => ((congrArg Spout.context (hspout j)).trans (hkept j).1).trans (h.context j)
    channel := fun j => ((congrArg Spout.channel (hspout j)).trans (hkept j).2).trans (h.channel j)
    emptied := fun j hj => by
      rw [hqueue]
      by_cases e : j = i
      · rw [e, State.queue_setQueue_self]
      · rw [State.queue_setQueue_ne t e]
        exact h.emptied j ((List.mem_cons.1 hj).resolve_left e)
    queue := fun j hj => by
      have hne : j ≠ i := fun e => hj (by rw [e]; exact List.mem_cons_self)
      rw [hqueue, State.queue_setQueue_ne t hne]
      exact h.queue j fun hmem => hj (List.mem_cons_of_mem _ hmem)
    slots := fun m hm => (h.slots m fun j hj => hm j (List.mem_cons_of_mem _ hj)).trans (hslots m fun hmem =>
      hm i List.mem_cons_self (h.queued hs hmem).1) }

theorem foldl (r : List SpoutId) : s.Withdrawn (r.reverse ++ l) (r.foldl (fun t i => Machine.withdrawQueue i t) t) := by
  induction r generalizing l t with
  | nil => exact h
  | cons i r ih =>
    rw [List.reverse_cons, List.append_assoc]
    exact ih (h.withdrawQueue hs i)

end State.Withdrawn

/-- R116: every queue is emptied before a running order is stopped. -/
theorem State.WorkLawful.withdrawn {s : State} (h : s.WorkLawful) :
    s.Withdrawn (allSpouts.reverse ++ []) (forSpouts withdrawQueue s) :=
  State.Withdrawn.foldl h {
    wf := h.memory, context := fun _ => rfl, channel := fun _ => rfl, emptied := fun _ hj => by cases hj
    queue := fun _ _ => rfl, slots := fun m _ => .refl m s } allSpouts

/-! ## The orders stopped (R116) -/

/-- Every handler keeps the exchange memory in its form. -/
theorem kept_memoryWf : Kept fun s => s.memory.wf = true where
  memory _ _ _ h := Memory.wf_writeBytes h _ _
  done _ h := h
  spoutChange _ h := h
  channel _ _ _ _ h := h
  calibration _ _ _ _ h := h
  positioner _ _ _ _ h := h
  context _ _ _ h := h
  queue _ _ _ _ h := h
  preact _ _ _ _ h := h
  freeCount _ h := h
  sampled _ _ _ h := h
  profile _ _ _ _ h := h

theorem wf_stopOwn (i : SpoutId) {s : State} (h : s.memory.wf = true) : (stopOwn i s).memory.wf = true := by
  unfold stopOwn stopRunning
  split_ifs
  · exact kept_memoryWf.endZeroUnchanged kept_memoryWf.react i .stopped h
  · exact kept_memoryWf.stopOrder kept_memoryWf.react i h
  · exact h

theorem Locality.Within.stopOwn {L : Locality} {i : SpoutId} {s t : State} (h : L.Within s t) (hi : L.spouts i) :
    L.Within s (stopOwn i t) := by
  unfold Machine.stopOwn; split
  · exact h.stopRunning hi (L.keepsReaction_react s)
  · exact h

/-- The kinds of the slots it may reach are all that the bound reads of a state. -/
theorem Locality.Holds.rebase {L : Locality} {s t : State} {i : SpoutId} {p : Spout} (h : L.Holds s i p)
    (hk : ∀ q, L.slots q → t.slotKind q = s.slotKind q) : L.Holds t i p :=
  { h with
    queue := fun q hq => by
      obtain ⟨hslot, hleads, hentries⟩ := h.queue q hq
      exact ⟨hslot, fun e => hleads ((hk q hslot).symm.trans e), hentries⟩ }

/-- The spouts outside the pair of `o`. -/
def beside (o j : SpoutId) : Prop := j ≠ o ∧ j ≠ followerOf o

/-- What the spouts outside the pair of `o` do, without slot `n`. -/
def Locality.besidePair (o : SpoutId) (n : SlotId) : Locality :=
  Locality.sparing (beside o) (fun i => beside o i ∧ i.val % 2 = 0) n

section Pairs

variable {o j : SpoutId} (he : o.val % 2 = 0)
include he

/-- R50: the follower's leader. -/
theorem eq_followerOf (hj : j.val % 2 = 1) (hl : leaderOf j = o) : j = followerOf o := by
  revert hl hj he; revert o j; decide

theorem leaderOf_beside (hj : j.val % 2 = 1) (h : beside o j) : beside o (leaderOf j) :=
  ⟨fun e => h.2 (eq_followerOf he hj e), fun e => by
    have heven := leaderOf_even j
    have hodd := followerOf_odd o
    rw [e] at heven; omega⟩

theorem Locality.sound_besidePair (n : SlotId) : (Locality.besidePair o n).Sound := by
  refine Locality.sound_sparing n fun i hi => ?_
  obtain ⟨⟨ho, hf⟩, heven⟩ := hi
  have hodd := followerOf_odd i
  rw [leaderOf_followerOf heven]
  exact ⟨⟨ho, hf⟩, ⟨fun e => by rw [e] at hodd; omega, fun e => ho ((leaderOf_followerOf heven).symm.trans
    ((congrArg leaderOf e).trans (leaderOf_followerOf he)))⟩, ⟨ho, hf⟩⟩

/-- The part, with the pair singled out. -/
theorem allSpouts_split : ∃ l l' : List SpoutId, allSpouts = l ++ o :: followerOf o :: l' ∧ (∀ j ∈ l, beside o j) ∧ ∀ j ∈ l', beside o j := by
  refine ⟨allSpouts.take o.val, allSpouts.drop (o.val + 2), ?_⟩
  unfold beside
  revert he; revert o; decide

end Pairs

section AllStop

variable {o : SpoutId} {n : SlotId} {s u : State} (h : s.WorkLawful) (hw : s.ClaimWaits o n) (hx : s.port.exchange = .running)
include h hw hx

/-- R100: a spout outside the pair shows another slot. -/
theorem State.WorkLawful.slot_beside {j : SpoutId} (hj : beside o j) : (s.context j).slot ≠ some n := fun hslot => by
  have hfree {i : SpoutId} (hi : i.val % 2 = 0) : s.isBound i = false := by
    by_contra hb
    obtain ⟨hsome, hclaim⟩ := h.contexts.bound i (Bool.not_eq_false _ ▸ hb)
    rw [hclaim] at hsome
    obtain ⟨c, hc⟩ := Option.isSome_iff_exists.1 hsome
    cases e : (s.context i).claim with
    | none => rw [e] at hc; cases hc
    | some c =>
      have hodd := (h.contexts.claimed i c e).1
      omega
  have hruns {i : SpoutId} (hi : s.isBound i = false) (hs : (s.context i).slot = some n) : s.runs i n = true := by
    unfold State.runs
    rw [hs, hi, beq_self_eq_true]; rfl
  have hleader := hruns (hfree hw.even) hw.slot
  cases hb : s.isBound j with
  | false => exact hj.1 (h.slots.alone j o n (hruns hb hslot) hleader)
  | true =>
    obtain ⟨-, hclaim⟩ := h.contexts.bound j hb
    rw [hslot] at hclaim
    cases e : (s.context j).claim with
    | none => rw [e] at hclaim; cases hclaim
    | some c =>
      rw [e] at hclaim
      have hn : n = c.slot := Option.some.inj hclaim
      obtain ⟨hodd, -, ⟨-, hs⟩ | ⟨-, -, hreset⟩⟩ := h.contexts.claimed j c e
      · rw [← hn] at hs
        exact (leaderOf_beside hw.even hodd hj).1 (h.slots.alone _ o n (hruns (hfree (leaderOf_even j)) hs) hleader)
      · rw [hx] at hreset; cases hreset

/-- R52: with no queue, the spouts outside the pair reach nothing of it. -/
theorem State.WorkLawful.beside_within (hcontext : ∀ j, u.context j = s.context j) (hqueue : ∀ j, u.queue j = []) :
    (Locality.besidePair o n).Within u u := by
  refine .refl (Locality.sound_besidePair hw.even n) fun j hj => ?_
  have hj : beside o j := hj
  have hc : (u.spout j).context = s.context j := hcontext j
  obtain ⟨hcount, hloaded⟩ := h.contexts.count j
  have hclaimed {c : Claim} (e : (s.context j).claim = some c) : beside o (leaderOf j) ∧ c.leader = leaderOf j ∧ c.slot ≠ n := by
    obtain ⟨hodd, hleader, ⟨-, hs⟩ | ⟨-, -, hreset⟩⟩ := h.contexts.claimed j c e
    · have hbeside := leaderOf_beside hw.even hodd hj
      exact ⟨hbeside, hleader, fun e => h.slot_beside hw hx hbeside (e ▸ hs)⟩
    · rw [hx] at hreset; cases hreset
  exact {
    queue := fun q hmem => by rw [show (u.spout j).queue = [] from hqueue j] at hmem; cases hmem
    slot := fun q e => by
      rw [hc] at e
      rintro rfl
      exact h.slot_beside hw hx hj e
    claim := fun c e => by
      rw [hc] at e
      obtain ⟨hbeside, hleader, hslot⟩ := hclaimed e
      rw [hleader]
      exact ⟨⟨hbeside, leaderOf_even j⟩, hslot, hbeside⟩
    bound := fun e => by
      rw [hc] at e
      obtain ⟨hsome, hclaim⟩ := h.contexts.bound j (beq_iff_eq.2 e)
      rw [hclaim] at hsome
      cases hcl : (s.context j).claim with
      | none => rw [hcl] at hsome; cases hsome
      | some c => exact (hclaimed hcl).1
    twin := fun e => by
      rw [hc] at e
      exact ⟨hj, h.contexts.twin j e⟩
    index := by rw [hc]; exact h.contexts.index j
    count := fun e he => by rw [hc] at he; exact lt_of_lt_of_le he hcount
    loaded := fun e he => by
      rw [hc] at he
      exact lt_of_lt_of_le he (hloaded.trans_le hcount) }

omit h hx in
/-- What other spouts do leaves the end of the TWIN as it was. -/
theorem State.ClaimEnded.afterBeside {result : Nat} {t : State} (hended : s.ClaimEnded o n result u)
    (ht : (Locality.besidePair o n).Within u t) : s.ClaimEnded o n result t := by
  have hleader := ht.outside o fun e => e.1 rfl
  have hfollower := ht.outside (followerOf o) fun e => e.2 rfl
  exact hended.after hw.count (congrArg Spout.context hleader) ht.spared
    ((congrArg (fun p => p.context.claim) hfollower).trans hended.unclaimed) (congrArg (fun p => p.channel.delivered) hfollower)

end AllStop

end Sys2Proof.Machine

/-! An ALL_STOP while the claim of a TWIN waits on its follower (R53, R116), and the statement on the ends of a TWIN. -/

namespace Sys2Proof.Machine

/-! ## The pair's own stops -/

section Own

variable {o : SpoutId} {n : SlotId} {s t u : State} (h : s.WorkLawful) (hw : s.ClaimWaits o n)

/-- R116: a context that runs an order of its own. -/
theorem stopOwn_running {i : SpoutId} {m : SlotId} (hslot : (t.context i).slot = some m) (hb : t.stage i ≠ .bound) :
    stopOwn i t = stopRunning react i t := by
  refine if_pos ?_
  unfold State.isBound
  rw [hslot, beq_eq_false_iff_ne.2 hb]; rfl

include h hw

/-- R53, R116: the follower's own order is stopped after its leader's TWIN. -/
theorem State.ClaimEnded.afterFollowerStop (hended : s.ClaimEnded o n 3 u)
    (hf : u.context (followerOf o) = { s.context (followerOf o) with claim := none }) (hq : u.queue (followerOf o) = []) :
    s.ClaimEnded o n 3 (stopOwn (followerOf o) u)
      ∧ (Locality.sparing (· = followerOf o) (fun _ => False) n).Within u (stopOwn (followerOf o) u) := by
  obtain ⟨m, -, hown⟩ := h.follower_slot hw
  have hwithin := (h.follower_within hw hf hq).stopOwn (i := followerOf o) rfl
  refine ⟨hended.afterFollower hw hwithin ?_, hwithin⟩
  rw [stopOwn_running ((congrArg Context.slot hf).trans hown) fun e => hw.unbound ((congrArg Context.stage hf).symm.trans e)]
  exact delivered_stopRunning {
    delivered := rfl
    queue := hq
    claim := congrArg Context.claim hf
    single := (congrArg (fun c => c.order.twin) hf).trans (h.follower_single o) }

end Own

/-! ## The whole part (R116) -/

/-- R53, R116: the TWIN ends, and its follower's own order is stopped as any other. -/
theorem allStop_ends_claim {o : SpoutId} {n : SlotId} {s : State} (h : s.WorkLawful) (hw : s.ClaimWaits o n)
    (hx : s.port.exchange = .running) (ht : (s.order o).stopTaken = false) :
    ∃ t, exec .allStop s = .next t ∧ s.ClaimEnded o n 3 t := by
  have hwithdrawn := h.withdrawn
  have hexec : exec .allStop s = .next (forSpouts stopOwn (forSpouts withdrawQueue s)) := congrArg Host.Outcome.next (if_pos hx)
  generalize forSpouts withdrawQueue s = v at *
  have hempty (j : SpoutId) : v.queue j = [] :=
    hwithdrawn.emptied j (List.mem_append_left _ (List.mem_reverse.2 (mem_allSpouts j)))
  obtain ⟨l, l', hsplit, hl, hl'⟩ := allSpouts_split hw.even
  have hbase := h.beside_within hw hx hwithdrawn.context hempty
  have hbefore : (Locality.besidePair o n).Within v (l.foldl (fun t j => stopOwn j t) v) :=
    hbase.foldl l stopOwn hl fun j t hj ht => ht.stopOwn hj
  have hwf : (l.foldl (fun t j => stopOwn j t) v).memory.wf = true :=
    foldl_kept (P := fun t => t.memory.wf = true) (fun t j => stopOwn j t) (fun t j => wf_stopOwn j) l hwithdrawn.wf
  have hfold : forSpouts stopOwn v
      = l'.foldl (fun t j => stopOwn j t) (stopOwn (followerOf o) (stopOwn o (l.foldl (fun t j => stopOwn j t) v))) := by
    unfold forSpouts
    rw [hsplit, List.foldl_append, List.foldl_cons, List.foldl_cons]
  rw [hfold] at hexec
  generalize l.foldl (fun t j => stopOwn j t) v = a at *
  have hleader : a.spout o = v.spout o := hbefore.outside o fun e => e.1 rfl
  have hfollower : a.spout (followerOf o) = v.spout (followerOf o) := hbefore.outside _ fun e => e.2 rfl
  have hcontext (j : SpoutId) (hj : a.spout j = v.spout j) : a.context j = s.context j :=
    (congrArg Spout.context hj).trans (hwithdrawn.context j)
  have hslot : SameSlot n s a := (hwithdrawn.slots n fun j _ => h.not_queued hw.slot).trans hbefore.spared
  have hwaits : a.ClaimWaits o n := hw.kept hwf (hcontext o hleader) (hcontext _ hfollower)
    ((congrArg Spout.queue hleader).trans (hempty o))
  have hd : (a.channel (followerOf o)).delivered = (s.channel (followerOf o)).delivered :=
    congrArg Channel.delivered ((congrArg Spout.channel hfollower).trans (hwithdrawn.channel _))
  obtain ⟨b, hended, hb, hshown⟩ := hwaits.endsStopped ((congrArg (fun c => c.order.stopTaken) (hcontext o hleader)).trans ht)
  have hown : stopOwn o a = b := (stopOwn_running hwaits.slot (by rw [hwaits.stage]; decide)).trans hended
  have hshown := hshown.before hw.count (hcontext o hleader) hslot hd
  have hbound : b.context (followerOf o) = { s.context (followerOf o) with claim := none } := by
    rw [← hcontext _ hfollower]; exact hb.atSecond.context
  have hqueue : b.queue (followerOf o) = [] :=
    hb.atSecond.queue.trans ((congrArg Spout.queue hfollower).trans (hempty _))
  obtain ⟨hstopped, hwithin⟩ := hshown.afterFollowerStop h hw hbound hqueue
  rw [hown] at hexec
  generalize stopOwn (followerOf o) b = c at *
  have hkind (q : SlotId) (hq : q ≠ n) : c.slotKind q = v.slotKind q :=
    (hwithin.slotKind q).trans ((hb.slots q fun e => hq (Option.some.inj e)).slotKind.trans (hbefore.slotKind q))
  have hrest : (Locality.besidePair o n).Within c c := .refl (Locality.sound_besidePair hw.even n) fun j hj => by
    rw [hwithin.outside j hj.2, hb.others j hj.1 hj.2]
    exact (hbefore.holds j hj).rebase hkind
  exact ⟨_, hexec, hstopped.afterBeside hw (hrest.foldl l' stopOwn hl' fun j t hj ht => ht.stopOwn hj)⟩

/-! ## The statement -/

/-- R53: a TWIN whose claim still waits, ended by a lost sensor of either spout, by a STOP or by ALL_STOP. -/
theorem claim_ends {c : Instr} {o : SpoutId} {n : SlotId} {s : State} (h : s.WorkLawful) (hx : s.port.exchange = .running)
    (hp : s.claimPending o = true) (hn : (s.context o).slot = some n) (hs : s.stage o = .waitIndex) (hq : s.queue o = [])
    (hmark : (s.order o).mark = .none) (hf : s.stage (followerOf o) ≠ .idle) :
    let f := followerOf o
    let lost := (c = .silenceTimerExpiry o ∧ s.isFaulted o = false ∧ (s.receiver o).link = .present)
      ∨ (c = .silenceTimerExpiry f ∧ s.isFaulted f = false ∧ (s.receiver f).link = .present)
    let stopped := (s.order o).stopTaken = false ∧ (c = .allStop ∨ (c ≠ .allStop ∧ s.stopsOrder c o n))
    (∀ m, m = o ∨ m = f → (s.receiver m).link = .present → (s.receiver m).silence.isSome = true) →
    lost ∨ stopped →
    ∃ t, exec c s = .next t ∧ t.atRest o ∧ (t.context f).claim = none ∧ t.slotStateByte n = 4
      ∧ (lost → t.slotU8 n 3 = 6) ∧ (stopped → t.slotU8 n 3 = 3)
      ∧ (∀ e ∈ List.range (s.order o).count, t.entryCode n e = if s.entryCode n e = 0 then 21 else s.entryCode n e)
      ∧ t.gate o = s.gate o ∧ (t.channel f).delivered = (s.channel f).delivered := by
  intro f lost stopped hsilence hcase
  have hw := h.claimWaits hp hn hs hq hmark hf
  have hapart : lost → ¬ stopped := by
    rintro (⟨rfl, -⟩ | ⟨rfl, -⟩) ⟨-, e | ⟨-, -, -, -, -, ⟨p, e, -⟩ | ⟨e, -⟩⟩⟩ <;> cases e
  have hlost (hl : lost) : ∃ t, exec c s = .next t ∧ s.ClaimEnded o n 6 t := by
    obtain ⟨rfl, hsound, hlink⟩ | ⟨rfl, hsound, hlink⟩ := hl
    · exact silence_ends_claim_leader h hw hx hsound hlink (hsilence o (.inl rfl) hlink) rfl
    · exact silence_ends_claim_follower h hw hx hsound hlink (hsilence f (.inr rfl) hlink) rfl
  have hstopped (hst : stopped) : ∃ t, exec c s = .next t ∧ s.ClaimEnded o n 3 t := by
    obtain ⟨ht, rfl | ⟨hc, hstops⟩⟩ := hst
    · exact allStop_ends_claim h hw hx ht
    · exact stop_ends_claim hw ht hc hstops
  obtain hl | hst := hcase
  · obtain ⟨t, hexec, hended⟩ := hlost hl
    exact ⟨t, hexec, hended.rests, hended.unclaimed, hended.slotState, fun _ => hended.result, fun e => absurd e (hapart hl),
      fun e he => hended.codes e (List.mem_range.1 he), hended.gate, hended.delivered⟩
  · obtain ⟨t, hexec, hended⟩ := hstopped hst
    exact ⟨t, hexec, hended.rests, hended.unclaimed, hended.slotState, fun e => absurd hst (hapart e), fun _ => hended.result,
      fun e he => hended.codes e (List.mem_range.1 he), hended.gate, hended.delivered⟩

/-- Settles O48: the six parts are the pair's interlocks, its lost sensors, the last close that its compartment waits for, its STOP
by the leader's stage, what its queues serve after a STOP, and the end of a claim that still waits. -/
theorem twinInterlocksFaultsAndStops : Obligations.TwinInterlocksFaultsAndStops := by
  refine ⟨?_, ?_, ?_, ?_, ?_, ?_⟩
  · intro c o m code s h hm he ho hg
    exact interlocks_cut_pair h hm he ho hg
  · intro o m s h hm ho hg hmark hf hp hs hc
    exact silence_cuts_pair h hm ho hg hmark hf hp hs hc
  · intro o m s h hm hs hn hmark hd ho hr hf hfollower
    exact lastClose_ends h hm hs hn hmark hd ho hr hf hfollower
  · intro c o n s hm hstops h hmark ht hz f hwill hwait
    obtain ⟨t, hexec, hstopped⟩ := exec_stopsPair hm hstops h hmark ht hz hwill hwait
    exact ⟨t, hexec, hstopped.cut, hstopped.pending, hstopped.released, hstopped.rested, hstopped.tables⟩
  · intro c o n m s hm hc hstops h hmark ht hs hcount hclaim hqueued hq hqf
    exact exec_stop_serves hm hc hstops h hmark ht hs hcount hclaim hqueued hq hqf
  · intro c o n s h hx hp hn hs hq hmark hf
    exact claim_ends h hx hp hn hs hq hmark hf

end Sys2Proof.Machine
